-- ==== Sys2Proof/Word.lean ====
section
/-! DEFINITION. The word types of the package and their plainest arithmetic (00_scope.md, R7, R9). -/

namespace Sys2Proof

/-- One byte of memory, of an image or of a frame. -/
abbrev Byte := BitVec 8
/-- A 16-bit field. -/
abbrev Half := BitVec 16
/-- A 32-bit control-space register (R13). -/
abbrev Word := BitVec 32
/-- A 64-bit scalar register, tick value or argument (R7). -/
abbrev Dword := BitVec 64
/-- A 128-bit operation word (R167) or device identifier. -/
abbrev Qword := BitVec 128

/-- Ticks in one nanosecond, microsecond, millisecond and second (R7). -/
abbrev tNs : Nat := 16
abbrev tUs : Nat := 16000
abbrev tMs : Nat := 16000000
abbrev tSec : Nat := 16000000000

end Sys2Proof
end

