-- ==== Sys2Proof/Observe.lean ====
section
/-! DEFINITION. What some commands bring from outside the package: the physical facts that the package only observes (log entry 3). -/

namespace Sys2Proof

/-- What a link end observes when a training phase ends (13_bilsal_links.md R337–R341): the transmit lanes found shorted and open; the last
training block of each receive lane, empty without a signal; the receive lanes whose equalisation did not converge; each lane's transmit and receive latency in sixteenths of a tick; the eye heights; whether the phase succeeded
(lock at FEC, exchanges at INIT); and the tokens and the link-state entries that the peer sends at INIT. -/
structure TrainObs where
  shorts : BitVec 4 := 0
  opens : BitVec 4 := 0
  blocks : List (List Byte) := []
  eqFail : BitVec 4 := 0
  txLat : List Nat := []
  rxLat : List Nat := []
  eyes : Word := 0
  good : Bool := true
  tokens : List (Nat × Nat) := []
  lsas : List (List Byte) := []
  deriving DecidableEq, Repr

/-- A signature that verifies, or might: ECDSA P-384 of a SHA-384 digest, or ML-DSA-87 of a message with its context string, by a key. A command
that checks signatures brings those that verify (log entry 3). -/
structure SigCheck where
  mldsa : Bool
  key : List Byte
  context : List Byte := []
  message : List Byte
  sig : List Byte
  deriving DecidableEq, Repr

/-- A codeword as the decoder gives it (13_bilsal_links.md R335, log entry 3): its flit, and how many of its symbols were wrong. -/
structure Codeword where
  flit : List Byte := []
  errs : Nat := 0
  deriving DecidableEq, Repr

/-- A width change that has not finished in time (R343, R344): its stream, and whether the sender's codewords never showed the new mask. -/
structure LateChange where
  half : Fin 2 := 0
  lost : Bool := false
  deriving DecidableEq, Repr

/-- A word that a thread issues, with what its reads of the cell store meet there (05_cells.md R152, log entry 3): 0 no error, 1 one that ECC
corrects, 2 one that it cannot; and which of the lines that it reads. -/
structure IssuedWord where
  word : Qword
  ecc : Fin 3 := 0
  line : Nat := 0
  deriving DecidableEq, Repr

/-- What a turn boundary finds (04_islands_and_timetable.md R109, R136): whether TT_OUT reads back as driven, and for each island how many of its
clock's stretches since the last boundary were longer than 0.30 ns. -/
structure TurnObs where
  readBack : Bool := true
  stretch : List Nat := []
  deriving DecidableEq, Repr

/-- What a start-up meets (02_start_up.md R45–R49): the straps, the pin checks of the two flash groups in the fields of NVM_PINCHK, whether I1 opens within
1 ms, and whether the fuses are read without an uncorrectable error. A wake from P3 keeps the straps and does not read the fuses. -/
structure BootObs where
  strap : BitVec 4 := 0
  checkA : Word := 0
  checkB : Word := 0
  i1 : Bool := true
  otpOk : Bool := true
  deriving DecidableEq, Repr

/-- What a slow wear sample measures (22_wear.md R555): the VDD_CORE that each platform needs, in mV; the margin of one bank of each cell, of each depot slice
and of the signal box, in mV. -/
structure WearObs where
  need : List Int := []
  margins : List Int := []
  depot : List Int := []
  sb : Int := 0
  deriving DecidableEq, Repr

end Sys2Proof
end

