-- ==== Sys2Proof/Syntax.lean ====
section
/-! DEFINITION. The commands of the block: one constructor per row of spec/opcode_table.json, in the table's order, with the row's operands.
The table gives no bits; what each operand stands for is said at the row's meaning, and in log entry 10. -/

namespace Sys2Proof

/-- A command or event of the package (95_what_each_step_holds.md). A cell operation carries the cell, the thread and the 128-bit word that the thread issues (R167). -/
inductive Instr where
  /-- PORST_RISE (R46). -/
  | porstRise (obs : BootObs)
  /-- PORST_LOW_PULSE (R44). -/
  | porstLowPulse (ticks : Nat) (obs : BootObs)
  /-- FLASH_RECOVERY_EXPIRY (R46). -/
  | flashRecoveryExpiry (sfdpA sfdpB : Nat) (openA openB : BitVec 9)
  /-- SLOT_STREAM_DONE (R55). -/
  | slotStreamDone (ecdsa endEcdsa mldsa endMldsa : List SigCheck)
  /-- FLASH_READ_TIMEOUT (R68). -/
  | flashReadTimeout
  /-- ATTEMPT_RETRY (R54). -/
  | attemptRetry (checkA checkB : Word)
  /-- HBM_TRAINING_DONE (R59). -/
  | hbmTrainingDone (trainedMask : BitVec 8)
  /-- HAND_OVER (R90). -/
  | handOver
  /-- PLATFORM_OPEN_TIMEOUT (R60). -/
  | platformOpenTimeout (isl : Fin 14)
  /-- I1_OPEN_TIMEOUT (R68). -/
  | i1OpenTimeout
  /-- LINK_WINDOW_EXPIRY (R62). -/
  | linkWindowExpiry
  /-- LOCK_TIMEOUT_EXPIRY (R65). -/
  | lockTimeoutExpiry
  /-- OHMAX_SILENT_TIMEOUT (R61). -/
  | ohmaxSilentTimeout
  /-- STARTUP_DEADLINE_EXPIRY (R61). -/
  | startupDeadlineExpiry
  /-- TIME_FLIT_SEND (R360). -/
  | timeFlitSend (link : Fin 24) (half : Fin 2) (sentAt : Nat)
  /-- TIME_FLIT_RECEIVE (R112). -/
  | timeFlitReceive (link : Fin 24) (half : Fin 2) (cw : Codeword) (seenAt : Nat) (lane : Fin 4)
  /-- COLD_START_ROOT (R113). -/
  | coldStartRoot
  /-- TURN_BOUNDARY (R120). -/
  | turnBoundary (seen : TurnObs)
  /-- TWO_PHASE_ARM_TIMEOUT (R129). -/
  | twoPhaseArmTimeout
  /-- LOG_MARK (R126). -/
  | logMark
  /-- TELEMETRY_SNAPSHOT (R435). -/
  | telemetrySnapshot
  /-- WEAR_SAMPLE (R435). -/
  | wearSample (obs : WearObs)
  /-- SYNC_ADJUST (R118). -/
  | syncAdjust
  /-- TURN_SET (R126). -/
  | turnSet
  /-- AMEND_COMMIT (R416). -/
  | amendCommit
  /-- WEIGHT_SWITCH_STAGE (R317). -/
  | weightSwitchStage
  /-- WEIGHT_SWITCH_COMMIT (R321). -/
  | weightSwitchCommit
  /-- WEIGHT_SWITCH_ABORT (R322). -/
  | weightSwitchAbort
  /-- COLLECTIVE_LAUNCH (R380). -/
  | collectiveLaunch
  /-- TASK_POST (R275). -/
  | taskPost
  /-- DOORBELL (R254). -/
  | doorbell
  /-- ISLAND_OPEN (R486). -/
  | islandOpen
  /-- ISLAND_CLOSE (R488). -/
  | islandClose
  /-- ENTER_P2 (R497). -/
  | enterP2
  /-- ENTER_P3 (R499). -/
  | enterP3
  /-- CLOCK_SET (R106). -/
  | clockSet
  /-- CLOCK_SETTLED (R106). -/
  | clockSettled (isl : Fin 14)
  /-- SYNC_PPS_EDGE (R132). -/
  | syncPpsEdge (tick : Nat) (high : Nat)
  /-- SYNC_CODE_FRAME (R132). -/
  | syncCodeFrame (tick : Nat) (frame : List Byte)
  /-- SYNC_INTERVAL_MISSING (R135). -/
  | syncIntervalMissing
  /-- TT_NOW_LO_READ (R137). -/
  | ttNowLoRead
  /-- TT_CNTCLR (R137). -/
  | ttCntclr (value : Word)
  /-- NOP (R172). -/
  | nop (cell thread : Fin 64) (word : Qword)
  /-- END (R189). -/
  | cellEnd (cell thread : Fin 64) (word : Qword)
  /-- SLI (R172). -/
  | sli (cell thread : Fin 64) (word : Qword)
  /-- SALU (R173). -/
  | salu (cell thread : Fin 64) (word : Qword)
  /-- SCMP (R173). -/
  | scmp (cell thread : Fin 64) (word : Qword)
  /-- BR (R173). -/
  | br (cell thread : Fin 64) (word : Qword)
  /-- LBEGIN (R175). -/
  | lbegin (cell thread : Fin 64) (issued : IssuedWord)
  /-- LNEXT (R201). -/
  | lnext (cell thread : Fin 64) (issued : IssuedWord)
  /-- FLGRD (R174). -/
  | flgrd (cell thread : Fin 64) (word : Qword)
  /-- FLGTRAP (R174). -/
  | flgtrap (cell thread : Fin 64) (word : Qword)
  /-- FENCE (R183). -/
  | fence (cell thread : Fin 64) (word : Qword)
  /-- BAR (R184). -/
  | bar (cell thread : Fin 64) (word : Qword)
  /-- RRES (R242). -/
  | rres (cell thread : Fin 64) (word : Qword)
  /-- RRES_WAIT_GRANT (R242). -/
  | rresWaitGrant (ring : BitVec 14)
  /-- RWR (R188). -/
  | rwr (cell thread : Fin 64) (issued : IssuedWord)
  /-- RCOM (R243). -/
  | rcom (cell thread : Fin 64) (word : Qword)
  /-- RTAKE (R246). -/
  | rtake (cell thread : Fin 64) (word : Qword)
  /-- RTAKE_WAIT_DELIVER (R246). -/
  | rtakeWaitDeliver (ring : BitVec 14)
  /-- RMILE (R189). -/
  | rmile (cell thread : Fin 64) (word : Qword)
  /-- RDONE (R189). -/
  | rdone (cell thread : Fin 64) (word : Qword)
  /-- DARM (R190). -/
  | darm (cell thread : Fin 64) (word : Qword)
  /-- DCAN (R191). -/
  | dcan (cell thread : Fin 64) (word : Qword)
  /-- DWAIT (R191). -/
  | dwait (cell thread : Fin 64) (word : Qword)
  /-- DWAIT_WAKE (R191). -/
  | dwaitWake (cell thread : Fin 64)
  /-- TNOW (R191). -/
  | tnow (cell thread : Fin 64) (word : Qword)
  /-- LDS (R181). -/
  | lds (cell thread : Fin 64) (word : Qword) (ecc : Fin 3) (line : Nat)
  /-- STS (R181). -/
  | sts (cell thread : Fin 64) (word : Qword)
  /-- LDV (R181). -/
  | ldv (cell thread : Fin 64) (word : Qword) (ecc : Fin 3) (line : Nat)
  /-- STV (R181). -/
  | stv (cell thread : Fin 64) (word : Qword)
  /-- XGET (R181). -/
  | xget (cell thread : Fin 64) (word : Qword)
  /-- XPUT (R181). -/
  | xput (cell thread : Fin 64) (issued : IssuedWord)
  /-- XWAIT (R181). -/
  | xwait (cell thread : Fin 64) (word : Qword)
  /-- XATOM (R182). -/
  | xatom (cell thread : Fin 64) (word : Qword)
  /-- TRANSFER_COMPLETE (R231). -/
  | transferComplete (cell thread : Fin 64) (tag : Fin 17) (obs : Fin 4) (line : Nat)
  /-- TRANSFER_CLOSED_LIMIT (R182). -/
  | transferClosedLimit (cell thread : Fin 64) (tag : Fin 18)
  /-- STAGE (R176). -/
  | stage (cell thread : Fin 64) (word : Qword) (ecc : Fin 3) (line : Nat)
  /-- MMA (R177). -/
  | mma (cell thread : Fin 64) (word : Qword)
  /-- ACCRD (R178). -/
  | accrd (cell thread : Fin 64) (word : Qword)
  /-- ACCWR (R178). -/
  | accwr (cell thread : Fin 64) (word : Qword)
  /-- ACCST (R178). -/
  | accst (cell thread : Fin 64) (word : Qword)
  /-- VADD (R155). -/
  | vadd (cell thread : Fin 64) (word : Qword)
  /-- VMUL (R155). -/
  | vmul (cell thread : Fin 64) (word : Qword)
  /-- VFMA (R155). -/
  | vfma (cell thread : Fin 64) (word : Qword)
  /-- VMIN (R155). -/
  | vmin (cell thread : Fin 64) (word : Qword)
  /-- VMAX (R155). -/
  | vmax (cell thread : Fin 64) (word : Qword)
  /-- VCMP (R591). -/
  | vcmp (cell thread : Fin 64) (word : Qword)
  /-- VSEL (R172). -/
  | vsel (cell thread : Fin 64) (word : Qword)
  /-- VBCAST (R172). -/
  | vbcast (cell thread : Fin 64) (word : Qword)
  /-- VRED (R591). -/
  | vred (cell thread : Fin 64) (word : Qword)
  /-- VCVT (R179). -/
  | vcvt (cell thread : Fin 64) (word : Qword)
  /-- SFN (R156). -/
  | sfn (cell thread : Fin 64) (word : Qword)
  /-- ROPH (R157). -/
  | roph (cell thread : Fin 64) (word : Qword)
  /-- DICE (R180). -/
  | dice (cell thread : Fin 64) (word : Qword)
  /-- VCVTS (R180). -/
  | vcvts (cell thread : Fin 64) (word : Qword)
  /-- MIGRATION_EPOCH (R218). -/
  | migrationEpoch
  /-- WAGON_MOVE_SWITCH (R220). -/
  | wagonMoveSwitch (stalled : Nat)
  /-- HBM_STACK_FAIL (R227). -/
  | hbmStackFail (stack : Fin 8)
  /-- MEM_UCLR_HI_WRITE (R224). -/
  | memUclrHiWrite (value : Word)
  /-- RESERVATION_TIMEOUT (R244). -/
  | reservationTimeout (ring : BitVec 14)
  /-- ITEM_DOORBELL (R252). -/
  | itemDoorbell (fx : Fin 2) (off : BitVec 16) (poisoned : Bool) (data : List Byte)
  /-- TAIL_DOORBELL (R253). -/
  | tailDoorbell (fx : Fin 2) (off : BitVec 16) (poisoned : Bool) (data : List Byte)
  /-- CONSUME_DOORBELL (R392). -/
  | consumeDoorbell (fx : Fin 2) (off : BitVec 16) (poisoned : Bool) (data : List Byte)
  /-- RING_DRAIN_FLUSH (R259). -/
  | ringDrainFlush (ring : BitVec 14)
  /-- RING_DRAIN_END (R259). -/
  | ringDrainEnd (ring : BitVec 14)
  /-- RING_CUT_FLUSH (R260). -/
  | ringCutFlush (ring : BitVec 14)
  /-- TASK_SELECT (R270). -/
  | taskSelect
  /-- COLD_START_DONE (R272). -/
  | coldStartDone (cell : Fin 64)
  /-- QUIESCE_DONE (R278). -/
  | quiesceDone (cell : Fin 64) (ecc : Fin 3) (line : Nat)
  /-- QUIESCE_ABANDON (R279). -/
  | quiesceAbandon (cell : Fin 64)
  /-- PREEMPT_RETRY_TIMER (R279). -/
  | preemptRetryTimer (ring : BitVec 14) (seq : Nat)
  /-- SWITCH_SAVE_DONE (R278). -/
  | switchSaveDone (cell : Fin 64)
  /-- SWITCH_LOAD_DONE (R278). -/
  | switchLoadDone (cell : Fin 64)
  /-- WSET_STREAM_DONE (R282). -/
  | wsetStreamDone (wset : Fin 16) (data : List Byte)
  /-- WSET_STREAM_FAIL (R283). -/
  | wsetStreamFail (wset : Fin 16)
  /-- NO_CELL_TIMEOUT (R284). -/
  | noCellTimeout
  /-- SEQ_JOIN (R293). -/
  | seqJoin (ring : BitVec 14)
  /-- SEQ_CANCEL (R303). -/
  | seqCancel
  /-- SEQ_RESUME (R293). -/
  | seqResume
  /-- SEQ_TTL (R297). -/
  | seqTtl
  /-- PARK_COPY_DONE (R299). -/
  | parkCopyDone
  /-- SEQ_OVERRUN_START (R304). -/
  | seqOverrunStart
  /-- BANK_RELEASED (R310). -/
  | bankReleased (ch : Fin 16)
  /-- TURNTABLE_READY_REPORT (R318). -/
  | turntableReadyReport (ch : Fin 16) (pkg : Nat)
  /-- TURNTABLE_READY_TIMEOUT (R318). -/
  | turntableReadyTimeout (ch : Fin 16)
  /-- TURNTABLE_STREAM_START (R319). -/
  | turntableStreamStart (ch : Fin 16)
  /-- TURNTABLE_DONE_REPORT (R320). -/
  | turntableDoneReport (ch : Fin 16) (pkg : Nat)
  /-- TURNTABLE_DONE_TIMEOUT (R320). -/
  | turntableDoneTimeout (ch : Fin 16)
  /-- LINK_TRAIN_START (R337). -/
  | linkTrainStart (link : Fin 24) (half : Fin 2)
  /-- LINK_TRAIN_PHASE_END (R337). -/
  | linkTrainPhaseEnd (link : Fin 24) (half : Fin 2) (seen : TrainObs)
  /-- LINK_TRAIN_RETRY (R342). -/
  | linkTrainRetry (link : Fin 24) (half : Fin 2)
  /-- LANE_EXCLUDE (R343). -/
  | laneExclude (link : Fin 24) (lane : Fin 4)
  /-- LINKCTL_RECEIVE (R343). -/
  | linkctlReceive (link : Fin 24) (half : Fin 2) (cw : Codeword)
  /-- WIDTH_CHANGE_LOCKED (R343). -/
  | widthChangeLocked (link : Fin 24) (half : Fin 2)
  /-- WIDTH_CHANGE_TIMEOUT (R343). -/
  | widthChangeTimeout (link : Fin 24) (change : LateChange)
  /-- DATA_FLIT_RECEIVE (R347). -/
  | dataFlitReceive (link : Fin 24) (half : Fin 2) (flit : List Byte) (errs : Nat)
  /-- IDLE_FLIT_RECEIVE (R347). -/
  | idleFlitReceive (link : Fin 24) (half : Fin 2) (cw : Codeword)
  /-- NAK_RECEIVE (R347). -/
  | nakReceive (link : Fin 24) (half : Fin 2) (cw : Codeword)
  /-- REPLAY_TIMEOUT (R347). -/
  | replayTimeout (link : Fin 24) (half : Fin 2)
  /-- LINK_RETRAIN (R344). -/
  | linkRetrain (link : Fin 24)
  /-- LINK_ENABLE_CHANGE (R344). -/
  | linkEnableChange (link : Fin 24) (en : Bool)
  /-- LANE_MAP_CHANGE (R344). -/
  | laneMapChange (link : Fin 24) (value : Word)
  /-- READ_RECEIVE (R352). -/
  | readReceive (link : Fin 24) (half : Fin 2) (obs : Fin 4) (line : Nat)
  /-- READ_DATA_RECEIVE (R352). -/
  | readDataReceive (link : Fin 24) (half : Fin 2)
  /-- WRITE_RECEIVE (R352). -/
  | writeReceive (link : Fin 24) (half : Fin 2)
  /-- WRITE_ACK_RECEIVE (R352). -/
  | writeAckReceive (link : Fin 24) (half : Fin 2)
  /-- ATOMIC_RECEIVE (R352). -/
  | atomicReceive (link : Fin 24) (half : Fin 2) (obs : Fin 4)
  /-- ATOMIC_RESP_RECEIVE (R352). -/
  | atomicRespReceive (link : Fin 24) (half : Fin 2)
  /-- RING_OP_RECEIVE (R352). -/
  | ringOpReceive (link : Fin 24) (half : Fin 2)
  /-- RING_RESP_RECEIVE (R352). -/
  | ringRespReceive (link : Fin 24) (half : Fin 2)
  /-- CLOSED_RECEIVE (R492). -/
  | closedReceive (link : Fin 24) (half : Fin 2)
  /-- BOUNCE_RECEIVE (R492). -/
  | bounceReceive (link : Fin 24) (half : Fin 2)
  /-- ERROR_RECEIVE (R352). -/
  | errorReceive (link : Fin 24) (half : Fin 2)
  /-- LSA_RECEIVE (R357). -/
  | lsaReceive (link : Fin 24) (half : Fin 2)
  /-- LSA_REFRESH (R357). -/
  | lsaRefresh
  /-- EYE_REMEASURE (R363). -/
  | eyeRemeasure (link : Fin 24) (eyes : Word)
  /-- EXPRESS_PIP_RECEIVE (R374). -/
  | expressPipReceive (link : Fin 24) (half : Fin 2)
  /-- STREAM_RECEIVE (R379). -/
  | streamReceive (link : Fin 24) (half : Fin 2)
  /-- COLLECTIVE_TIMEOUT (R383). -/
  | collectiveTimeout (tree : Fin 64) (inst : Nat)
  /-- PIP_ARM (R385). -/
  | pipArm (link : Fin 24) (half : Fin 2)
  /-- PIP_ARM_ACK (R385). -/
  | pipArmAck (link : Fin 24) (half : Fin 2)
  /-- PIP_ARM_CANCEL (R385). -/
  | pipArmCancel (link : Fin 24) (half : Fin 2)
  /-- FX_PERST_DEASSERT (R389). -/
  | fxPerstDeassert (fx : Fin 2)
  /-- FX_PERST_ASSERT (R389). -/
  | fxPerstAssert (fx : Fin 2)
  /-- FX_LINK_L0 (R389). -/
  | fxLinkL0 (fx : Fin 2) (speed : Fin 6) (width : Fin 3)
  /-- FX_FUNCTION_READY (R63). -/
  | fxFunctionReady (fx : Fin 2)
  /-- PCIE_CONFIG_REQUEST (R63). -/
  | pcieConfigRequest (fx : Fin 2) (write : Bool) (off : BitVec 12) (value : Word) (kind : Fin 4)
  /-- BAR2_WRITE (R393). -/
  | bar2Write (fx : Fin 2) (off : BitVec 40) (poisoned : Bool) (data : List Byte)
  /-- BAR2_READ (R393). -/
  | bar2Read (fx : Fin 2) (bar0 : Bool) (off : BitVec 40) (len : Nat) (obs : Fin 4) (line : Nat)
  /-- STATUS_WINDOW_WRITE (R391). -/
  | statusWindowWrite (fx : Fin 2) (off : BitVec 24) (poisoned : Bool) (data : List Byte)
  /-- SPDM_GET_VERSION (R396). -/
  | spdmGetVersion (chan : Fin 4)
  /-- SPDM_GET_CAPABILITIES (R396). -/
  | spdmGetCapabilities (chan : Fin 4)
  /-- SPDM_NEGOTIATE_ALGORITHMS (R396). -/
  | spdmNegotiateAlgorithms (chan : Fin 4)
  /-- SPDM_GET_DIGESTS (R516). -/
  | spdmGetDigests (chan : Fin 4)
  /-- SPDM_GET_CERTIFICATE (R516). -/
  | spdmGetCertificate (chan : Fin 4) (slot : Fin 8) (off len : Half)
  /-- SPDM_CHALLENGE (R516). -/
  | spdmChallenge (chan : Fin 4) (slot : Fin 8)
  /-- SPDM_GET_MEASUREMENTS (R517). -/
  | spdmGetMeasurements (chan : Fin 4) (index : BitVec 8) (signed : Bool)
  /-- CXL_CORRECTABLE_ERROR (R398). -/
  | cxlCorrectableError (fx : Fin 2)
  /-- CXL_FATAL_ERROR (R398). -/
  | cxlFatalError (fx : Fin 2) (kind : Fin 4)
  /-- CXL_READ_TIMEOUT (R398). -/
  | cxlReadTimeout (fx : Fin 2)
  /-- FX_RETRAIN (R398). -/
  | fxRetrain (fx : Fin 2)
  /-- ROCE_SEND_RECEIVE (R402). -/
  | roceSendReceive (eth : Fin 2) (qpn : BitVec 24) (imm : Option Word) (data : List Byte) (ecn : Bool)
  /-- ROCE_WRITE_IMM_RECEIVE (R402). -/
  | roceWriteImmReceive (eth : Fin 2) (qpn : BitVec 24) (imm : Word) (va : Dword) (rkey : Word) (data : List Byte) (ecn : Bool)
  /-- RDMA_WRITE_RECEIVE (R401). -/
  | rdmaWriteReceive (eth : Fin 2) (qpn : BitVec 24) (va : Dword) (rkey : Word) (data : List Byte) (ecn : Bool)
  /-- RDMA_READ_REQUEST (R401). -/
  | rdmaReadRequest (eth : Fin 2) (qpn : BitVec 24) (va : Dword) (rkey : Word) (len : Nat) (obs : Fin 4) (line : Nat) (ecn : Bool)
  /-- CNP_RECEIVE (R400). -/
  | cnpReceive (eth : Fin 2) (qpn : BitVec 24)
  /-- CNP_RATE_RECOVERY (R400). -/
  | cnpRateRecovery (eth : Fin 2)
  /-- EGRESS_SEND (R403). -/
  | egressSend (eth : Fin 2) (qpn : BitVec 24)
  /-- EGRESS_ACK (R403). -/
  | egressAck (eth : Fin 2) (qpn : BitVec 24)
  /-- QP_RESET (R400). -/
  | qpReset (eth : Fin 2) (qpn : BitVec 24)
  /-- PTP_EVENT_MESSAGE (R404). -/
  | ptpEventMessage (eth : Fin 2)
  /-- PORT_WALL_PUBLISH (R404). -/
  | portWallPublish (tai : Dword)
  /-- AMEND_RECORD_TAKE (R409). -/
  | amendRecordTake (ecdsa mldsa : List SigCheck)
  /-- CLASS_C_DRAINED (R421). -/
  | classCDrained (scope : BitVec 16)
  /-- CLASS_C_HALF_DRAIN_SAVE (R425). -/
  | classCHalfDrainSave (scope : BitVec 16)
  /-- CLASS_C_DRAIN_TIMEOUT (R422). -/
  | classCDrainTimeout (scope : BitVec 16)
  /-- CLASS_C_APPLY_TIMEOUT (R423). -/
  | classCApplyTimeout (scope : BitVec 16) (op : Nat)
  /-- PLACEMENT_CHANGE (R427). -/
  | placementChange (obj : Word) (code : BitVec 8)
  /-- PLATFORM_ROLE_CHANGE (R308). -/
  | platformRoleChange (plat : Fin 8) (role : Fin 3)
  /-- CONTROL_REGISTER_WRITE (R14). -/
  | controlRegisterWrite (master : Fin 8) (addr value sets : Word) (valid : List SigCheck)
  /-- CONTROL_DECODE_ERROR (R449). -/
  | controlDecodeError (master : Fin 8) (foreign : Bool) (addr : Nat) (size : Nat) (write fetch : Bool) (data : Dword)
  /-- CLOSED_ISLAND_ACCESS (R450). -/
  | closedIslandAccess (master : Fin 8) (addr : Word) (write : Bool) (data : Word)
  /-- BRIDGE_ACCESS (R440). -/
  | bridgeAccess (master : Fin 8) (window : Fin 4) (off : BitVec 28) (size : Nat) (write : Bool) (data : Dword) (far : Option (List Byte))
  /-- SB_REMAP_WRITE (R441). -/
  | sbRemapWrite (value : Word)
  /-- SB_HBEAT_WRITE (R436). -/
  | sbHbeatWrite (value : Word)
  /-- CORE_WATCHDOG_EXPIRY (R436). -/
  | coreWatchdogExpiry (core : Fin 4)
  /-- POINTS_CHANGE (R463). -/
  | pointsChange (pin : Fin 48)
  /-- POINTS_CHANGE_QUIET (R463). -/
  | pointsChangeQuiet (pin : Fin 48)
  /-- POINTS_CHANGE_INPUT_READY (R463). -/
  | pointsChangeInputReady (pin : Fin 48) (level : Bool)
  /-- GPIO_OUT_WRITE (R481). -/
  | gpioOutWrite (mask value : BitVec 48)
  /-- PIN_SHORT_DETECT (R466). -/
  | pinShortDetect (pin : Fin 48)
  /-- PIN_FAULT_RETRY (R467). -/
  | pinFaultRetry (pin : Fin 48) (clean : Bool)
  /-- TURN_STROBE_ASSERT (R460). -/
  | turnStrobeAssert (pin : Fin 48)
  /-- TURN_STROBE_DEASSERT (R460). -/
  | turnStrobeDeassert (pin : Fin 48)
  /-- CONSOLE_COMMAND (R461). -/
  | consoleCommand (line : List Byte)
  /-- LAMP_FRAME_END (R472). -/
  | lampFrameEnd
  /-- LAMP_ACTION_POINT (R472). -/
  | lampActionPoint
  /-- LAMP_DAZZLE (R473). -/
  | lampDazzle (gap : Nat) (level : BitVec 8)
  /-- LAMP_BLANK_END (R473). -/
  | lampBlankEnd (gap : Nat) (level : BitVec 8)
  /-- LAMP_ABSENT (R474). -/
  | lampAbsent (level : BitVec 8)
  /-- LAMP_REPLY_START (R475). -/
  | lampReplyStart
  /-- LAMP_REPLY_DROP (R475). -/
  | lampReplyDrop
  /-- LAMP_TX_END (R471). -/
  | lampTxEnd
  /-- LAMP_NO_REPLY (R479). -/
  | lampNoReply
  /-- LAMP_IDENT (R476). -/
  | lampIdent
  /-- LAMP_STATUS (R476). -/
  | lampStatus
  /-- LAMP_LEDGER_READ (R476). -/
  | lampLedgerRead
  /-- LAMP_CHALLENGE (R478). -/
  | lampChallenge
  /-- LAMP_TOKEN_CHUNK (R478). -/
  | lampTokenChunk
  /-- LAMP_UNLOCK (R478). -/
  | lampUnlock (ecdsa mldsa : List SigCheck)
  /-- LAMP_LOCK (R478). -/
  | lampLock
  /-- LAMP_AMD_CHUNK (R476). -/
  | lampAmdChunk
  /-- LAMP_AMD_POST (R476). -/
  | lampAmdPost
  /-- LAMP_SESSION_EXPIRY (R478). -/
  | lampSessionExpiry
  /-- LAMP_NONCE_EXPIRY (R478). -/
  | lampNonceExpiry
  /-- LAMP_RSEND_WRITE (R482). -/
  | lampRsendWrite (value : Word)
  /-- ISLAND_PREPARE_DONE (R488). -/
  | islandPrepareDone (isl : Fin 14)
  /-- ISLAND_CLOSED (R488). -/
  | islandClosed (isl : Fin 14)
  /-- ISLAND_CLOSING_LIMIT (R489). -/
  | islandClosingLimit (isl : Fin 14)
  /-- ISLAND_OPEN_EDGE (R491). -/
  | islandOpenEdge (isl : Fin 14)
  /-- BOUNCE_EXPIRY (R495). -/
  | bounceExpiry
  /-- P2_ENTRY_COMPLETE (R497). -/
  | p2EntryComplete
  /-- WAKE_ALARM (R502). -/
  | wakeAlarm (rails : Bool) (obs : BootObs)
  /-- WAKE_PIN (R502). -/
  | wakePin (pin : Fin 48) (rising rails : Bool) (obs : BootObs)
  /-- WAKE_RAIL_TIMEOUT (R500). -/
  | wakeRailTimeout
  /-- AVS_TARGET_UPDATE (R504). -/
  | avsTargetUpdate (need : Nat)
  /-- AVS_DROOP (R505). -/
  | avsDroop (plat : Fin 8) (mhz sensed : Nat)
  /-- BROWN_OUT (R573). -/
  | brownOut (rail : Nat)
  /-- AO_POWER_ON_RESET (R574). -/
  | aoPowerOnReset
  /-- THERMAL_SAMPLE (R585). -/
  | thermalSample (plat port hbm : List Int)
  /-- THERMAL_TRIP (R586). -/
  | thermalTrip
  /-- POWER_ESTIMATE (R587). -/
  | powerEstimate (watts ungated : Nat)
  /-- POWER_SUSTAINED_GATE (R587). -/
  | powerSustainedGate
  /-- LIFECYCLE_TRANSITION (R509). -/
  | lifecycleTransition (ok : Bool) (obs : BootObs)
  /-- KEY_SLOT_PROGRAM (R511). -/
  | keySlotProgram
  /-- KEK_PROGRAM (R514). -/
  | kekProgram
  /-- KEY_REVOKE (R510). -/
  | keyRevoke (mask : BitVec 16)
  /-- ROLLBACK_FLOOR_RAISE (R515). -/
  | rollbackFloorRaise (value : Word)
  /-- FUSE_PROGRAM_DONE (R511). -/
  | fuseProgramDone (ok : Bool)
  /-- DEBUG_CHALLENGE (R524). -/
  | debugChallenge
  /-- DEBUG_REQUEST (R524). -/
  | debugRequest (value : Word) (ecdsa mldsa : List SigCheck)
  /-- DEBUG_SESSION_EXPIRY (R524). -/
  | debugSessionExpiry
  /-- DEBUG_NONCE_EXPIRY (R524). -/
  | debugNonceExpiry
  /-- CELL_HALT (R520). -/
  | cellHalt (high : Bool) (value : Word)
  /-- CORE_HALT (R530). -/
  | coreHalt (value : Word)
  /-- DEBUG_DATA_ACCESS (R520). -/
  | debugDataAccess (write : Bool) (value : Word)
  /-- DEBUG_RELEASE_TIMEOUT (R526). -/
  | debugReleaseTimeout
  /-- TAP_BYPASS (R521). -/
  | tapBypass
  /-- TAP_IDCODE (R521). -/
  | tapIdcode
  /-- TAP_SAMPLE_PRELOAD (R521). -/
  | tapSamplePreload (shift : List Bool)
  /-- TAP_EXTEST (R521). -/
  | tapExtest (low : Bool)
  /-- TAP_CLAMP (R521). -/
  | tapClamp (low : Bool)
  /-- TAP_HIGHZ (R521). -/
  | tapHighz (low : Bool)
  /-- TAP_DAPACC (R521). -/
  | tapDapacc
  /-- TAP_AOACC (R527). -/
  | tapAoacc (addr : Word)
  /-- FAULT_HANDLING_END (R541). -/
  | faultHandlingEnd
  /-- PACKAGE_STOP_PASS_END (R544). -/
  | packageStopPassEnd (done : Nat)
  /-- LOST_RECORD (R550). -/
  | lostRecord
  /-- QUARANTINE_RELEASE (R542). -/
  | quarantineRelease (cells : Dword) (isl : BitVec 14)
  /-- FAULT_DISCARD (R552). -/
  | faultDiscard (rec : Word)
  /-- FAST_MONITOR_SAMPLE (R556). -/
  | fastMonitorSample (tjPlat tjPort tjHbm : List Int) (vdd : Nat) (power : Int)
  /-- SLOW_MONITOR_SAMPLE (R556). -/
  | slowMonitorSample (obs : WearObs)
  /-- DAILY_PREDICTION (R559). -/
  | dailyPrediction
  /-- I3C_ENTDAA (R564). -/
  | i3cEntdaa (addr : BitVec 7)
  /-- I3C_SETDASA (R564). -/
  | i3cSetdasa (addr : BitVec 7)
  /-- I3C_RSTDAA (R564). -/
  | i3cRstdaa
  /-- I3C_ENEC (R564). -/
  | i3cEnec
  /-- I3C_DISEC (R564). -/
  | i3cDisec
  /-- I3C_GETPID (R564). -/
  | i3cGetpid
  /-- I3C_GETBCR (R564). -/
  | i3cGetbcr
  /-- I3C_GETDCR (R564). -/
  | i3cGetdcr
  /-- I3C_GETSTATUS (R564). -/
  | i3cGetstatus
  /-- I3C_GETMWL (R564). -/
  | i3cGetmwl
  /-- I3C_GETMRL (R564). -/
  | i3cGetmrl
  /-- I3C_PRIVATE_WRITE (R564). -/
  | i3cPrivateWrite (data : List Byte) (rails : Bool) (obs : BootObs)
  /-- I3C_PRIVATE_READ (R565). -/
  | i3cPrivateRead (count : Nat)
  /-- LAMP_RX_PULSE (R471). -/
  | lampRxPulse (gap width : Nat)
  /-- CXL_LINK_UP (R397). -/
  | cxlLinkUp (fx : Fin 2) (bytes : Nat) (speed : Fin 6) (width : Fin 2)
  /-- ETHERNET_LINK_CHANGE (R399). -/
  | ethernetLinkChange (eth : Fin 2) (up : Bool)
  /-- QUEUE_PAIR_ERROR (R400). -/
  | queuePairError (eth : Fin 2) (qpn : BitVec 24)
  /-- ENGINE_INTERNAL_ERROR (R534). -/
  | engineInternalError (engine : Fin 7)
  /-- SIGNAL_BOX_HARDWARE_FAILURE (R546). -/
  | signalBoxHardwareFailure (memory : Bool)
  /-- RAIL_RETURN (R573). -/
  | railReturn (obs : BootObs)
  /-- VDD_CORE_RECOVERY (R505). -/
  | vddCoreRecovery (plat : Fin 8) (sensed : Nat)
  /-- PLATFORM_OPEN_INTERVAL (R46). -/
  | platformOpenInterval
  deriving DecidableEq, Repr

end Sys2Proof
end

