-- ==== Sys2Proof/Decode.lean ====
section
/-! DEFINITION. The commands that the table's bits spell. No row of spec/opcode_table.json gives bits (every row's fields are empty), so no word spells a command. -/

namespace Sys2Proof

/-- The command a word spells: none, as the table gives no row any bits. -/
def decodeTableWord (_nbits _w : Nat) : Option Instr := none

end Sys2Proof
end

