-- ==== Sys2Proof/Config.lean ====
section
/-! DEFINITION. What one part fixes and the spec leaves open: free values, with no body, so that no proof can see them. -/

namespace Sys2Proof.Config

/-- A fresh free word for the n-th draw of the part: nonces, AMD_EPOCH, the LSA BOOT number and every
other point the spec leaves open in a step. The argument is `State.draws`, the model's own counter.
Log entry 6; safe (nothing constrains it). -/
opaque freeWord : Nat → Qword

/-- Which of the results inside a special function's error bound the part returns: a fixed function of
the function's code and its input (R156). Log entry 7; safe. -/
opaque sfnPick : Nat → Word → Nat

/-- The bytes of the boot ROM, whose contents the spec does not give (R46, R438). Log entry 26; safe. -/
opaque romByte : Nat → Byte

/-- A byte of the hand-over block, which the boot ROM writes at the n-th draw; the spec does not give its contents (R90). Safe. -/
opaque handByte : Nat → Nat → Byte

/-- The Cerhitar root CA and device CA certificates in the boot ROM (R516), whose bytes the spec does not give. Log entry 26; safe. -/
opaque romRoot : List Byte
opaque romDevice : List Byte

/-- What the I3C target answers to GETPID, GETBCR, GETDCR and GETMWL, by the command's place in that list: the spec gives no values (R564). Log entry 35; safe. -/
opaque i3cFixed : Nat → Nat

end Sys2Proof.Config
end

