-- ==== Sys2Proof/Machine/Bits.lean ====
section
/-! DEFINITION. Bit fields, byte order and sparse memories: the helpers every later file uses (R9). -/

namespace Sys2Proof.Machine

/-- Bits [hi:lo] of a number (R9). -/
def bitsOf (w hi lo : Nat) : Nat := (w >>> lo) % 2 ^ (hi + 1 - lo)

/-- Bit `k` of a number. -/
def bitAt (w k : Nat) : Bool := w.testBit k

/-- A number as a two's complement value of `n` bits. -/
def signed (n w : Nat) : Int :=
  let v := w % 2 ^ n
  if v < 2 ^ (n - 1) then (v : Int) else (v : Int) - (2 ^ n : Nat)

/-- The `n` low-order bytes of a number, least significant first (R9). -/
def leBytes : Nat → Nat → List Byte
  | 0, _ => []
  | n + 1, w => BitVec.ofNat 8 w :: leBytes n (w / 256)

/-- The number a list of bytes spells, least significant first (R9). -/
def leNat : List Byte → Nat
  | [] => 0
  | b :: bs => b.toNat + 256 * leNat bs

/-- The number a list of bytes spells, most significant first (network order, R9's exceptions). -/
def beNat (bs : List Byte) : Nat := bs.foldl (fun a b => a * 256 + b.toNat) 0

/-- The `n` low-order bytes of a number, most significant first. -/
def beBytes (n w : Nat) : List Byte := (leBytes n w).reverse

/-- A word made of fields given as (width, value), lowest field first. -/
def packFields : List (Nat × Nat) → Nat
  | [] => 0
  | (n, v) :: rest => v % 2 ^ n + 2 ^ n * packFields rest

/-- 1 for true, 0 for false. -/
def bit (b : Bool) : Nat := if b then 1 else 0

/-- Add to a count that saturates at `n` bits. -/
def satAdd (n a d : Nat) : Nat := min (a + d) (2 ^ n - 1)

/-- Round up to a multiple of `k`. -/
def alignUp (a k : Nat) : Nat := (a + k - 1) / k * k

/-- ⌈a ÷ b⌉. -/
def ceilDiv (a b : Nat) : Nat := (a + b - 1) / b

/-- The length of a number in bits. -/
def bitLen (n : Nat) : Nat := if n = 0 then 0 else n.log2 + 1

/-- The number of set bits among the low `n` bits. -/
def popCount : Nat → Nat → Nat
  | 0, _ => 0
  | n + 1, w => bit (w.testBit n) + popCount n w

/-- The numbers below `n` whose bits are set in `w`, ascending. -/
def maskList (n w : Nat) : List Nat := (List.range n).filter (fun k => w.testBit k)

/-- The mask whose set bits are the numbers listed. -/
def maskOf (l : List Nat) : Nat := l.foldl (fun a k => a ||| 2 ^ k) 0

/-- Replace the element at an index, leaving a list that is too short as it is. -/
def setAt {α : Type} (l : List α) (n : Nat) (f : α → α) : List α := l.modify n f

/-- The bytes `[off, off + n)` of a byte string, reading 0 past its end. -/
def bytesAt (b : List Byte) (off n : Nat) : List Byte :=
  (List.range n).map (fun k => b.getD (off + k) 0)

/-- The `n`-byte little-endian field at an offset of a byte string. -/
def fieldAt (b : List Byte) (off n : Nat) : Nat := leNat ((b.drop off).take n)

/-- The bytes of an ASCII text. -/
def ascii (t : List Char) : List Byte := t.map fun k => BitVec.ofNat 8 k.toNat

/-- Every byte of `[off, off + n)` is zero. -/
def zeroAt (b : List Byte) (off n : Nat) : Bool := ((b.drop off).take n).all (· == 0)

/-- Write a byte string into another at an offset, extending the target with zeros as needed. -/
def spliceBytes (b : List Byte) (off : Nat) (new : List Byte) : List Byte :=
  let padded := b ++ List.replicate (off - b.length) 0
  padded.take off ++ new ++ padded.drop (off + new.length)

/-! ### Sparse memory: (key, value) pairs with strictly rising keys and no entry equal to the default -/

/-- The value at a key; an unlisted key reads the default. -/
def sget {α : Type} (dflt : α) : List (Nat × α) → Nat → α
  | [], _ => dflt
  | (k, v) :: rest, a => if k = a then v else if a < k then dflt else sget dflt rest a

/-- Write a value; writing the default removes the entry, so equal contents are equal lists. -/
def sput {α : Type} [DecidableEq α] (dflt : α) : List (Nat × α) → Nat → α → List (Nat × α)
  | [], a, v => if v = dflt then [] else [(a, v)]
  | (k, w) :: rest, a, v =>
    if k = a then (if v = dflt then rest else (a, v) :: rest)
    else if a < k then (if v = dflt then (k, w) :: rest else (a, v) :: (k, w) :: rest)
    else (k, w) :: sput dflt rest a v

/-- The canonical form: strictly rising keys above a bound, no default listed. -/
def swf {α : Type} [DecidableEq α] (dflt : α) : Option Nat → List (Nat × α) → Bool
  | _, [] => true
  | lo, (k, v) :: rest =>
    (match lo with | none => true | some l => decide (l < k)) && decide (v ≠ dflt) && swf dflt (some k) rest

/-- Bytes `[a, a + n)` of a byte memory whose unlisted bytes read 0. -/
def sread (m : List (Nat × Byte)) (a n : Nat) : List Byte :=
  (List.range n).map (fun k => sget 0 m (a + k))

/-- Store a byte string at consecutive addresses. -/
def swrite (m : List (Nat × Byte)) (a : Nat) : List Byte → List (Nat × Byte)
  | [] => m
  | b :: bs => swrite (sput 0 m a b) (a + 1) bs

/-- Clear `n` bytes from an address. -/
def sclear (m : List (Nat × Byte)) (a n : Nat) : List (Nat × Byte) :=
  m.filter (fun c => decide (c.1 < a ∨ a + n ≤ c.1))

/-- The `n`-byte little-endian number at an address of a byte memory. -/
def sreadNat (m : List (Nat × Byte)) (a n : Nat) : Nat := leNat (sread m a n)

/-! ### Checks named by the spec -/

/-- One step of the reflected CRC-32 over a byte (03_amibo_image.md, HEADER_CRC). -/
def crc32Byte (crc : Nat) (b : Byte) : Nat :=
  (List.range 8).foldl
    (fun c _ => if c % 2 = 1 then (c / 2) ^^^ 0xEDB88320 else c / 2) (crc ^^^ b.toNat)

/-- IEEE 802.3 CRC-32: reflected, initial value and final XOR all ones (03, under R77). -/
def crc32 (bs : List Byte) : Nat := bs.foldl crc32Byte 0xFFFFFFFF ^^^ 0xFFFFFFFF

/-- CRC-16/CCITT: 0x1021, initial value 0xFFFF, no reflection, no final XOR (R132, R470). -/
def crc16 (bs : List Byte) : Nat :=
  bs.foldl (fun crc b =>
    (List.range 8).foldl
      (fun c _ => if 0x8000 ≤ c then ((c * 2) % 0x10000) ^^^ 0x1021 else (c * 2) % 0x10000)
      (crc ^^^ (b.toNat * 256))) 0xFFFF

/-- CRC-64/XZ: 0x42F0E1EBA9EA3693 reflected, initial value and final XOR all ones (R345). -/
def crc64 (bs : List Byte) : Nat :=
  bs.foldl (fun crc b =>
    (List.range 8).foldl (fun c _ => if c % 2 = 1 then (c / 2) ^^^ 0xC96C5795D7870F42 else c / 2) (crc ^^^ b.toNat))
    0xFFFFFFFFFFFFFFFF ^^^ 0xFFFFFFFFFFFFFFFF

end Sys2Proof.Machine
end

