-- ==== Sys2Proof/Machine/LoopWalk.lean ====
section
/-! DEFINITION. Loop descriptors, their checks, and the walk that LBEGIN and LNEXT perform (07_loop_tables.md R196–R206, R208). -/

namespace Sys2Proof.Machine

/-- A level entry (R197). -/
structure LoopLevel where
  dim : Nat
  split : Bool
  serpentine : Bool
  folded : Bool
  bound : Nat
  step : Nat
  deriving DecidableEq, Repr

/-- A role entry (R198). `kind`: 0 CELL, 1 GLOBAL, 2 MASK, 3 INDEX. -/
structure LoopRole where
  kind : Nat
  level : Nat
  baseReg : Nat
  skip : Bool
  stride : List Int
  deriving DecidableEq, Repr

/-- A fold entry (R199). -/
structure LoopFold where
  level : Nat
  inner : Nat
  stride : List Int
  deriving DecidableEq, Repr

/-- A descriptor (R196). -/
structure LoopDesc where
  levels : List LoopLevel
  roles : List LoopRole
  folds : List LoopFold
  deriving DecidableEq, Repr

def signedField (b : List Byte) (off : Nat) : Int := signed 32 (fieldAt b off 4)

def LoopLevel.count (l : LoopLevel) : Nat := ceilDiv l.bound l.step

def parseLevel (b : List Byte) : Option LoopLevel :=
  let fl := fieldAt b 1 1
  let bound := fieldAt b 4 4
  let step := fieldAt b 8 4
  if fieldAt b 0 1 ≤ 3 ∧ fl < 8 ∧ zeroAt b 2 2 ∧ zeroAt b 12 4 ∧
      1 ≤ bound ∧ bound ≤ 2 ^ 31 ∧ 1 ≤ step ∧ step ≤ bound then
    some ⟨fieldAt b 0 1, bitAt fl 0, bitAt fl 1, bitAt fl 2, bound, step⟩
  else none

def parseRole (nLevels : Nat) (b : List Byte) : Option LoopRole :=
  let kind := fieldAt b 0 1
  let lvl := fieldAt b 1 1
  let fl := fieldAt b 3 1
  let stride := (List.range 6).map (fun l => signedField b (8 + 4 * l))
  if kind ≤ 3 ∧ fl < 2 ∧ fieldAt b 2 1 < 32 ∧ zeroAt b 4 4 ∧
      (if 2 ≤ kind then lvl < nLevels else lvl = 0) ∧
      (fl = 1 → kind = 2) ∧
      (2 ≤ kind → stride.all (· == 0)) ∧ (stride.drop nLevels).all (· == 0) then
    some ⟨kind, lvl, fieldAt b 2 1, bitAt fl 0, stride⟩
  else none

def parseFold (nRoles : Nat) (roles : List LoopRole) (levels : List LoopLevel) (b : List Byte) : Option LoopFold :=
  let lvl := fieldAt b 0 1
  let inner := fieldAt b 4 4
  let stride := (List.range 8).map (fun r => signedField b (16 + 4 * r))
  match levels[lvl]? with
  | none => none
  | some l =>
    if zeroAt b 1 3 ∧ zeroAt b 8 8 ∧ l.folded ∧
        0 < inner ∧ inner % l.step = 0 ∧ l.bound % inner = 0 ∧ inner < l.bound ∧
        (stride.drop nRoles).all (· == 0) ∧
        ((List.range nRoles).all fun r =>
          match roles[r]? with
          | some ro => decide (ro.kind < 2) || stride.getD r 0 == 0
          | none => true) then
      some ⟨lvl, inner, stride⟩
    else none

/-- Every element of a list of options, or none. -/
def allSome {α : Type} : List (Option α) → Option (List α)
  | [] => some []
  | none :: _ => none
  | some a :: rest => (allSome rest).map (a :: ·)

/-- Parse and check a descriptor against R196–R200; none fails the section. -/
def parseLoopDesc (b : List Byte) : Option LoopDesc :=
  let nl := fieldAt b 0 1
  let nr := fieldAt b 1 1
  let nf := fieldAt b 2 1
  if ¬(1 ≤ nl ∧ nl ≤ 6 ∧ 1 ≤ nr ∧ nr ≤ 8 ∧ nf ≤ 2 ∧ zeroAt b 3 5 ∧
      b.length = 16 + 16 * nl + 32 * nr + 48 * nf) then none
  else
    match allSome ((List.range nl).map fun i => parseLevel (b.drop (16 + 16 * i))),
          allSome ((List.range nr).map fun i => parseRole nl (b.drop (16 + 16 * nl + 32 * i))) with
    | some levels, some roles =>
      match allSome ((List.range nf).map fun i =>
          parseFold nr roles levels (b.drop (16 + 16 * nl + 32 * nr + 48 * i))) with
      | none => none
      | some folds =>
        let iters := (levels.map LoopLevel.count).foldl (· * ·) 1
        let splits := (levels.filter (·.split)).length
        let serpOk := (levels.drop 1).all (fun l => !l.serpentine || (l.dim != 2 && !l.split)) &&
          !((levels.getD 0 ⟨0, false, false, false, 1, 1⟩).serpentine)
        let foldOk := decide ((folds.map (·.level)).Nodup) &&
          ((List.range nl).all fun i =>
            (levels.getD i ⟨0, false, false, false, 1, 1⟩).folded == folds.any (·.level == i))
        if fieldAt b 8 8 = iters ∧ iters ≤ 2 ^ 40 ∧ splits ≤ 1 ∧ serpOk ∧ foldOk then
          some ⟨levels, roles, folds⟩
        else none
    | _, _ => none

/-! ### The walk -/

/-- A loop walker (R175): its record, the first destination register, the captured bases, and how many
iterations of the odometer it has passed. -/
structure Walker where
  loopId : Word
  dreg : Nat
  desc : LoopDesc
  bases : List Dword
  splitP : Nat
  splitQ : Nat
  pos : Nat
  finished : Bool
  deriving DecidableEq, Repr

/-- The number of iterations a level visits on one pass (R201). -/
def visits (w : Walker) (l : LoopLevel) : Nat :=
  if l.split then
    let q := max w.splitQ 1
    let p := w.splitP % q
    ceilDiv (l.count - p) q
  else l.count

/-- Iterations of the odometer inside one iteration of level `i`. -/
def innerVisits (w : Walker) (i : Nat) : Nat :=
  ((w.desc.levels.drop (i + 1)).map (visits w)).foldl (· * ·) 1

/-- Iterations of the whole walk. -/
def totalVisits (w : Walker) : Nat := (w.desc.levels.map (visits w)).foldl (· * ·) 1

/-- The iteration j of level `i` at odometer position `pos` (R201). -/
def levelIter (w : Walker) (pos i : Nat) : Nat :=
  match w.desc.levels[i]? with
  | none => 0
  | some l =>
    let n := visits w l
    let v := (pos / innerVisits w i) % n
    let pass := pos / (innerVisits w i * n)
    if l.split then w.splitP % max w.splitQ 1 + v * max w.splitQ 1
    else if l.serpentine && pass % 2 = 1 then n - 1 - v
    else v

/-- The first index of level `i`'s current iteration. -/
def levelIndex (w : Walker) (pos i : Nat) : Nat :=
  levelIter w pos i * (w.desc.levels.getD i ⟨0, false, false, false, 1, 1⟩).step

def foldOf (w : Walker) (i : Nat) : Option LoopFold := w.desc.folds.find? (·.level == i)

/-- The contribution of a level to a CELL or GLOBAL role (R202). -/
def levelContribution (w : Walker) (pos role i : Nat) (r : LoopRole) : Int :=
  let j := levelIter w pos i
  match foldOf w i with
  | none => (j : Int) * r.stride.getD i 0
  | some f =>
    let idx := levelIndex w pos i
    let step := (w.desc.levels.getD i ⟨0, false, false, false, 1, 1⟩).step
    (idx / f.inner : Nat) * r.stride.getD i 0 + ((idx % f.inner) / step : Nat) * f.stride.getD role 0

/-- The cell-store offset of the length-table entry a folded mask reads (R202). -/
def maskTableOff (w : Walker) (pos role : Nat) (r : LoopRole) : Option Nat :=
  match foldOf w r.level with
  | none => none
  | some f => some ((w.bases.getD role 0).toNat + 4 * (levelIndex w pos r.level / f.inner))

/-- A MASK role's valid count; `lim` is its limit (R202). -/
def maskValue (w : Walker) (pos : Nat) (r : LoopRole) (lim : Nat) : Nat :=
  let l := w.desc.levels.getD r.level ⟨0, false, false, false, 1, 1⟩
  let i := levelIndex w pos r.level
  let first := match foldOf w r.level with
    | none => i
    | some f => i % f.inner
  let width := min (i + l.step) l.bound - i
  (max 0 (min ((lim : Int) - first) width)).toNat

/-- A role's value at a position; none when its length-table entry cannot be read (R202). -/
def roleValue (w : Walker) (pos role : Nat) (load : Nat → Option Nat) (r : LoopRole) : Option Dword :=
  let base := w.bases.getD role 0
  match r.kind with
  | 2 =>
    match maskTableOff w pos role r with
    | none => some (BitVec.ofNat 64 (maskValue w pos r (base.toNat % 2 ^ 32)))
    | some off => (load off).map fun lim => BitVec.ofNat 64 (maskValue w pos r lim)
  | 3 => some (BitVec.ofNat 64 (levelIndex w pos r.level))
  | _ =>
    let c := ((List.range w.desc.levels.length).map fun i => levelContribution w pos role i r).foldl (· + ·) 0
    some (base + BitVec.ofInt 64 c)

/-- Every role's value at a position. -/
def roleValues (w : Walker) (pos : Nat) (load : Nat → Option Nat) : Option (List Dword) :=
  allSome ((List.range w.desc.roles.length).map fun k =>
    match w.desc.roles[k]? with
    | some r => roleValue w pos k load r
    | none => some 0)

/-- The SKIP masks at a position, in role order: their levels and values, none for an entry that cannot be read (R203). -/
def skipValues (w : Walker) (pos : Nat) (load : Nat → Option Nat) : List (Nat × Option Dword) :=
  (List.range w.desc.roles.length).filterMap fun k =>
    match w.desc.roles[k]? with
    | some r => if r.kind = 2 ∧ r.skip then some (r.level, roleValue w pos k load r) else none
    | none => none

/-- The outermost level whose SKIP mask reads 0, among the masks that can be read in turn (R203). -/
def skipLevel (vals : List (Nat × Option Dword)) : Option Nat :=
  let hits := ((vals.takeWhile fun v => v.2.isSome).filter fun v => v.2 == some 0).map (·.1)
  hits.foldl (fun a l => match a with | none => some l | some m => some (min m l)) none

/-- The offset of the first length-table entry of an iteration that cannot be read, the SKIP masks' first. -/
def unreadOff (w : Walker) (pos : Nat) (load : Nat → Option Nat) : Nat :=
  let offs := fun (skip : Bool) => (List.range w.desc.roles.length).filterMap fun k =>
    match w.desc.roles[k]? with
    | some r => if r.kind = 2 ∧ r.skip = skip then maskTableOff w pos k r else none
    | none => none
  ((offs true ++ offs false).find? fun off => (load off).isNone).getD 0

/-- What a step of a walk finds: an iteration with its values, the end, or an entry it cannot read, at its offset. -/
inductive WalkStep
  | found (pos : Nat) (vals : List Dword) (skipped : Nat)
  | done (skipped : Nat)
  | unreadable (off : Nat)
  deriving DecidableEq, Repr

/-- Search from a position for an iteration that is not skipped; a skipped one needs no other role's value (R203, R207). -/
def walkFrom (w : Walker) (load : Nat → Option Nat) : Nat → Nat → Nat → WalkStep
  | 0, _, sk => .done sk
  | fuel + 1, pos, sk =>
    if totalVisits w ≤ pos then .done sk
    else
      match skipLevel (skipValues w pos load) with
      | some l =>
        let next := (pos / innerVisits w l + 1) * innerVisits w l
        walkFrom w load fuel next (sk + (next - pos))
      | none =>
        match roleValues w pos load with
        | none => .unreadable (unreadOff w pos load)
        | some vals => .found pos vals sk

/-- The walk at or after a position. -/
def walkSearch (w : Walker) (load : Nat → Option Nat) (pos : Nat) : WalkStep :=
  walkFrom w load (totalVisits w + 1) pos 0

/-- R208: the entry with the smallest LENGTH at least `len`, of (length, payload) pairs; none for length 0. -/
def bucketPick {α : Type} (entries : List (Nat × α)) (len : Nat) : Option (Nat × α) :=
  if len = 0 then none
  else
    (entries.filter (fun e => decide (len ≤ e.1))).foldl
      (fun a e => match a with
        | none => some e
        | some b => if e.1 < b.1 then some e else some b) none

end Sys2Proof.Machine
end

