-- ==== Sys2Proof/Machine/TypesImage.lean ====
section
/-! DEFINITION. The fuses of the security root and the running image, section by section (03_amibo_image.md; 20_security_and_debug.md R512). -/

namespace Sys2Proof.Machine

/-- A key slot (R512): the hash of R83 and its two bits. -/
structure KeySlot where
  hash : List Byte := []
  programmed : Bool := false
  revoked : Bool := false
  deriving DecidableEq, Repr

/-- A key-encryption key slot (R512, R529 ERASED). -/
structure KekSlot where
  kekId : List Byte := []
  key : List Byte := []
  programmed : Bool := false
  erased : Bool := false
  deriving DecidableEq, Repr

/-- The one-time-programmable fuses (R512; R35 for the identity fields). -/
structure Otp where
  assy : Nat := 1
  grade : Nat := 1
  ship : Nat := 1
  dieStep : Nat := 0
  dieMinor : Nat := 1
  pdStep : Nat := 0
  pdMinor : Nat := 1
  lcA : Nat := 1
  lcB : Nat := 1
  lcC : Nat := 1
  deviceId : List Byte := []
  slots : List KeySlot := []
  keks : List KekSlot := []
  seed : List Byte := []
  cert : List Byte := []
  rollback : List Word := []
  idcode : Word := 0
  portId : Word := 0
  deriving DecidableEq, Repr

/-- A pin-plan entry (R91). -/
structure PinEntry where
  bias : Nat := 1
  drive : Nat := 0
  invert : Bool := false
  fn : Nat := 0
  param : Nat := 0
  deriving DecidableEq, Repr

/-- The clock and island plan (R92). -/
structure ClkPlan where
  turnPeriod : Nat := 0
  linkWindow : Nat := 0
  lockTimeout : Nat := 0
  minStacks : Nat := 1
  minPlatforms : Nat := 1
  lockRequired : Bool := false
  syncMode : Nat := 0
  mhz : List Nat := []
  roles : List Nat := []
  deriving DecidableEq, Repr

/-- A ring-table entry (R93): placement, storage object and the 32-byte entry of "Rings". -/
structure RingEntry where
  ring : Nat
  isStatic : Bool
  obj : Nat
  entry : List Byte
  deriving DecidableEq, Repr

/-- An object-table entry (R94). -/
structure ObjEntry where
  id : Nat
  placement : Nat
  shadow : Bool
  home : Nat
  base : Nat
  size : Nat
  initBlob : Nat
  deriving DecidableEq, Repr

/-- A blob of PROGRAMS (R95). `kind` 1 is a cell program, 2 is data. -/
structure Blob where
  id : Nat
  kind : Nat
  data : List Byte
  deriving DecidableEq, Repr

/-- A loop record (R96, R196). -/
structure LoopRec where
  id : Nat
  program : Nat
  desc : LoopDesc
  deriving DecidableEq, Repr

/-- A bucket entry (R96). -/
structure Bucket where
  set : Nat
  index : Nat
  length : Nat
  loopId : Nat
  deriving DecidableEq, Repr

/-- A roster entry (R97). -/
structure RosterEntry where
  dev : List Byte
  num : Nat
  leaf : Bool
  sync : Bool
  deriving DecidableEq, Repr

/-- A link entry (R97). `kind`: 0 unused, 1 local, 2 global, 3 local split, 4 local half-link end. -/
structure LinkPlan where
  peerA : Nat := 0xFFFF
  linkA : Nat := 0xFF
  kind : Nat := 0
  peerB : Nat := 0xFFFF
  linkB : Nat := 0xFF
  deriving DecidableEq, Repr

/-- A tree entry (R98). -/
structure TreeEntry where
  tree : Nat
  pkg : Nat
  parent : Nat
  childMask : Nat
  deriving DecidableEq, Repr

/-- A seed departure (R99). -/
structure SeedDep where
  action : Nat
  scope : Nat
  order : Nat
  periodTurns : Nat
  phase : Nat
  arg : Nat
  deriving DecidableEq, Repr

/-- An amendment authority (R100). -/
structure Authority where
  id : Nat
  classes : Nat
  hash : List Byte
  deriving DecidableEq, Repr

/-- The security policy (R100). -/
structure Policy where
  secretIslands : Nat := 1
  lampPolicy : Nat := 0
  debugHash : List Byte := []
  auths : List Authority := []
  deriving DecidableEq, Repr

/-- An amendable field (R101). `cls`: 1 A, 2 B, 3 C. -/
structure AmendField where
  addr : Nat
  mask : Nat
  cls : Nat
  auths : Nat
  scope : Nat
  deriving DecidableEq, Repr

/-- A health threshold (R593). -/
structure Threshold where
  monitor : Nat
  sev : Nat
  lowOn : Bool
  highOn : Bool
  low : Int
  high : Int
  hold : Nat
  deriving DecidableEq, Repr

/-- The OHMAX section (R90). -/
structure OhmaxSec where
  version : Nat := 0
  entry : Nat := 0
  bssLen : Nat := 0
  code : List Byte := []
  deriving DecidableEq, Repr

/-- A validated image (R77–R101). `digest` is H of R82; `form`, `encrypted`, `wrapUsed` and `anchor` are the facts of NVM_RUNSIG (R102). -/
structure Image where
  imageId : List Byte := []
  sequence : Nat := 0
  secVer : Nat := 0
  assyMask : Nat := 0
  form : Nat := 1
  encrypted : Bool := false
  wrapUsed : Nat := 0
  anchor : Nat := 0xFF
  anchorHash : List Byte := []
  digest : List Byte := []
  ohmax : OhmaxSec := {}
  pins : List PinEntry := []
  clk : ClkPlan := {}
  rings : List RingEntry := []
  objs : List ObjEntry := []
  blobs : List Blob := []
  loops : List LoopRec := []
  buckets : List Bucket := []
  roster : List RosterEntry := []
  links : List (List LinkPlan) := []
  trees : List TreeEntry := []
  seeds : List SeedDep := []
  policy : Policy := {}
  amendable : List AmendField := []
  thresholds : List Threshold := []
  hasRoutes : Bool := false
  deriving DecidableEq, Repr

/-- The blob of a number, of a kind. -/
def Image.blob? (im : Image) (kind id : Nat) : Option Blob :=
  im.blobs.find? (fun b => b.id == id && b.kind == kind)

/-- The bytes of a plan blob (KIND 2), none without one. -/
def Image.plan? (im : Image) (id : Nat) : Option (List Byte) := (im.blob? 2 id).map (·.data)

/-- The object of a number. -/
def Image.obj? (im : Image) (id : Nat) : Option ObjEntry := im.objs.find? (·.id == id)

end Sys2Proof.Machine
end

