-- ==== Sys2Proof/Machine/TypesMem.lean ====
section
/-! DEFINITION. Objects, wagons, the depot cache and the migration engine (08_memory_tiers.md R211–R230). -/

namespace Sys2Proof.Machine

/-- Where a wagon's frame lies (R213). -/
inductive Loc
  | unbacked | hbm | sidings (port : Nat)
  deriving DecidableEq, Repr

/-- A wagon-map entry (R213). `second` is the sidings frame an inclusive wagon in HBM keeps; `cold` counts its epochs at heat 0. -/
structure Wagon where
  loc : Loc := .unbacked
  second : Option Nat := none
  dirty : Nat := 0
  unc : Nat := 0
  heat : Nat := 0
  cold : Nat := 0
  deriving DecidableEq, Repr

/-- A depot way: the line number it holds and whether it is dirty (R225). -/
structure DepotWay where
  line : Nat
  dirty : Bool
  deriving DecidableEq, Repr

/-- A depot set: 16 ways and the 15 bits of its pseudo-LRU tree (R225). -/
structure DepotSet where
  ways : List (Option DepotWay) := []
  tree : Nat := 0
  deriving DecidableEq, Repr

/-- A move in progress (R220). -/
structure Move where
  wagon : Nat
  dest : Loc
  since : Nat
  deriving DecidableEq, Repr

/-- The memory of this package (R212–R228). `bytes` holds every object byte homed here, by OFFSET; `poison` marks 64-byte units by
OFFSET ÷ 64; `sysWords` holds the words of the system rings (R263) by (ring × 65,536 + word) × 64 + byte.
`forced` lists the moves an amendment or the turntable asked for; `budget` is what the epoch that began at `epochAt` has left (R219); `poisonAddr` is the OFFSET of the last poison found, `hbmFitted` the frames of every fitted stack and `hbmFrames` those of the trained stacks
less the reserve (R234, R277); `sdgFrames` is the capacity of each CXL port in frames, and `backed` says
that the backing of step 15 is done (R215). -/
structure Mem where
  bytes : List (Nat × Byte) := []
  wagons : List (Nat × Wagon) := []
  poison : List (Nat × Bool) := []
  depot : List (Nat × DepotSet) := []
  sysWords : List (Nat × Byte) := []
  moves : List Move := []
  forced : List (Nat × Loc) := []
  budget : Nat := 0
  epochAt : Nat := 0
  sdgFrames : List (Nat × Nat) := []
  hbmFrames : Nat := 0
  stackFailed : Bool := false
  migUp : Nat := 0
  migDn : Nat := 0
  migStall : Nat := 0
  hits : Nat := 0
  misses : Nat := 0
  eccCorr : Nat := 0
  eccUncorr : Nat := 0
  poisonAddr : Option Nat := none
  hbmFitted : Nat := 0
  backed : Bool := false
  deriving DecidableEq, Repr

/-- The sparse memory is in canonical form: the byte store, the wagon map, the poison marks and the ring words. -/
def Mem.wf (m : Mem) : Bool :=
  swf 0 none m.bytes && swf ({} : Wagon) none m.wagons && swf false none m.poison && swf 0 none m.sysWords

end Sys2Proof.Machine
end

