-- ==== Sys2Proof/Machine/Memory.lean ====
section
/-! DEFINITION. Reads, writes and the depot of this package's memory (08_memory_tiers.md R211–R231). -/

namespace Sys2Proof.Machine

def wagonBytes : Nat := 65536

/-- An object is held by package `pkg` (R93, R94). -/
def ObjEntry.heldBy (o : ObjEntry) (pkg : Nat) : Bool := o.home == 0xFFFF || o.home == pkg

/-- TIER of PLACEMENT (R214). -/
def ObjEntry.tier (o : ObjEntry) : Nat := o.placement % 16
/-- DEPOT of PLACEMENT (R214). -/
def ObjEntry.depotMode (o : ObjEntry) : Nat := o.placement / 16 % 4
/-- TIERED wagons are inclusive (R214). -/
def ObjEntry.inclusive (o : ObjEntry) : Bool := o.tier == 3

/-- The object whose range holds (pkg, off) (R212). -/
def resolveObj (objs : List ObjEntry) (pkg off : Nat) : Option ObjEntry :=
  objs.find? (fun o => (o.home == pkg || o.home == 0xFFFF) && decide (o.base ≤ off) && decide (off < o.base + o.size))

/-- Every byte of `[off, off + n)` lies in one object (R181). -/
def inObject (objs : List ObjEntry) (pkg off n : Nat) : Bool :=
  match resolveObj objs pkg off with
  | none => false
  | some o => decide (off + n ≤ o.base + o.size)

/-- The fields of a global address (R211). -/
def addrSpace (a : Nat) : Nat := bitsOf a 63 62
def addrPkg (a : Nat) : Nat := bitsOf a 61 50
def addrOff (a : Nat) : Nat := bitsOf a 49 0
def globalAddr (pkg off : Nat) : Nat := pkg * 2 ^ 50 + off

def Mem.wagon (m : Mem) (w : Nat) : Wagon := sget {} m.wagons w
def Mem.setWagon (m : Mem) (w : Nat) (f : Wagon → Wagon) : Mem := { m with wagons := sput {} m.wagons w (f (m.wagon w)) }

/-- The wagons that `[off, off + n)` touches. -/
def wagonsOf (off n : Nat) : List Nat :=
  if n = 0 then [] else (List.range ((off + n - 1) / wagonBytes + 1 - off / wagonBytes)).map (· + off / wagonBytes)

/-- The pages that `[off, off + n)` touches, by OFFSET ÷ 4,096. -/
def pagesOf (off n : Nat) : List Nat :=
  if n = 0 then [] else (List.range ((off + n - 1) / 4096 + 1 - off / 4096)).map (· + off / 4096)

/-- The 64-byte units that `[off, off + n)` touches, by OFFSET ÷ 64. -/
def unitsOf (off n : Nat) : List Nat :=
  if n = 0 then [] else (List.range ((off + n - 1) / 64 + 1 - off / 64)).map (· + off / 64)

/-- The depot lines that `[off, off + n)` touches, by OFFSET ÷ 128. -/
def linesOf (off n : Nat) : List Nat :=
  if n = 0 then [] else (List.range ((off + n - 1) / 128 + 1 - off / 128)).map (· + off / 128)

def Mem.pageUncertain (m : Mem) (page : Nat) : Bool := (m.wagon (page / 16)).unc.testBit (page % 16)

/-- Some byte of the range lies in an unbacked wagon (R217). -/
def Mem.anyUnbacked (m : Mem) (off n : Nat) : Bool := (wagonsOf off n).any fun w => decide ((m.wagon w).loc = .unbacked)
/-- Some byte of the range lies in an uncertain page (R223). -/
def Mem.anyUncertain (m : Mem) (off n : Nat) : Bool := (pagesOf off n).any m.pageUncertain
/-- Some unit of the range is poisoned (R226). -/
def Mem.anyPoison (m : Mem) (off n : Nat) : Bool := (unitsOf off n).any fun u => sget false m.poison u

/-- Mark a page uncertain (R222), or clear its mark (R224). -/
def Mem.markPage (m : Mem) (page : Nat) : Mem := m.setWagon (page / 16) fun w => { w with unc := w.unc ||| 2 ^ (page % 16) }
def Mem.clearPage (m : Mem) (page : Nat) : Mem :=
  m.setWagon (page / 16) fun w => { w with unc := if w.unc.testBit (page % 16) then w.unc - 2 ^ (page % 16) else w.unc }

/-- Pages now marked uncertain (MEM_UNCERT, R234). -/
def Mem.uncertainCount (m : Mem) : Nat := (m.wagons.map fun e => popCount 16 e.2.unc).foldl (· + ·) 0

/-! ### The depot (R225) -/

/-- The slice of a line: the XOR of its 4-bit groups n[3:0] to n[42:40] (R225). -/
def depotSlice (n : Nat) : Nat := (List.range 11).foldl (fun a k => a ^^^ (n >>> (4 * k) % 16)) 0
/-- The set of a line, numbered across the slices (R225). -/
def depotIndex (n : Nat) : Nat := depotSlice n * 6144 + n / 16 % 6144

/-- The way the pseudo-LRU tree evicts next: each node's bit points to the side used less recently. -/
def plruVictim (tree : Nat) : Nat :=
  let n1 := bit (tree.testBit 0)
  let n2 := bit (tree.testBit (1 + n1))
  let n3 := bit (tree.testBit (3 + n1 * 2 + n2))
  let n4 := bit (tree.testBit (7 + n1 * 4 + n2 * 2 + n3))
  n1 * 8 + n2 * 4 + n3 * 2 + n4

/-- Set one bit of a number. -/
def setBit (w k : Nat) (b : Bool) : Nat :=
  if b then w ||| 2 ^ k else if w.testBit k then w - 2 ^ k else w

/-- Point the nodes on a way's path away from it (`toward = false`), or toward it so that it is evicted next. -/
def plruTouch (tree way : Nat) (toward : Bool) : Nat :=
  let b (k : Nat) : Bool := if toward then way.testBit k else !way.testBit k
  let t := setBit tree 0 (b 3)
  let t := setBit t (1 + way / 8) (b 2)
  let t := setBit t (3 + way / 4) (b 1)
  setBit t (7 + way / 2) (b 0)

def DepotSet.way? (s : DepotSet) (line : Nat) : Option Nat :=
  (List.range 16).find? fun k => match s.ways.getD k none with | some w => w.line == line | none => false

def Mem.depotHolds (m : Mem) (line : Nat) : Bool := ((sget {} m.depot (depotIndex line)).way? line).isSome

/-- A miss that reaches a wagon's frame warms the wagon (R218). -/
def Mem.warm (m : Mem) (off : Nat) : Mem :=
  m.setWagon (off / wagonBytes) fun w => if w.loc = .unbacked then w else { w with heat := min 255 (w.heat + 1), cold := 0 }

/-- Put a line into a set: an empty way first, else the victim of the tree. -/
def DepotSet.insert (s : DepotSet) (line : Nat) (dirty evictFirst : Bool) : DepotSet :=
  let ways := if s.ways.length = 16 then s.ways else List.replicate 16 none
  let k := match (List.range 16).find? (fun k => (ways.getD k none).isNone) with
    | some k => k
    | none => plruVictim s.tree
  { ways := ways.set k (some ⟨line, dirty⟩), tree := plruTouch s.tree k evictFirst }

/-- The frame behind a line is in HBM, and HBM has lost its data (R227). -/
def Mem.lineLost (m : Mem) (line : Nat) : Bool := m.stackFailed && decide ((m.wagon (line * 128 / wagonBytes)).loc = .hbm)

/-- One access to a line: a hit touches the tree; a miss allocates unless the policy of the object says otherwise (R214, R225).
A write that covers the whole line does not read the frame, so it does not warm the wagon. A line that would have to be read from a lost HBM frame
is not allocated: such a read is poison, and such a write is lost (R227). -/
def Mem.touchLine (m : Mem) (mode line : Nat) (write whole : Bool) : Mem :=
  let s := sget {} m.depot (depotIndex line)
  match s.way? line with
  | some k =>
    let s' : DepotSet :=
      { ways := s.ways.modify k (fun w => w.map fun x => { x with dirty := x.dirty || write })
        tree := plruTouch s.tree k false }
    { m with depot := sput {} m.depot (depotIndex line) s', hits := (m.hits + 1) % 2 ^ 32 }
  | none =>
    let m := { m with misses := (m.misses + 1) % 2 ^ 32 }
    let m := if write && whole then m else m.warm (line * 128)
    if mode = 1 ∧ ¬ write ∨ m.lineLost line ∧ ¬ (write ∧ whole) then m
    else { m with depot := sput {} m.depot (depotIndex line) (s.insert line write (mode == 2)) }

def Mem.touchLines (m : Mem) (mode off n : Nat) (write : Bool) : Mem :=
  (linesOf off n).foldl (fun m l =>
    m.touchLine mode l write (decide (off ≤ l * 128) && decide (l * 128 + 128 ≤ off + n))) m

/-! ### Reads and writes at the home slice (R229–R231) -/

/-- What a failed stack makes of a read: a line not in the depot whose frame is in HBM reads as poison (R227). -/
def Mem.lostToStack (m : Mem) (off n : Nat) : Bool :=
  m.stackFailed && (linesOf off n).any fun l => !m.depotHolds l && m.lineLost l

/-- The poisoned 64-byte units of a range, counted from its start. -/
def Mem.badUnits (m : Mem) (off n : Nat) : List Nat :=
  (List.range (ceilDiv n 64)).filter fun k => m.anyPoison (off + 64 * k) 64 || m.lostToStack (off + 64 * k) 64

/-- The last poisoned unit of a range is recorded (R226). -/
def Mem.notePoison (m : Mem) (off n : Nat) : Mem :=
  match ((unitsOf off n).filter fun u => m.anyPoison (64 * u) 64 || m.lostToStack (64 * u) 64).getLast? with
  | some u => { m with poisonAddr := some (64 * u) }
  | none => m

/-- A read of `[off, off + n)`: its bytes, whether it carries poison, and the memory after. -/
def Mem.read (m : Mem) (mode off n : Nat) : List Byte × Bool × Mem :=
  (sread m.bytes off n, m.anyPoison off n || m.lostToStack off n, (m.notePoison off n).touchLines mode off n false)

/-- Store one 64-byte unit's share of a write: nothing in an unbacked wagon; a whole unit clears poison (R217, R226). -/
def Mem.writeUnit (m : Mem) (off : Nat) (bs : List Byte) : Mem :=
  if (m.wagon (off / wagonBytes)).loc = .unbacked then m
  else
    let m := { m with bytes := swrite m.bytes off bs }
    if bs.length = 64 then { m with poison := sput false m.poison (off / 64) false } else m

/-- Cut a write at 64-byte units. -/
def Mem.writeUnits (m : Mem) : Nat → Nat → List Byte → Mem
  | 0, _, _ => m
  | fuel + 1, off, bs =>
    if bs.isEmpty then m
    else
      let k := min (64 - off % 64) bs.length
      (m.writeUnit off (bs.take k)).writeUnits fuel (off + k) (bs.drop k)

/-- Set the dirty bits of the pages a write touches (R221), in backed wagons. -/
def Mem.dirtyPages (m : Mem) (off n : Nat) : Mem :=
  (pagesOf off n).foldl (fun m p => m.setWagon (p / 16) fun w =>
    if w.loc = .unbacked then w else { w with dirty := w.dirty ||| 2 ^ (p % 16) }) m

/-- Clear the uncertain marks of the pages that one write covers whole (R224), in backed wagons. -/
def Mem.coverPages (m : Mem) (off n : Nat) : Mem :=
  (pagesOf off n).foldl (fun m p =>
    if off ≤ p * 4096 ∧ p * 4096 + 4096 ≤ off + n ∧ (m.wagon (p / 16)).loc ≠ .unbacked then m.clearPage p else m) m

/-- A write performed at the home slice. `single` says that it is one XPUT or one host or network write (R224). -/
def Mem.write (m : Mem) (mode off : Nat) (bs : List Byte) (single : Bool) : Mem :=
  let n := bs.length
  let m := (m.touchLines mode off n true).writeUnits (n + 1) off bs
  let m := m.dirtyPages off n
  if single then m.coverPages off n else m

/-- Poison every unit of a range (R226). -/
def Mem.poisonRange (m : Mem) (off n : Nat) : Mem :=
  (unitsOf off n).foldl (fun m u => { m with poison := sput false m.poison u true }) m

/-- Fill wagon `w` with zeros (R215). -/
def Mem.zeroWagon (m : Mem) (w : Nat) : Mem :=
  { m with bytes := sclear m.bytes (w * wagonBytes) wagonBytes
           poison := m.poison.filter fun e => decide (e.1 < w * 1024 ∨ (w + 1) * 1024 ≤ e.1) }

/-! ### Frames and backing (R213, R215) -/

/-- HBM frames in use, with those reserved by moves under way. -/
def Mem.hbmUsed (m : Mem) : Nat :=
  (m.wagons.filter fun e => decide (e.2.loc = .hbm)).length +
    (m.moves.filter fun mv => decide (mv.dest = .hbm)).length

/-- Free HBM frames (MEM_HBMFREE, R234). -/
def Mem.hbmFree (m : Mem) : Nat := m.hbmFrames - m.hbmUsed

/-- Sidings frames in use on a port. -/
def Mem.sdgUsed (m : Mem) (port : Nat) : Nat :=
  (m.wagons.filter fun e => decide (e.2.loc = .sidings port) || decide (e.2.second = some port)).length +
    (m.moves.filter fun mv => decide (mv.dest = .sidings port)).length

/-- Free sidings frames on a port, and over the up ports (MEM_SDGFREE). -/
def Mem.sdgFreeOn (m : Mem) (port : Nat) : Nat := sget 0 m.sdgFrames port - m.sdgUsed port
def Mem.sdgFree (m : Mem) : Nat := (m.sdgFrames.map fun e => m.sdgFreeOn e.1).foldl (· + ·) 0

/-- The up port with a free frame that holds the fewest: the ports are used in turn (R213). -/
def Mem.pickPort (m : Mem) : Option Nat :=
  m.sdgFrames.foldl (fun a e =>
    if m.sdgFreeOn e.1 = 0 then a
    else match a with
      | none => some e.1
      | some p => if m.sdgUsed e.1 < m.sdgUsed p then some e.1 else a) none

/-- Every wagon of an object. -/
def ObjEntry.wagons (o : ObjEntry) : List Nat :=
  (List.range (o.size / wagonBytes)).map (· + o.base / wagonBytes)

/-- Back a wagon in HBM: zeros, every page clean, its uncertain marks kept (R215). -/
def Mem.backHbm (m : Mem) (w : Nat) : Mem := (m.zeroWagon w).setWagon w fun x => { x with loc := .hbm }

/-- Back a wagon in sidings on a port. -/
def Mem.backSdg (m : Mem) (w port : Nat) : Mem := (m.zeroWagon w).setWagon w fun x => { x with loc := .sidings port }

/-- Water levels of MEM_WATER, in frames (R234): percent of the fitted HBM frames, rounded down. -/
def waterFrames (fitted pct : Nat) : Nat := fitted * pct / 100

/-- Write INIT_BLOB data into a wagon of an object (R215). -/
def Mem.initWagon (m : Mem) (o : ObjEntry) (blob : List Byte) (w : Nat) : Mem :=
  { m with bytes := swrite m.bytes (w * wagonBytes) ((blob.drop (w * wagonBytes - o.base)).take wagonBytes) }

end Sys2Proof.Machine
end

