-- ==== Sys2Proof/Machine/RegMap.lean ====
section
/-! DEFINITION. The control registers of the package, one row per register group: address, count, stride, reset value and access masks (17_signal_box.md R455 and the settings rules of every chapter). -/

namespace Sys2Proof.Machine

/-- A register group. `rw`, `w1c`, `wo` and `am` are the bits of each access code (R14); `derived` marks a register whose
value other state determines. -/
structure RegSpec where
  addr : Nat
  count : Nat
  stride : Nat
  reset : Word
  rw : Word
  w1c : Word
  wo : Word
  am : Word
  derived : Bool
  deriving DecidableEq, Repr

/-! ### Addresses -/

def rSB_PKGID : Nat := 0x01000000
def rSB_FIT : Nat := 0x01000004
def rSB_BOOTSTAT : Nat := 0x01000010
def rSB_BOOTFLAGS : Nat := 0x01000014
def rSB_BOOTTIME : Nat := 0x01000018
def rNVM_PINCHK_PRI : Nat := 0x01130040
def rNVM_PINCHK_FBK : Nat := 0x01130044
def rNVM_IMGID : Nat := 0x01130050
def rNVM_RUNSEQ : Nat := 0x01130060
def rNVM_RUNSECVER : Nat := 0x01130064
def rNVM_RUNSIG : Nat := 0x01130068
def rTT_NOW_LO : Nat := 0x01010000
def rTT_NOW_HI : Nat := 0x01010004
def rTT_STAT : Nat := 0x01010008
def rTT_OFFSET : Nat := 0x0101000C
def rTT_TURN_LO : Nat := 0x01010010
def rTT_TURN_HI : Nat := 0x01010014
def rTT_TURNNUM_LO : Nat := 0x01010018
def rTT_TURNNUM_HI : Nat := 0x0101001C
def rTT_GRID_LO : Nat := 0x01010020
def rTT_GRID_HI : Nat := 0x01010024
def rTT_SYNC_CFG : Nat := 0x01010028
def rTT_SYNC_MISS : Nat := 0x01010030
def rTT_SYNC_EXTRA : Nat := 0x01010034
def rTT_SYNC_NUMERR : Nat := 0x01010038
def rTT_DEP : Nat := 0x01010040
def rTT_DEPREJ : Nat := 0x01010044
def rTT_LOGLOST : Nat := 0x01010048
def rTT_CNTCLR : Nat := 0x0101004C
def rISL_CLK : Nat := 0x01020000
def rISL_LONGSTRETCH : Nat := 0x01020004
def rCELL_STAT : Nat := 0x03000000
def rCELL_FPFLAGS : Nat := 0x03000004
def rCELL_ECC : Nat := 0x03000008
def rCELL_ECCADDR : Nat := 0x0300000C
def rCELL_CYCLES : Nat := 0x03000010
def rCELL_MACBUSY : Nat := 0x03000014
def rCELL_BANKSTALL : Nat := 0x03000018
def rCELL_EXC : Nat := 0x03000020
def rCELL_EXCPC : Nat := 0x03000024
def rCELL_EXCBLOB : Nat := 0x03000028
def rCELL_WALK : Nat := 0x03000030
def rCELL_WALKSKIP : Nat := 0x03000034
def rMEM_STAT : Nat := 0x010F0000
def rMEM_HBMFREE : Nat := 0x010F0004
def rMEM_SDGFREE : Nat := 0x010F0008
def rMEM_MIGCFG : Nat := 0x010F0010
def rMEM_WATER : Nat := 0x010F0014
def rMEM_MIGUP : Nat := 0x010F0018
def rMEM_MIGDN : Nat := 0x010F001C
def rMEM_MIGSTALL : Nat := 0x010F0020
def rMEM_UNCERT : Nat := 0x010F0024
def rMEM_UCLR_LO : Nat := 0x010F0028
def rMEM_UCLR_HI : Nat := 0x010F002C
def rMEM_UNBACKED : Nat := 0x010F0030
def rMEM_DHIT : Nat := 0x010F0040
def rMEM_DMISS : Nat := 0x010F0044
def rMEM_ECC : Nat := 0x010F0048
def rMEM_POISONADDR_LO : Nat := 0x010F0050
def rMEM_POISONADDR_HI : Nat := 0x010F0054
def rRING_CFG : Nat := 0x02000000
def rRING_LINK : Nat := 0x02000004
def rRING_CTL : Nat := 0x02000008
def rRING_STATE : Nat := 0x0200000C
def rRING_RESV : Nat := 0x02000010
def rRING_CMT : Nat := 0x02000014
def rRING_TAKE : Nat := 0x02000018
def rRING_FREE : Nat := 0x0200001C
def rDSP_CFG : Nat := 0x010C0000
def rDSP_STAT : Nat := 0x010C0004
def rDSP_LIGHT : Nat := 0x010C0008
def rDSP_HEAVY : Nat := 0x010C000C
def rDSP_ABANDON : Nat := 0x010C0010
def rDSP_LASTSW : Nat := 0x010C0014
def rDSP_RSEL : Nat := 0x010C0040
def rDSP_RCNT0 : Nat := 0x010C0044
def rDSP_RCNT1 : Nat := 0x010C0048
def rDSP_WSET : Nat := 0x010C0100
def rDSP_WSET_BYTES : Nat := 0x010C0104
def rDSP_WSET_DST : Nat := 0x010C0108
def rSEQ_STAT : Nat := 0x010D0000
def rSEQ_RESERVE : Nat := 0x010D0004
def rSEQ_PARKBUDGET : Nat := 0x010D0008
def rSEQ_POOLFREE : Nat := 0x010D000C
def rSEQ_PARKFREE : Nat := 0x010D0010
def rSEQ_LIVE : Nat := 0x010D0014
def rSEQ_QUEUED : Nat := 0x010D0018
def rSEQ_HELD : Nat := 0x010D001C
def rSEQ_BDTIME : Nat := 0x010D0020
def rSEQ_PARKS : Nat := 0x010D0024
def rSEQ_COMPRESS : Nat := 0x010D0028
def rSEQ_EVICT : Nat := 0x010D002C
def rSEQ_TTLEXP : Nat := 0x010D0030
def rSEQ_OVERRUN : Nat := 0x010D0034
def rSEQ_UNSCHED : Nat := 0x010D0038
def rSEQ_NOOP : Nat := 0x010D003C
def rTRN_STAT : Nat := 0x010E0000
def rTRN_CH_CUR : Nat := 0x010E0100
def rTRN_CH_OTHER : Nat := 0x010E0104
def rTRN_CH_STAGE : Nat := 0x010E0108
def rTRN_CH_CTL : Nat := 0x010E010C
def rTRN_CH_COMMITS : Nat := 0x010E0110
def rTRN_CH_FORCED : Nat := 0x010E0114
def rTRN_CH_BEHIND : Nat := 0x010E0118
def rTRN_CH_EXCL : Nat := 0x010E011C
def rLNK_STAT : Nat := 0x01100000
def rLNK_PEER : Nat := 0x01100004
def rLNK_LANETX : Nat := 0x01100008
def rLNK_LANERX : Nat := 0x0110000C
def rLNK_STATB : Nat := 0x01100010
def rLNK_PEERB : Nat := 0x01100014
def rLNK_CTL : Nat := 0x01100018
def rLNK_LANEMAP : Nat := 0x0110001C
def rLNK_FECCORR : Nat := 0x01100020
def rLNK_FECUNC : Nat := 0x01100024
def rLNK_CRCERR : Nat := 0x01100028
def rLNK_REPLAY : Nat := 0x0110002C
def rLNK_TRAINS : Nat := 0x01100030
def rLNK_EYE : Nat := 0x01100034
def rLNK_TTASYM : Nat := 0x01100038
def rLNK_TTCAL : Nat := 0x0110003C
def rLNK_TTOFF : Nat := 0x01100040
def rLNK_RTSTAT : Nat := 0x0110C000
def rLNK_RTGEN : Nat := 0x0110C004
def rLNK_NOROUTE : Nat := 0x0110C008
def rLNK_BADPKT : Nat := 0x0110C00C
def rLNK_LINKLOST : Nat := 0x0110C010
def rCOL_CFG : Nat := 0x01110000
def rCOL_STAT : Nat := 0x01110004
def rCOL_DONE : Nat := 0x01110008
def rCOL_FAIL : Nat := 0x0111000C
def rCOL_LASTFAIL : Nat := 0x01110010
def rCOL_TREE_STAT : Nat := 0x01110100
def rPORT_FX_STAT : Nat := 0x01120000
def rPORT_FX_ID : Nat := 0x01120004
def rPORT_FX_ERR : Nat := 0x01120008
def rPORT_FX_CTL : Nat := 0x0112000C
def rPORT_ETH_STAT : Nat := 0x01120100
def rPORT_ETH_RNR : Nat := 0x01120104
def rPORT_ETH_QPERR : Nat := 0x01120108
def rPORT_QPRESET : Nat := 0x01120200
def rPORT_WALL : Nat := 0x01120210
def rAMD_STAT : Nat := 0x010B0000
def rAMD_EPOCH_LO : Nat := 0x010B0008
def rAMD_EPOCH_HI : Nat := 0x010B000C
def rAMD_SINCE_LO : Nat := 0x010B0010
def rAMD_SINCE_HI : Nat := 0x010B0014
def rAMD_ACCEPTED : Nat := 0x010B0018
def rAMD_REJECTED : Nat := 0x010B001C
def rAMD_LAST : Nat := 0x010B0020
def rAMD_LASTSERIAL : Nat := 0x010B0024
def rAMD_REPLYLOST : Nat := 0x010B0028
def rAMD_PLACE_OBJ : Nat := 0x010B0040
def rAMD_PLACE_CODE : Nat := 0x010B0044
def rAMD_ROLE : Nat := 0x010B0080
def rAMD_SERIAL : Nat := 0x010B0100
def rSB_PKGNUM : Nat := 0x0100001C
def rSB_REMAP : Nat := 0x01000020
def rSB_DECERR : Nat := 0x01000024
def rSB_DECADDR : Nat := 0x01000028
def rSB_DECCNT : Nat := 0x0100002C
def rSB_CLOSEDACC : Nat := 0x01000030
def rSB_MATRIX : Nat := 0x01000034
def rSB_PARK0 : Nat := 0x01000038
def rSB_PARK1 : Nat := 0x0100003C
def rSB_BRIDGE_LO : Nat := 0x01000040
def rSB_BRIDGE_HI : Nat := 0x01000044
def rSB_BRIDGEERR : Nat := 0x01000060
def rSB_HBEAT : Nat := 0x01000064
def rSB_CORESTAT : Nat := 0x01000068
def rPIN_CFG : Nat := 0x01090000
def rPIN_PARAM_LO : Nat := 0x01090004
def rPIN_PARAM_HI : Nat := 0x01090008
def rPIN_STAT : Nat := 0x0109000C
def rPIN_GPIO_IN_LO : Nat := 0x01090400
def rPIN_GPIO_IN_HI : Nat := 0x01090404
def rPIN_GPIO_OUT_LO : Nat := 0x01090408
def rPIN_GPIO_OUT_HI : Nat := 0x0109040C
def rPIN_FAULTS_LO : Nat := 0x01090410
def rPIN_FAULTS_HI : Nat := 0x01090414
def rPIN_FAULTCNT : Nat := 0x01090418
def rPIN_CHANGES : Nat := 0x0109041C
def rLAMP_CFG : Nat := 0x010A0000
def rLAMP_STAT : Nat := 0x010A0004
def rLAMP_GOOD : Nat := 0x010A0008
def rLAMP_ERR : Nat := 0x010A000C
def rLAMP_REJECT : Nat := 0x010A0010
def rLAMP_DENIED : Nat := 0x010A0014
def rLAMP_RSEND : Nat := 0x010A0020
def rLAMP_RBUF : Nat := 0x010A0100
def rPWR_STAT : Nat := 0x01030000
def rPWR_FAILED : Nat := 0x01030004
def rPWR_REQ : Nat := 0x01030008
def rPWR_WAKECFG : Nat := 0x0103000C
def rPWR_ALARM_LO : Nat := 0x01030010
def rPWR_ALARM_HI : Nat := 0x01030014
def rPWR_AVS : Nat := 0x01030020
def rPWR_BOUNCE : Nat := 0x01030024
def rPWR_BOUNCED : Nat := 0x01030028
def rPWR_CLOSEDRSP : Nat := 0x0103002C
def rPWR_EXPIRED : Nat := 0x01030030
def rPWR_LASTTRANS : Nat := 0x01030034
def rPWR_THR : Nat := 0x01030040
def rPWR_PCEIL : Nat := 0x01030044
def rPWR_PCAP : Nat := 0x01030048
def rPWR_PEST : Nat := 0x0103004C
def rPWR_THRCNT : Nat := 0x01030050
def rPWR_BROWN : Nat := 0x01030054
def rSEC_LC : Nat := 0x01070000
def rSEC_KSSTAT : Nat := 0x01070004
def rSEC_KEKSTAT : Nat := 0x01070008
def rSEC_RBFLOOR : Nat := 0x0107000C
def rSEC_RBLEFT : Nat := 0x01070010
def rSEC_LCREQ : Nat := 0x01070014
def rSEC_PROGSTAT : Nat := 0x01070018
def rSEC_KSPROG_SLOT : Nat := 0x01070020
def rSEC_KSPROG_HASH : Nat := 0x01070024
def rSEC_KSREVOKE : Nat := 0x01070054
def rSEC_KEKPROG_SLOT : Nat := 0x01070060
def rSEC_KEKPROG_ID : Nat := 0x01070064
def rSEC_KEKPROG_WRAP : Nat := 0x01070074
def rSEC_GO : Nat := 0x010700A0
def rSEC_DEVID : Nat := 0x010700C0
def rSEC_IDCODE : Nat := 0x010700D0
def rSEC_MLOG : Nat := 0x01070100
def rDBG_STAT : Nat := 0x01080000
def rDBG_CHALREQ : Nat := 0x01080004
def rDBG_CHAL : Nat := 0x01080010
def rDBG_REQ : Nat := 0x01080030
def rDBG_PERMIT : Nat := 0x01080034
def rDBG_HALT_LO : Nat := 0x01080040
def rDBG_HALT_HI : Nat := 0x01080044
def rDBG_HALTED_LO : Nat := 0x01080048
def rDBG_HALTED_HI : Nat := 0x0108004C
def rDBG_CORE : Nat := 0x01080050
def rDBG_CELLSEL : Nat := 0x01080060
def rDBG_ADDR : Nat := 0x01080064
def rDBG_DATA : Nat := 0x01080068
def rDBG_ABANDON : Nat := 0x01080070
def rDBG_TOKBUF : Nat := 0x01084000
def rFLT_STAT : Nat := 0x01050000
def rFLT_ACT_SCOPE : Nat := 0x01050010
def rFLT_ACT_REC : Nat := 0x01050014
def rFLT_RECNO : Nat := 0x01050030
def rFLT_CNT_S : Nat := 0x01050040
def rFLT_LOST : Nat := 0x01050058
def rFLT_QUAR_LO : Nat := 0x01050060
def rFLT_QUAR_HI : Nat := 0x01050064
def rFLT_QUARISL : Nat := 0x01050068
def rFLT_DISCARD : Nat := 0x01050070
def rFLT_RET : Nat := 0x01050074
def rWEAR_STAT : Nat := 0x01060000
def rWEAR_EOL : Nat := 0x01060004
def rWEAR_BAND : Nat := 0x01060008
def rWEAR_CRIT : Nat := 0x01060010
def rWEAR_CRIT_P90 : Nat := 0x01060014
def rWEAR_AGE : Nat := 0x01060030
def rWEAR_SAMPLES : Nat := 0x01060034
def rWEAR_LOST : Nat := 0x01060038
def rWEAR_FLASH : Nat := 0x01060040

def regTable0 : List RegSpec := [
  ⟨rSB_PKGID, 1, 0, 0, 0, 0, 0, 0, true⟩,
  ⟨rSB_FIT, 1, 0, 0, 0, 0, 0, 0, true⟩,
  ⟨rSB_BOOTSTAT, 1, 0, 0, 0, 0, 0, 0, true⟩,
  ⟨rSB_BOOTFLAGS, 1, 0, 0, 0, 0, 0, 0, true⟩,
  ⟨rSB_BOOTTIME, 1, 0, 0, 0, 0, 0, 0, false⟩,
  ⟨rNVM_PINCHK_PRI, 1, 0, 0, 0, 0, 0, 0, false⟩,
  ⟨rNVM_PINCHK_FBK, 1, 0, 0, 0, 0, 0, 0, false⟩,
  ⟨rNVM_IMGID, 4, 4, 0, 0, 0, 0, 0, false⟩,
  ⟨rNVM_RUNSEQ, 1, 0, 0, 0, 0, 0, 0, false⟩,
  ⟨rNVM_RUNSECVER, 1, 0, 0, 0, 0, 0, 0, false⟩,
  ⟨rNVM_RUNSIG, 1, 0, 0, 0, 0, 0, 0, false⟩,
  ⟨rTT_NOW_LO, 1, 0, 0, 0, 0, 0, 0, true⟩,
  ⟨rTT_NOW_HI, 1, 0, 0, 0, 0, 0, 0, false⟩,
  ⟨rTT_STAT, 1, 0, 0x1F00, 0, 0, 0, 0, true⟩,
  ⟨rTT_OFFSET, 1, 0, 0, 0, 0, 0, 0, false⟩,
  ⟨rTT_TURN_LO, 1, 0, 0, 0, 0, 0, 0xFFFFFFFF, false⟩,
  ⟨rTT_TURN_HI, 1, 0, 0, 0, 0, 0, 0xFFFFFFFF, false⟩,
  ⟨rTT_TURNNUM_LO, 1, 0, 0, 0, 0, 0, 0, true⟩,
  ⟨rTT_TURNNUM_HI, 1, 0, 0, 0, 0, 0, 0, true⟩,
  ⟨rTT_GRID_LO, 1, 0, 0, 0, 0, 0, 0, true⟩,
  ⟨rTT_GRID_HI, 1, 0, 0, 0, 0, 0, 0, true⟩,
  ⟨rTT_SYNC_CFG, 1, 0, 0, 0, 0, 0, 0x4, false⟩,
  ⟨rTT_SYNC_MISS, 1, 0, 0, 0, 0, 0, 0, false⟩,
  ⟨rTT_SYNC_EXTRA, 1, 0, 0, 0, 0, 0, 0, false⟩,
  ⟨rTT_SYNC_NUMERR, 1, 0, 0, 0, 0, 0, 0, false⟩,
  ⟨rTT_DEP, 1, 0, 0, 0, 0, 0, 0, true⟩,
  ⟨rTT_DEPREJ, 1, 0, 0, 0, 0, 0, 0, false⟩,
  ⟨rTT_LOGLOST, 1, 0, 0, 0, 0, 0, 0, false⟩,
  ⟨rTT_CNTCLR, 1, 0, 0, 0, 0, 0x1, 0, false⟩,
  ⟨rISL_CLK, 14, 8, 0x2, 0, 0, 0, 0, true⟩]

def regTable1 : List RegSpec := [
  ⟨rISL_LONGSTRETCH, 14, 8, 0, 0, 0, 0, 0, false⟩,
  ⟨rCELL_STAT, 64, 0x10000, 0, 0, 0, 0, 0, true⟩,
  ⟨rCELL_FPFLAGS, 64, 0x10000, 0, 0, 0xF, 0, 0, false⟩,
  ⟨rCELL_ECC, 64, 0x10000, 0, 0, 0, 0, 0, false⟩,
  ⟨rCELL_ECCADDR, 64, 0x10000, 0, 0, 0, 0, 0, false⟩,
  ⟨rCELL_CYCLES, 64, 0x10000, 0, 0, 0, 0, 0, true⟩,
  ⟨rCELL_MACBUSY, 64, 0x10000, 0, 0, 0, 0, 0, false⟩,
  ⟨rCELL_BANKSTALL, 64, 0x10000, 0, 0, 0, 0, 0, false⟩,
  ⟨rCELL_EXC, 64, 0x10000, 0, 0, 0, 0, 0, false⟩,
  ⟨rCELL_EXCPC, 64, 0x10000, 0, 0, 0, 0, 0, false⟩,
  ⟨rCELL_EXCBLOB, 64, 0x10000, 0, 0, 0, 0, 0, false⟩,
  ⟨rCELL_WALK, 64, 0x10000, 0, 0, 0, 0, 0, false⟩,
  ⟨rCELL_WALKSKIP, 64, 0x10000, 0, 0, 0, 0, 0, false⟩,
  ⟨rMEM_STAT, 1, 0, 0, 0, 0, 0, 0, true⟩,
  ⟨rMEM_HBMFREE, 1, 0, 0, 0, 0, 0, 0, true⟩,
  ⟨rMEM_SDGFREE, 1, 0, 0, 0, 0, 0, 0, true⟩,
  ⟨rMEM_MIGCFG, 1, 0, 0x34200219, 0, 0, 0, 0xFFFFFFFF, false⟩,
  ⟨rMEM_WATER, 1, 0, 0x0804, 0, 0, 0, 0xFFFF, false⟩,
  ⟨rMEM_MIGUP, 1, 0, 0, 0, 0, 0, 0, true⟩,
  ⟨rMEM_MIGDN, 1, 0, 0, 0, 0, 0, 0, true⟩,
  ⟨rMEM_MIGSTALL, 1, 0, 0, 0, 0, 0, 0, true⟩,
  ⟨rMEM_UNCERT, 1, 0, 0, 0, 0, 0, 0, true⟩,
  ⟨rMEM_UCLR_LO, 1, 0, 0, 0, 0, 0xFFFFFFFF, 0, false⟩,
  ⟨rMEM_UCLR_HI, 1, 0, 0, 0, 0, 0xFFFFFFFF, 0, false⟩,
  ⟨rMEM_UNBACKED, 1, 0, 0, 0, 0, 0, 0, true⟩,
  ⟨rMEM_DHIT, 1, 0, 0, 0, 0, 0, 0, true⟩,
  ⟨rMEM_DMISS, 1, 0, 0, 0, 0, 0, 0, true⟩,
  ⟨rMEM_ECC, 1, 0, 0, 0, 0, 0, 0, true⟩,
  ⟨rMEM_POISONADDR_LO, 1, 0, 0, 0, 0, 0, 0, true⟩,
  ⟨rMEM_POISONADDR_HI, 1, 0, 0, 0, 0, 0, 0, true⟩]

def regTable2 : List RegSpec := [
  ⟨rRING_CFG, 16384, 0x20, 0, 0, 0, 0, 0x3F671F1F, false⟩,
  ⟨rRING_LINK, 16384, 0x20, 0, 0, 0, 0, 0x01FFFFFF, false⟩,
  ⟨rRING_CTL, 16384, 0x20, 0, 0, 0, 0, 0x3FFFFFFF, false⟩,
  ⟨rRING_STATE, 16384, 0x20, 0, 0, 0, 0, 0x30, true⟩,
  ⟨rRING_RESV, 16384, 0x20, 0, 0, 0, 0, 0, true⟩,
  ⟨rRING_CMT, 16384, 0x20, 0, 0, 0, 0, 0, true⟩,
  ⟨rRING_TAKE, 16384, 0x20, 0, 0, 0, 0, 0, true⟩,
  ⟨rRING_FREE, 16384, 0x20, 0, 0, 0, 0, 0, true⟩,
  ⟨rDSP_CFG, 1, 0, 0x103E8, 0, 0, 0, 0x1FFFF, false⟩,
  ⟨rDSP_STAT, 1, 0, 0, 0, 0, 0, 0, true⟩,
  ⟨rDSP_LIGHT, 1, 0, 0, 0, 0, 0, 0, false⟩,
  ⟨rDSP_HEAVY, 1, 0, 0, 0, 0, 0, 0, false⟩,
  ⟨rDSP_ABANDON, 1, 0, 0, 0, 0, 0, 0, false⟩,
  ⟨rDSP_LASTSW, 1, 0, 0, 0, 0, 0, 0, false⟩,
  ⟨rDSP_RSEL, 1, 0, 0, 0x3FFF, 0, 0, 0, false⟩,
  ⟨rDSP_RCNT0, 1, 0, 0, 0, 0, 0, 0, true⟩,
  ⟨rDSP_RCNT1, 1, 0, 0, 0, 0, 0, 0, true⟩,
  ⟨rDSP_WSET, 16, 16, 0, 0, 0, 0, 0, true⟩,
  ⟨rDSP_WSET_BYTES, 16, 16, 0, 0, 0, 0, 0, true⟩,
  ⟨rDSP_WSET_DST, 16, 16, 0, 0, 0, 0, 0, true⟩,
  ⟨rSEQ_STAT, 1, 0, 0, 0, 0, 0, 0, true⟩,
  ⟨rSEQ_RESERVE, 1, 0, 0, 0, 0, 0, 0xFFFFFFFF, false⟩,
  ⟨rSEQ_PARKBUDGET, 1, 0, 0, 0, 0, 0, 0xFFFFFFFF, false⟩,
  ⟨rSEQ_POOLFREE, 1, 0, 0, 0, 0, 0, 0, false⟩,
  ⟨rSEQ_PARKFREE, 1, 0, 0, 0, 0, 0, 0, true⟩,
  ⟨rSEQ_LIVE, 1, 0, 0, 0, 0, 0, 0, true⟩,
  ⟨rSEQ_QUEUED, 1, 0, 0, 0, 0, 0, 0, true⟩,
  ⟨rSEQ_HELD, 1, 0, 0, 0, 0, 0, 0, true⟩,
  ⟨rSEQ_BDTIME, 1, 0, 0, 0, 0, 0, 0, false⟩,
  ⟨rSEQ_PARKS, 1, 0, 0, 0, 0, 0, 0, false⟩]

def regTable3 : List RegSpec := [
  ⟨rSEQ_COMPRESS, 1, 0, 0, 0, 0, 0, 0, false⟩,
  ⟨rSEQ_EVICT, 1, 0, 0, 0, 0, 0, 0, false⟩,
  ⟨rSEQ_TTLEXP, 1, 0, 0, 0, 0, 0, 0, false⟩,
  ⟨rSEQ_OVERRUN, 1, 0, 0, 0, 0, 0, 0, false⟩,
  ⟨rSEQ_UNSCHED, 1, 0, 0, 0, 0, 0, 0, false⟩,
  ⟨rSEQ_NOOP, 1, 0, 0, 0, 0, 0, 0, false⟩,
  ⟨rTRN_STAT, 1, 0, 0, 0, 0, 0, 0, true⟩,
  ⟨rTRN_CH_CUR, 16, 32, 0, 0, 0, 0, 0, true⟩,
  ⟨rTRN_CH_OTHER, 16, 32, 0, 0, 0, 0, 0, true⟩,
  ⟨rTRN_CH_STAGE, 16, 32, 0, 0, 0, 0, 0, true⟩,
  ⟨rTRN_CH_CTL, 16, 32, 0, 0, 0, 0, 0, true⟩,
  ⟨rTRN_CH_COMMITS, 16, 32, 0, 0, 0, 0, 0, false⟩,
  ⟨rTRN_CH_FORCED, 16, 32, 0, 0, 0, 0, 0, false⟩,
  ⟨rTRN_CH_BEHIND, 16, 32, 0, 0, 0, 0, 0, false⟩,
  ⟨rTRN_CH_EXCL, 16, 32, 0, 0, 0, 0, 0, false⟩,
  ⟨rLNK_STAT, 24, 0x800, 0, 0, 0, 0, 0, true⟩,
  ⟨rLNK_PEER, 24, 0x800, 0, 0, 0, 0, 0, true⟩,
  ⟨rLNK_LANETX, 24, 0x800, 0, 0, 0, 0, 0, true⟩,
  ⟨rLNK_LANERX, 24, 0x800, 0, 0, 0, 0, 0, true⟩,
  ⟨rLNK_STATB, 24, 0x800, 0, 0, 0, 0, 0, true⟩,
  ⟨rLNK_PEERB, 24, 0x800, 0, 0, 0, 0, 0, true⟩,
  ⟨rLNK_CTL, 24, 0x800, 0, 0, 0, 0, 0x3, false⟩,
  ⟨rLNK_LANEMAP, 24, 0x800, 0, 0, 0, 0, 0xFF, false⟩,
  ⟨rLNK_FECCORR, 24, 0x800, 0, 0, 0, 0, 0, false⟩,
  ⟨rLNK_FECUNC, 24, 0x800, 0, 0, 0, 0, 0, false⟩,
  ⟨rLNK_CRCERR, 24, 0x800, 0, 0, 0, 0, 0, false⟩,
  ⟨rLNK_REPLAY, 24, 0x800, 0, 0, 0, 0, 0, false⟩,
  ⟨rLNK_TRAINS, 24, 0x800, 0, 0, 0, 0, 0, false⟩,
  ⟨rLNK_EYE, 24, 0x800, 0xFFFFFFFF, 0, 0, 0, 0, false⟩,
  ⟨rLNK_TTASYM, 24, 0x800, 0, 0, 0, 0, 0xFFFFFFFF, false⟩]

def regTable4 : List RegSpec := [
  ⟨rLNK_TTCAL, 24, 0x800, 0, 0, 0, 0, 0, true⟩,
  ⟨rLNK_TTOFF, 24, 0x800, 0, 0, 0, 0, 0, false⟩,
  ⟨rLNK_RTSTAT, 1, 0, 0, 0, 0, 0, 0, true⟩,
  ⟨rLNK_RTGEN, 1, 0, 0, 0, 0, 0, 0, false⟩,
  ⟨rLNK_NOROUTE, 1, 0, 0, 0, 0, 0, 0, false⟩,
  ⟨rLNK_BADPKT, 1, 0, 0, 0, 0, 0, 0, false⟩,
  ⟨rLNK_LINKLOST, 1, 0, 0, 0, 0, 0, 0, false⟩,
  ⟨rCOL_CFG, 1, 0, 0x000A0064, 0, 0, 0, 0xFFFFFFFF, false⟩,
  ⟨rCOL_STAT, 1, 0, 0, 0, 0, 0, 0, true⟩,
  ⟨rCOL_DONE, 1, 0, 0, 0, 0, 0, 0, false⟩,
  ⟨rCOL_FAIL, 1, 0, 0, 0, 0, 0, 0, false⟩,
  ⟨rCOL_LASTFAIL, 1, 0, 0, 0, 0, 0, 0, false⟩,
  ⟨rCOL_TREE_STAT, 64, 4, 0x1F, 0, 0, 0, 0, true⟩,
  ⟨rPORT_FX_STAT, 2, 0x40, 0, 0, 0, 0, 0, true⟩,
  ⟨rPORT_FX_ID, 2, 0x40, 0, 0, 0, 0, 0, true⟩,
  ⟨rPORT_FX_ERR, 2, 0x40, 0, 0, 0, 0, 0, false⟩,
  ⟨rPORT_FX_CTL, 2, 0x40, 0, 0, 0, 0, 0x1, false⟩,
  ⟨rPORT_ETH_STAT, 2, 0x40, 0, 0, 0, 0, 0, true⟩,
  ⟨rPORT_ETH_RNR, 2, 0x40, 0, 0, 0, 0, 0, false⟩,
  ⟨rPORT_ETH_QPERR, 2, 0x40, 0, 0, 0, 0, 0, false⟩,
  ⟨rPORT_QPRESET, 1, 0, 0, 0, 0, 0, 0x01FFFFFF, false⟩,
  ⟨rPORT_WALL, 4, 4, 0, 0, 0, 0, 0, true⟩,
  ⟨rAMD_STAT, 1, 0, 0, 0, 0, 0, 0, true⟩,
  ⟨rAMD_EPOCH_LO, 1, 0, 0, 0, 0, 0, 0, true⟩,
  ⟨rAMD_EPOCH_HI, 1, 0, 0, 0, 0, 0, 0, true⟩,
  ⟨rAMD_SINCE_LO, 1, 0, 0, 0, 0, 0, 0, true⟩,
  ⟨rAMD_SINCE_HI, 1, 0, 0, 0, 0, 0, 0, true⟩,
  ⟨rAMD_ACCEPTED, 1, 0, 0, 0, 0, 0, 0, false⟩,
  ⟨rAMD_REJECTED, 1, 0, 0, 0, 0, 0, 0, false⟩,
  ⟨rAMD_LAST, 1, 0, 0, 0, 0, 0, 0, false⟩]

def regTable5 : List RegSpec := [
  ⟨rAMD_LASTSERIAL, 1, 0, 0, 0, 0, 0, 0, false⟩,
  ⟨rAMD_REPLYLOST, 1, 0, 0, 0, 0, 0, 0, false⟩,
  ⟨rAMD_PLACE_OBJ, 1, 0, 0, 0, 0, 0, 0xFFFFFFFF, false⟩,
  ⟨rAMD_PLACE_CODE, 1, 0, 0, 0, 0, 0, 0xFF, false⟩,
  ⟨rAMD_ROLE, 8, 4, 0, 0, 0, 0, 0x3, false⟩,
  ⟨rAMD_SERIAL, 16, 4, 0, 0, 0, 0, 0, false⟩,
  ⟨rSB_PKGNUM, 1, 0, 0, 0, 0, 0, 0, false⟩,
  ⟨rSB_REMAP, 1, 0, 0, 0x1, 0, 0, 0, false⟩,
  ⟨rSB_DECERR, 1, 0, 0, 0, 0x80000000, 0, 0, false⟩,
  ⟨rSB_DECADDR, 1, 0, 0, 0, 0, 0, 0, false⟩,
  ⟨rSB_DECCNT, 1, 0, 0, 0, 0, 0, 0, false⟩,
  ⟨rSB_CLOSEDACC, 1, 0, 0, 0, 0, 0, 0, false⟩,
  ⟨rSB_MATRIX, 1, 0, 0, 0, 0, 0, 0, false⟩,
  ⟨rSB_PARK0, 1, 0, 0, 0, 0, 0, 0, false⟩,
  ⟨rSB_PARK1, 1, 0, 0, 0, 0, 0, 0, false⟩,
  ⟨rSB_BRIDGE_LO, 4, 8, 0, 0xF0000000, 0, 0, 0, false⟩,
  ⟨rSB_BRIDGE_HI, 4, 8, 0, 0x3FFFFFFF, 0, 0, 0, false⟩,
  ⟨rSB_BRIDGEERR, 1, 0, 0, 0, 0x80000000, 0, 0, false⟩,
  ⟨rSB_HBEAT, 1, 0, 0, 0, 0, 0xF, 0, false⟩,
  ⟨rSB_CORESTAT, 1, 0, 0, 0, 0, 0, 0, true⟩,
  ⟨rPIN_CFG, 48, 16, 0x400, 0, 0, 0, 0xFFFF0F01, true⟩,
  ⟨rPIN_PARAM_LO, 48, 16, 0, 0, 0, 0, 0xFFFFFFFF, true⟩,
  ⟨rPIN_PARAM_HI, 48, 16, 0, 0, 0, 0, 0xFFFFFFFF, true⟩,
  ⟨rPIN_STAT, 48, 16, 0, 0, 0, 0, 0, true⟩,
  ⟨rPIN_GPIO_IN_LO, 1, 0, 0, 0, 0, 0, 0, true⟩,
  ⟨rPIN_GPIO_IN_HI, 1, 0, 0, 0, 0, 0, 0, true⟩,
  ⟨rPIN_GPIO_OUT_LO, 1, 0, 0, 0, 0, 0, 0xFFFFFFFF, false⟩,
  ⟨rPIN_GPIO_OUT_HI, 1, 0, 0, 0, 0, 0, 0xFFFF, false⟩,
  ⟨rPIN_FAULTS_LO, 1, 0, 0, 0, 0, 0, 0, true⟩,
  ⟨rPIN_FAULTS_HI, 1, 0, 0, 0, 0, 0, 0, true⟩]

def regTable6 : List RegSpec := [
  ⟨rPIN_FAULTCNT, 1, 0, 0, 0, 0, 0, 0, false⟩,
  ⟨rPIN_CHANGES, 1, 0, 0, 0, 0, 0, 0, false⟩,
  ⟨rLAMP_CFG, 1, 0, 0x8C0, 0, 0, 0, 0xFFFF, false⟩,
  ⟨rLAMP_STAT, 1, 0, 0, 0, 0, 0, 0, true⟩,
  ⟨rLAMP_GOOD, 1, 0, 0, 0, 0, 0, 0, false⟩,
  ⟨rLAMP_ERR, 1, 0, 0, 0, 0, 0, 0, false⟩,
  ⟨rLAMP_REJECT, 1, 0, 0, 0, 0, 0, 0, false⟩,
  ⟨rLAMP_DENIED, 1, 0, 0, 0, 0, 0, 0, false⟩,
  ⟨rLAMP_RSEND, 1, 0, 0, 0, 0, 0xFFFF, 0, false⟩,
  ⟨rLAMP_RBUF, 62, 4, 0, 0xFFFFFFFF, 0, 0, 0, false⟩,
  ⟨rPWR_STAT, 1, 0, 0, 0, 0, 0, 0, true⟩,
  ⟨rPWR_FAILED, 1, 0, 0, 0, 0, 0, 0, false⟩,
  ⟨rPWR_REQ, 1, 0, 0, 0, 0, 0, 0xFFFF000F, false⟩,
  ⟨rPWR_WAKECFG, 1, 0, 0x4, 0, 0, 0, 0x1FF07, false⟩,
  ⟨rPWR_ALARM_LO, 1, 0, 0, 0, 0, 0, 0xFFFFFFFF, false⟩,
  ⟨rPWR_ALARM_HI, 1, 0, 0, 0, 0, 0, 0xFFFFFFFF, false⟩,
  ⟨rPWR_AVS, 1, 0, 0x03520000, 0, 0, 0, 0, false⟩,
  ⟨rPWR_BOUNCE, 1, 0, 0x64, 0, 0, 0, 0xFFFF, false⟩,
  ⟨rPWR_BOUNCED, 1, 0, 0, 0, 0, 0, 0, false⟩,
  ⟨rPWR_CLOSEDRSP, 1, 0, 0, 0, 0, 0, 0, false⟩,
  ⟨rPWR_EXPIRED, 1, 0, 0, 0, 0, 0, 0, false⟩,
  ⟨rPWR_LASTTRANS, 1, 0, 0, 0, 0, 0, 0, false⟩,
  ⟨rPWR_THR, 1, 0, 0, 0, 0, 0, 0, true⟩,
  ⟨rPWR_PCEIL, 1, 0, 0xFFF, 0, 0, 0, 0, true⟩,
  ⟨rPWR_PCAP, 1, 0, 0x03B60339, 0, 0, 0, 0xFFFFFFFF, false⟩,
  ⟨rPWR_PEST, 1, 0, 0, 0, 0, 0, 0, false⟩,
  ⟨rPWR_THRCNT, 1, 0, 0, 0, 0, 0, 0, false⟩,
  ⟨rPWR_BROWN, 1, 0, 0xF, 0, 0, 0, 0, false⟩,
  ⟨rSEC_LC, 1, 0, 0, 0, 0, 0, 0, true⟩,
  ⟨rSEC_KSSTAT, 1, 0, 0, 0, 0, 0, 0, true⟩]

def regTable7 : List RegSpec := [
  ⟨rSEC_KEKSTAT, 1, 0, 0, 0, 0, 0, 0, true⟩,
  ⟨rSEC_RBFLOOR, 1, 0, 0, 0, 0, 0, 0xFFFFFFFF, true⟩,
  ⟨rSEC_RBLEFT, 1, 0, 0, 0, 0, 0, 0, true⟩,
  ⟨rSEC_LCREQ, 1, 0, 0, 0, 0, 0, 0x7, false⟩,
  ⟨rSEC_PROGSTAT, 1, 0, 0, 0, 0, 0, 0, false⟩,
  ⟨rSEC_KSPROG_SLOT, 1, 0, 0, 0, 0, 0, 0xF, false⟩,
  ⟨rSEC_KSPROG_HASH, 12, 4, 0, 0, 0, 0, 0xFFFFFFFF, false⟩,
  ⟨rSEC_KSREVOKE, 1, 0, 0, 0, 0, 0, 0xFFFE, false⟩,
  ⟨rSEC_KEKPROG_SLOT, 1, 0, 0, 0, 0, 0, 0x3, false⟩,
  ⟨rSEC_KEKPROG_ID, 4, 4, 0, 0, 0, 0, 0xFFFFFFFF, false⟩,
  ⟨rSEC_KEKPROG_WRAP, 10, 4, 0, 0, 0, 0, 0xFFFFFFFF, false⟩,
  ⟨rSEC_GO, 1, 0, 0, 0, 0, 0, 0x3, true⟩,
  ⟨rSEC_DEVID, 4, 4, 0, 0, 0, 0, 0, true⟩,
  ⟨rSEC_IDCODE, 1, 0, 0, 0, 0, 0, 0, true⟩,
  ⟨rSEC_MLOG, 12, 4, 0, 0, 0, 0, 0, true⟩,
  ⟨rDBG_STAT, 1, 0, 0, 0, 0, 0, 0, true⟩,
  ⟨rDBG_CHALREQ, 1, 0, 0, 0, 0, 0x1, 0, false⟩,
  ⟨rDBG_CHAL, 8, 4, 0, 0, 0, 0, 0, true⟩,
  ⟨rDBG_REQ, 1, 0, 0, 0, 0, 0xFFFF0003, 0, false⟩,
  ⟨rDBG_PERMIT, 1, 0, 0, 0, 0, 0, 0, true⟩,
  ⟨rDBG_HALT_LO, 1, 0, 0, 0xFFFFFFFF, 0, 0, 0, false⟩,
  ⟨rDBG_HALT_HI, 1, 0, 0, 0xFFFFFFFF, 0, 0, 0, false⟩,
  ⟨rDBG_HALTED_LO, 1, 0, 0, 0, 0, 0, 0, true⟩,
  ⟨rDBG_HALTED_HI, 1, 0, 0, 0, 0, 0, 0, true⟩,
  ⟨rDBG_CORE, 1, 0, 0, 0xF, 0, 0, 0, true⟩,
  ⟨rDBG_CELLSEL, 1, 0, 0, 0x3F, 0, 0, 0, false⟩,
  ⟨rDBG_ADDR, 1, 0, 0, 0xFFFFFF, 0, 0, 0, false⟩,
  ⟨rDBG_DATA, 1, 0, 0, 0xFFFFFFFF, 0, 0, 0, true⟩,
  ⟨rDBG_ABANDON, 1, 0, 0, 0, 0, 0, 0, false⟩,
  ⟨rDBG_TOKBUF, 4096, 4, 0, 0xFFFFFFFF, 0, 0, 0, false⟩]

def regTable8 : List RegSpec := [
  ⟨rFLT_STAT, 1, 0, 0, 0, 0, 0, 0, true⟩,
  ⟨rFLT_ACT_SCOPE, 3, 8, 0, 0, 0, 0, 0, true⟩,
  ⟨rFLT_ACT_REC, 3, 8, 0, 0, 0, 0, 0, true⟩,
  ⟨rFLT_RECNO, 1, 0, 0, 0, 0, 0, 0, true⟩,
  ⟨rFLT_CNT_S, 6, 4, 0, 0, 0, 0, 0, false⟩,
  ⟨rFLT_LOST, 1, 0, 0, 0, 0, 0, 0, false⟩,
  ⟨rFLT_QUAR_LO, 1, 0, 0, 0, 0, 0, 0xFFFFFFFF, false⟩,
  ⟨rFLT_QUAR_HI, 1, 0, 0, 0, 0, 0, 0xFFFFFFFF, false⟩,
  ⟨rFLT_QUARISL, 1, 0, 0, 0, 0, 0, 0x3FFF, false⟩,
  ⟨rFLT_DISCARD, 1, 0, 0, 0, 0, 0, 0xFFFFFFFF, false⟩,
  ⟨rFLT_RET, 1, 0, 0, 0, 0, 0, 0, true⟩,
  ⟨rWEAR_STAT, 1, 0, 0, 0, 0, 0, 0, true⟩,
  ⟨rWEAR_EOL, 1, 0, 0xFFFF, 0, 0, 0, 0, true⟩,
  ⟨rWEAR_BAND, 1, 0, 0xFFFFFFFF, 0, 0, 0, 0, true⟩,
  ⟨rWEAR_CRIT, 4, 8, 0xFFFFFFFF, 0, 0, 0, 0, true⟩,
  ⟨rWEAR_CRIT_P90, 4, 8, 0xFFFF, 0, 0, 0, 0, true⟩,
  ⟨rWEAR_AGE, 1, 0, 0, 0, 0, 0, 0, true⟩,
  ⟨rWEAR_SAMPLES, 1, 0, 0, 0, 0, 0, 0, false⟩,
  ⟨rWEAR_LOST, 1, 0, 0, 0, 0, 0, 0, false⟩,
  ⟨rWEAR_FLASH, 3, 4, 0, 0, 0, 0, 0, true⟩]

/-- Every register group of the package. -/
def regTable : List RegSpec :=
  regTable0 ++ regTable1 ++ regTable2 ++ regTable3 ++ regTable4 ++ regTable5 ++ regTable6 ++ regTable7 ++ regTable8

/-- A group holds an address. -/
def RegSpec.holds (r : RegSpec) (a : Nat) : Bool :=
  decide (r.addr ≤ a) &&
    (if r.stride = 0 then a == r.addr
     else (a - r.addr) % r.stride == 0 && decide ((a - r.addr) / r.stride < r.count))

/-- The group of an address, if a register lies there. -/
def regSpecAt (a : Nat) : Option RegSpec := regTable.find? (fun r => r.holds a)

/-- The reset value of the register at an address. -/
def regReset (a : Nat) : Word := ((regSpecAt a).map (·.reset)).getD 0

/-- The stored value of a register; an unlisted register holds its reset value. -/
def storeGet (m : List (Nat × Word)) (a : Nat) : Word := sget (regReset a) m a

/-- Store a register; storing the reset value removes the entry. -/
def storePut (m : List (Nat × Word)) (a : Nat) (v : Word) : List (Nat × Word) := sput (regReset a) m a v

end Sys2Proof.Machine
end

