-- ==== Sys2Proof/Machine/TypesAmend.lean ====
section
/-! DEFINITION. Amendments under way (16_amendments.md R407–R432). -/

namespace Sys2Proof.Machine

/-- An operation of an envelope (R410, R414). -/
structure AmdOp where
  addr : Nat
  mask : Nat
  value : Nat
  deriving DecidableEq, Repr

/-- Whose status items a piece of work writes (R408, R430): SERIAL, AUTH_ID, its entry, CLASS, REQ, REPLY_RING and its departure.
`digest` is SHA-384 of the signed region (R528), `fanned` the packages a FANOUT reached (R420), and
`item` the SEQ of its record on ring 0x0000 while that has no status yet (R409);
`accepted` that it reached ARMED. -/
structure EnvRef where
  serial : Nat
  authId : Nat
  entry : Nat
  cls : Nat
  req : Nat
  reply : Nat
  dep : Nat := 0xFFFFFFFF
  digest : List Byte := []
  fanned : Nat := 0
  item : Option Nat := none
  accepted : Bool := false
  deriving DecidableEq, Repr

/-- A class-B commit record, or a class-C procedure that waits for its start (R416, R421). `turnSet` marks a change of TT_TURN, and `waits`
that its two-phase arming has not ended (R417). -/
structure AmdArmed where
  env : EnvRef
  ops : List AmdOp
  scope : Nat := 0
  limit : Nat := 0
  turnSet : Bool := false
  waits : Bool := false
  deriving DecidableEq, Repr

/-- Operations held for islands that are not open, with the island of each (R415, R416). -/
structure AmdHeld where
  env : EnvRef
  ops : List (Nat × AmdOp)
  deriving DecidableEq, Repr

/-- A class-C procedure (R421–R425). `half` says that half of its limit passed; `saved` are the prior values of the registers written and
`waitBoundary` that a platform waits for the turn boundary to reopen, with its final status. -/
structure AmdProc where
  env : EnvRef
  scope : Nat
  since : Nat
  limit : Nat
  ops : List AmdOp
  half : Bool := false
  saved : List (Nat × Nat) := []
  waitBoundary : Option (Nat × Nat) := none
  deriving DecidableEq, Repr

/-- A fan-out under way to another package (R420): the envelope's writes still to be performed there, and the record to commit on its ring 0x0000. -/
structure AmdRelay where
  pkg : Nat
  left : Nat
  words : List Byte
  deriving DecidableEq, Repr

/-- The amendment handler (R407–R429). `staging` holds the eight slots of 16 KiB, by slot × 16,384 + offset;
`unsent` are status items that ring 0x0001 had no room for. -/
structure Amend where
  epoch : Nat := 0
  since : Nat := 0
  armed : List AmdArmed := []
  held : List AmdHeld := []
  procs : List AmdProc := []
  staging : List (Nat × Byte) := []
  unsent : List (List Byte) := []
  relays : List AmdRelay := []
  deriving DecidableEq, Repr

end Sys2Proof.Machine
end

