-- ==== Sys2Proof/Machine/TypesBoot.lean ====
section
/-! DEFINITION. The progress of start-up and the two flash devices (02_start_up.md). -/

namespace Sys2Proof.Machine

/-- An xSPI device (R48–R51): its contents by byte address (an unlisted byte is erased, 0xFF: log entry 4), its density in bytes as SFDP gave it,
and whether it has been read well enough to be used. -/
structure Flash where
  data : List (Nat × Byte) := []
  density : Nat := 0
  usable : Bool := false
  deriving DecidableEq, Repr

/-- Start-up (R44–R73). `step` is the last step begun (0 before the first t0); `wake` marks a start-up from a P3 wake (R501).
`ok` says which slots have an acceptable header in this attempt and `tried` which were tried; `outA` that slot A was tried or rejected in any attempt (R53); `chosen` is 0 for A and 1 for B.
`loaded` is the image that passed step 11; `hbmWait` that HBM still trains. `held` says that a brown-out or the loss of VDD_AO holds the package (R573, R574). `opening` is the platform that step 14 or an exit from P2 opens next. -/
structure Boot where
  step : Nat := 0
  t0 : Nat := 0
  strap : Nat := 0
  code : Nat := 0
  slotA : Nat := 0
  slotB : Nat := 0
  stopped : Bool := false
  attempt : Nat := 0
  count : Nat := 0
  waitUntil : Option Nat := none
  okA : Bool := false
  okB : Bool := false
  triedA : Bool := false
  triedB : Bool := false
  outA : Bool := false
  chosen : Option Nat := none
  loaded : Option Image := none
  hbmWait : Bool := false
  trained : Nat := 0
  ohmaxAt : Option Nat := none
  opening : Option Nat := none
  openAt : Nat := 0
  linkAt : Nat := 0
  lockAt : Nat := 0
  unanchored : Bool := false
  freerun : Bool := false
  linkShort : Bool := false
  hbmShort : Bool := false
  degraded : Bool := false
  fallback : Bool := false
  wake : Bool := false
  held : Bool := false
  deriving DecidableEq, Repr

/-- What the package does with a line of a flash group (R45, R50): it may drive it, never drives it, or holds it at high impedance with a weak
pull-up. -/
inductive FlashLine
  | usable | undriven | released
  deriving DecidableEq, Repr

end Sys2Proof.Machine
end

