-- ==== Sys2Proof/Machine/Float.lean ====
section
/-! DEFINITION. Exact dyadic arithmetic and the single rounding of binary32 (05_cells.md, R142, R149, R155). -/

namespace Sys2Proof.Machine

/-- The four sticky arithmetic flags (R149), in CELL_FPFLAGS order: INVALID 3, DIVZERO 2, OVERFLOW 1, UNDERFLOW 0. -/
abbrev FpFlags := BitVec 4
def fpInvalid : FpFlags := 8
def fpDivZero : FpFlags := 4
def fpOverflow : FpFlags := 2
def fpUnderflow : FpFlags := 1

/-- A result and the flags that forming it sets. -/
structure FpRes where
  bits : Word
  flags : FpFlags
  deriving DecidableEq, Repr

/-- An exact value `num · 2^exp`. -/
structure Dyadic where
  num : Int
  exp : Int
  deriving DecidableEq, Repr

namespace DyOp

def mul (a b : Dyadic) : Dyadic := ⟨a.num * b.num, a.exp + b.exp⟩

def add (a b : Dyadic) : Dyadic :=
  let e := min a.exp b.exp
  ⟨a.num * (2 ^ (a.exp - e).toNat : Nat) + b.num * (2 ^ (b.exp - e).toNat : Nat), e⟩

def neg (a : Dyadic) : Dyadic := ⟨-a.num, a.exp⟩
def sub (a b : Dyadic) : Dyadic := add a (neg b)
def scale (a : Dyadic) (k : Int) : Dyadic := ⟨a.num, a.exp + k⟩
def lt (a b : Dyadic) : Bool := decide ((sub a b).num < 0)
def le (a b : Dyadic) : Bool := decide ((sub a b).num ≤ 0)
def isEq (a b : Dyadic) : Bool := decide ((sub a b).num = 0)
def abs (a : Dyadic) : Dyadic := ⟨a.num.natAbs, a.exp⟩

/-- ⌊a⌋. -/
def floor (a : Dyadic) : Int :=
  if 0 ≤ a.exp then a.num * (2 ^ a.exp.toNat : Nat) else Int.fdiv a.num (2 ^ (-a.exp).toNat : Nat)

/-- ⌊log₂ |a|⌋ of a value that is not zero. -/
def log2Floor (a : Dyadic) : Int := (bitLen a.num.natAbs : Int) - 1 + a.exp

end DyOp

/-- A number format: precision in significand bits and the exponent of its smallest step. -/
structure FpFmt where
  prec : Nat
  qmin : Int
  deriving DecidableEq, Repr

def fmtFp32 : FpFmt := ⟨24, -149⟩

/-- How a conversion rounds: to nearest with ties to even, or stochastically with a dice word (R153, R154). -/
inductive Rounding
  | nearest
  | dice (w : Word)
  deriving DecidableEq, Repr

/-- Drop `sh` low bits of a magnitude, to nearest with ties to even. -/
def rneShift (m sh : Nat) : Nat :=
  let f := m >>> sh
  let r := m % 2 ^ sh
  if sh = 0 then m
  else if 2 * r > 2 ^ sh ∨ (2 * r = 2 ^ sh ∧ f % 2 = 1) then f + 1 else f

/-- Round the magnitude `m · 2^e` to a multiple of `2^q`. -/
def roundStep (mode : Rounding) (m : Nat) (e q : Int) : Nat :=
  if q ≤ e then m * 2 ^ (e - q).toNat
  else
    let sh := (q - e).toNat
    match mode with
    | .nearest => rneShift m sh
    -- |v| + u·q truncated, with u = w · 2⁻³² (R154)
    | .dice w => (m * 2 ^ 32 + w.toNat * 2 ^ sh) >>> (sh + 32)

/-- A magnitude rounded to a format: `n · 2^q`, whether it is inexact, and whether it is tiny in R149's sense. -/
structure Rounded where
  n : Nat
  q : Int
  inexact : Bool
  tiny : Bool
  deriving DecidableEq, Repr

/-- Round `m · 2^e` to the precision and step of a format (R142's one rounding, R153). -/
def roundTo (f : FpFmt) (mode : Rounding) (m : Nat) (e : Int) : Rounded :=
  if m = 0 then ⟨0, f.qmin, false, false⟩
  else
    let qn : Int := (bitLen m : Int) + e - f.prec
    let q := max qn f.qmin
    let n := roundStep mode m e q
    let nu := roundStep mode m e qn
    let exact : Bool := DyOp.isEq ⟨n, q⟩ ⟨m, e⟩
    ⟨n, q, !exact, decide ((bitLen nu : Int) + qn < f.qmin + f.prec)⟩

def signBit (neg : Bool) : Nat := if neg then 0x80000000 else 0

/-- The binary32 value a word spells. -/
inductive Fp where
  | nan
  | inf (neg : Bool)
  | fin (neg : Bool) (m : Nat) (e : Int)
  deriving DecidableEq, Repr

def fpDecode (w : Word) : Fp :=
  let x := w.toNat
  let neg := bitAt x 31
  let ex := bitsOf x 30 23
  let fr := bitsOf x 22 0
  if ex = 255 then (if fr = 0 then .inf neg else .nan)
  else if ex = 0 then .fin neg fr (-149)
  else .fin neg (fr + 0x800000) ((ex : Int) - 150)

/-- The canonical NaN (R155). -/
def fpNan : Word := 0x7FC00000
def fpInf (neg : Bool) : Word := BitVec.ofNat 32 (signBit neg + 0x7F800000)
def fpZero (neg : Bool) : Word := BitVec.ofNat 32 (signBit neg)

/-- Pack a rounded magnitude; above the range it becomes an infinity (R142). -/
def fpPack (neg : Bool) (n : Nat) (q : Int) : Word × Bool :=
  if n = 0 then (fpZero neg, false)
  else if (bitLen n : Int) + q > 128 then (fpInf neg, true)
  else if n < 0x800000 then (BitVec.ofNat 32 (signBit neg + n), false)
  else
    let n' := if n = 0x1000000 then 0x800000 else n
    let q' := if n = 0x1000000 then q + 1 else q
    (BitVec.ofNat 32 (signBit neg + (q' + 150).toNat * 0x800000 + (n' - 0x800000)), false)

/-- Round a magnitude with a sign to binary32, to nearest with ties to even, with its flags (R142, R149). -/
def fpRoundMag (neg : Bool) (m : Nat) (e : Int) : FpRes :=
  let r := roundTo fmtFp32 .nearest m e
  let p := fpPack neg r.n r.q
  ⟨p.1, (if p.2 then fpOverflow else 0) ||| (if r.tiny && r.inexact then fpUnderflow else 0)⟩

/-- Round an exact value to binary32; an exact zero is +0. -/
def fpRound (d : Dyadic) : FpRes := fpRoundMag (decide (d.num < 0)) d.num.natAbs d.exp

def fpVal (neg : Bool) (m : Nat) (e : Int) : Dyadic := ⟨if neg then -(m : Int) else m, e⟩

def fpInvalidNan : FpRes := ⟨fpNan, fpInvalid⟩
def fpQuietNan : FpRes := ⟨fpNan, 0⟩

/-- The sum of two finite values with IEEE signs of zero (R155). -/
def fpAddFin (na : Bool) (ma : Nat) (ea : Int) (nb : Bool) (mb : Nat) (eb : Int) : FpRes :=
  let d := DyOp.add (fpVal na ma ea) (fpVal nb mb eb)
  if d.num = 0 then ⟨fpZero (decide (ma = 0) && decide (mb = 0) && na && nb), 0⟩ else fpRound d

/-- Binary32 addition, rounded to nearest with ties to even (R155). -/
def fpAdd (a b : Word) : FpRes :=
  match fpDecode a, fpDecode b with
  | .nan, _ => fpQuietNan
  | _, .nan => fpQuietNan
  | .inf na, .inf nb => if na = nb then ⟨fpInf na, 0⟩ else fpInvalidNan
  | .inf na, .fin _ _ _ => ⟨fpInf na, 0⟩
  | .fin _ _ _, .inf nb => ⟨fpInf nb, 0⟩
  | .fin na ma ea, .fin nb mb eb => fpAddFin na ma ea nb mb eb

/-- A word with its sign changed; a subtraction adds it (R172, VADD with X[0] = 1). -/
def fpNeg (a : Word) : Word := a ^^^ 0x80000000

/-- The exact product of two binary32 values: NaN and INVALID for ∞ × 0, with its sign (R155). -/
inductive FpProd
  | nan (fresh : Bool)
  | inf (neg : Bool)
  | fin (neg : Bool) (m : Nat) (e : Int)
  deriving DecidableEq, Repr

def fpProd (a b : Word) : FpProd :=
  match fpDecode a, fpDecode b with
  | .nan, _ => .nan false
  | _, .nan => .nan false
  | .inf na, .inf nb => .inf (na != nb)
  | .inf na, .fin nb mb _ => if mb = 0 then .nan true else .inf (na != nb)
  | .fin na ma _, .inf nb => if ma = 0 then .nan true else .inf (na != nb)
  | .fin na ma ea, .fin nb mb eb => .fin (na != nb) (ma * mb) (ea + eb)

/-- Binary32 multiplication (R155). -/
def fpMul (a b : Word) : FpRes :=
  match fpProd a b with
  | .nan fresh => if fresh then fpInvalidNan else fpQuietNan
  | .inf n => ⟨fpInf n, 0⟩
  | .fin n m e => fpRoundMag n m e

/-- Fused multiply-add with one rounding (R155). -/
def fpFma (a b c : Word) : FpRes :=
  match fpProd a b, fpDecode c with
  | .nan _, .nan => fpQuietNan
  | .nan fresh, _ => if fresh then fpInvalidNan else fpQuietNan
  | _, .nan => fpQuietNan
  | .inf n, .inf nc => if n = nc then ⟨fpInf n, 0⟩ else fpInvalidNan
  | .inf n, .fin _ _ _ => ⟨fpInf n, 0⟩
  | .fin _ _ _, .inf nc => ⟨fpInf nc, 0⟩
  | .fin n m e, .fin nc mc ec => fpAddFin n m e nc mc ec

/-- A key that orders words that are not NaN, with −0 below +0 (R155, VMIN and VMAX). -/
def fpOrdKey (w : Word) : Int :=
  if bitAt w.toNat 31 then -(bitsOf w.toNat 30 0 : Int) - 1 else (bitsOf w.toNat 30 0 : Int)

def fpIsNan (w : Word) : Bool := decide (fpDecode w = .nan)

/-- The IEEE 754-2019 minimum and maximum: a NaN operand gives the canonical NaN, and no flag is set (R155). -/
def fpMin (a b : Word) : Word :=
  if fpIsNan a || fpIsNan b then fpNan else if fpOrdKey a ≤ fpOrdKey b then a else b
def fpMax (a b : Word) : Word :=
  if fpIsNan a || fpIsNan b then fpNan else if fpOrdKey a ≤ fpOrdKey b then b else a

/-- Comparison key with the two zeros equal. -/
def fpCmpKey (w : Word) : Int :=
  if bitAt w.toNat 31 then -(bitsOf w.toNat 30 0 : Int) else (bitsOf w.toNat 30 0 : Int)

/-- VCMP's conditions on two ordered keys: equal, not equal, less, less or equal, greater, greater or equal (R591). -/
def cmpCond (cond : Nat) (a b : Int) : Bool :=
  match cond with
  | 0 => decide (a = b)
  | 1 => decide (a ≠ b)
  | 2 => decide (a < b)
  | 3 => decide (a ≤ b)
  | 4 => decide (b < a)
  | 5 => decide (b ≤ a)
  | _ => false

/-- An FP32 comparison: a NaN satisfies only not-equal and unordered (R591). -/
def fpCmp (cond : Nat) (a b : Word) : Bool :=
  if fpIsNan a || fpIsNan b then decide (cond = 1 ∨ cond = 6) else cmpCond cond (fpCmpKey a) (fpCmpKey b)

/-- A comparison of lanes as unsigned integers, in which unordered holds for no lane (R591). -/
def uintCmp (cond : Nat) (a b : Word) : Bool := cmpCond cond a.toNat b.toNat

end Sys2Proof.Machine
end

