-- ==== Sys2Proof/Machine/Formats.lean ====
section
/-! DEFINITION. The element formats, the MAC block and the conversions of a cell (05_cells.md R141–R145, R153, R154; 06 R171, R179). -/

namespace Sys2Proof.Machine

/-- The format codes of R171, in order of their codes 0x0 to 0x9. -/
inductive ElemFmt
  | fp32 | bf16 | e4m3 | e5m2 | mxE4m3 | mxE5m2 | mxE3m2 | mxE2m3 | mxE2m1 | mxInt8
  deriving DecidableEq, Repr

/-- The format a code names; every other code is reserved (R171). -/
def fmtOfCode : Nat → Option ElemFmt
  | 0 => some .fp32
  | 1 => some .bf16
  | 2 => some .e4m3
  | 3 => some .e5m2
  | 4 => some .mxE4m3
  | 5 => some .mxE5m2
  | 6 => some .mxE3m2
  | 7 => some .mxE2m3
  | 8 => some .mxE2m1
  | 9 => some .mxInt8
  | _ => none

def ElemFmt.isMx : ElemFmt → Bool
  | .mxE4m3 | .mxE5m2 | .mxE3m2 | .mxE2m3 | .mxE2m1 | .mxInt8 => true
  | _ => false

/-- Bits per element (R145). -/
def ElemFmt.width : ElemFmt → Nat
  | .fp32 => 32
  | .bf16 => 16
  | .mxE3m2 | .mxE2m3 => 6
  | .mxE2m1 => 4
  | _ => 8

/-- Precision and smallest step of a format's element (R145). -/
def ElemFmt.shape : ElemFmt → FpFmt
  | .fp32 => fmtFp32
  | .bf16 => ⟨8, -133⟩
  | .e4m3 | .mxE4m3 => ⟨4, -9⟩
  | .e5m2 | .mxE5m2 => ⟨3, -16⟩
  | .mxE3m2 => ⟨3, -4⟩
  | .mxE2m3 => ⟨4, -3⟩
  | .mxE2m1 => ⟨2, -1⟩
  | .mxInt8 => ⟨64, -6⟩

/-- The largest finite magnitude of the formats whose conversion saturates (R145, R153). -/
def ElemFmt.maxFinite : ElemFmt → Dyadic
  | .e4m3 | .mxE4m3 => ⟨448, 0⟩
  | .e5m2 | .mxE5m2 => ⟨57344, 0⟩
  | .mxE3m2 => ⟨28, 0⟩
  | .mxE2m3 => ⟨15, -1⟩
  | .mxE2m1 => ⟨6, 0⟩
  | .mxInt8 => ⟨127, -6⟩
  | .fp32 | .bf16 => ⟨0, 0⟩

/-- The bits of the largest finite element, without its sign. -/
def ElemFmt.maxBits : ElemFmt → Nat
  | .e4m3 | .mxE4m3 => 0x7E
  | .e5m2 | .mxE5m2 => 0x7B
  | .mxE3m2 | .mxE2m3 => 0x1F
  | .mxE2m1 => 0x7
  | .mxInt8 => 127
  | .fp32 | .bf16 => 0

/-- emax of R154. -/
def ElemFmt.emax : ElemFmt → Int
  | .mxE4m3 => 8
  | .mxE5m2 => 15
  | .mxE3m2 => 4
  | .mxE2m3 => 2
  | .mxE2m1 => 2
  | _ => 0

/-- Decode a sign, exponent and fraction of the given widths (R145). -/
def decodeSef (ebits fbits : Nat) (bias : Int) (hasInf nanOnly : Bool) (x : Nat) : Fp :=
  let neg := bitAt x (ebits + fbits)
  let ex := bitsOf x (ebits + fbits - 1) fbits
  let fr := bitsOf x (fbits - 1) 0
  if hasInf && ex = 2 ^ ebits - 1 then (if fr = 0 then .inf neg else .nan)
  else if nanOnly && ex = 2 ^ ebits - 1 && fr = 2 ^ fbits - 1 then .nan
  else if ex = 0 then .fin neg fr (1 - bias - fbits)
  else .fin neg (fr + 2 ^ fbits) ((ex : Int) - bias - fbits)

/-- The value of an element's bits (R145). -/
def elemDecode (f : ElemFmt) (x : Nat) : Fp :=
  match f with
  | .fp32 => fpDecode (BitVec.ofNat 32 x)
  | .bf16 => fpDecode (BitVec.ofNat 32 (x * 65536))
  | .e4m3 | .mxE4m3 => decodeSef 4 3 7 false true x
  | .e5m2 | .mxE5m2 => decodeSef 5 2 15 true false x
  | .mxE3m2 => decodeSef 3 2 3 false false x
  | .mxE2m3 => decodeSef 2 3 1 false false x
  | .mxE2m1 => decodeSef 2 1 1 false false x
  | .mxInt8 =>
    let n := signed 8 x
    .fin (decide (n < 0)) n.natAbs (-6)

/-- Element `i` of a byte string packed lowest element in the lowest bits (R145, R9). -/
def elemAt (f : ElemFmt) (b : List Byte) (i : Nat) : Nat :=
  let o := i * f.width
  (leNat ((b.drop (o / 8)).take 5) >>> (o % 8)) % 2 ^ f.width

/-- Pack elements into bytes, lowest element in the lowest bits (R145, R9). -/
def packElems (f : ElemFmt) (xs : List Nat) : List Byte :=
  leBytes (ceilDiv (xs.length * f.width) 8) (packFields (xs.map (fun x => (f.width, x))))

/-! ### One block of a dot-product unit (R142) -/

/-- The exact sum of one block: NaN from an element, NaN made by an infinity, an infinity, or a value. -/
inductive BlockSum
  | nan (fresh : Bool)
  | inf (neg : Bool)
  | val (d : Dyadic)
  deriving DecidableEq, Repr

/-- One product of two elements. -/
def elemProd : Fp → Fp → BlockSum
  | .nan, _ => .nan false
  | _, .nan => .nan false
  | .inf na, .inf nb => .inf (na != nb)
  | .inf na, .fin nb mb _ => if mb = 0 then .nan true else .inf (na != nb)
  | .fin na ma _, .inf nb => if ma = 0 then .nan true else .inf (na != nb)
  | .fin na ma ea, .fin nb mb eb => .val (fpVal (na != nb) (ma * mb) (ea + eb))

/-- Infinities follow IEEE 754 inside the exact sum (R142). -/
def sumStep : BlockSum → BlockSum → BlockSum
  | .nan a, .nan b => .nan (a && b)
  | .nan a, _ => .nan a
  | _, .nan b => .nan b
  | .inf a, .inf b => if a = b then .inf a else .nan true
  | .inf a, .val _ => .inf a
  | .val _, .inf b => .inf b
  | .val a, .val b => .val (DyOp.add a b)

/-- The block contribution added to an accumulator element through one rounding: R142's `mac_block`. A NaN that arises in the sum sets INVALID beside
a NaN accumulator too (log entry 86). -/
def macBlock (acc : Word) (a : List Fp) (as : Nat) (b : List Fp) (bs : Nat) (overwrite : Bool) : FpRes :=
  let hasNan := a.any (· == .nan) || b.any (· == .nan)
  if hasNan && as != 0xFF && bs != 0xFF then fpQuietNan
  else if as = 0xFF ∨ bs = 0xFF then fpInvalidNan
  else
    let s := (List.zipWith elemProd a b).foldl sumStep (.val ⟨0, 0⟩)
    let base := if overwrite then fpZero false else acc
    match s, fpDecode base with
    | .nan fresh, _ => if fresh then fpInvalidNan else fpQuietNan
    | _, .nan => fpQuietNan
    | .inf n, .inf m => if n = m then ⟨fpInf n, 0⟩ else fpInvalidNan
    | .inf n, .fin _ _ _ => ⟨fpInf n, 0⟩
    | .val _, .inf m => ⟨fpInf m, 0⟩
    | .val d, .fin n m e => fpRound (DyOp.add (DyOp.scale d ((as : Int) - 127 + ((bs : Int) - 127))) (fpVal n m e))

/-! ### Conversions (R153, R154) -/

/-- An element and the flags that converting to it sets. -/
structure ElemRes where
  bits : Nat
  flags : FpFlags
  deriving DecidableEq, Repr

/-- Pack a rounded magnitude into a sign-exponent-fraction element, saturating (R153). -/
def packSef (f : ElemFmt) (neg : Bool) (r : Rounded) : ElemRes :=
  let w := f.width
  let sg := if neg then 2 ^ (w - 1) else 0
  let uf := if r.tiny && r.inexact then fpUnderflow else 0
  if DyOp.lt f.maxFinite ⟨r.n, r.q⟩ then ⟨sg + f.maxBits, fpOverflow ||| uf⟩
  else
    let p := f.shape.prec
    let n := if r.n = 2 ^ p then 2 ^ (p - 1) else r.n
    let q := if r.n = 2 ^ p then r.q + 1 else r.q
    if n < 2 ^ (p - 1) then ⟨sg + n, uf⟩
    else ⟨sg + (q - f.shape.qmin + 1).toNat * 2 ^ (p - 1) + (n - 2 ^ (p - 1)), uf⟩

/-- Pack a rounded magnitude of 2⁻⁶ steps into MXINT8, saturating at ±127; it never sets UNDERFLOW (R149, R153). -/
def packInt8 (neg : Bool) (n : Nat) : ElemRes :=
  let m := min n 127
  ⟨if neg then (256 - m) % 256 else m, if 127 < n then fpOverflow else 0⟩

/-- Convert a finite magnitude to an element (R153). -/
def convMag (f : ElemFmt) (mode : Rounding) (neg : Bool) (m : Nat) (e : Int) : ElemRes :=
  match f with
  | .fp32 => let r := fpRoundMag neg m e; ⟨r.bits.toNat, r.flags⟩
  | .bf16 =>
    let r := roundTo f.shape mode m e
    let p := fpPack neg (r.n * 65536) (r.q - 16)
    ⟨p.1.toNat / 65536,
      (if p.2 then fpOverflow else 0) ||| (if r.tiny && r.inexact then fpUnderflow else 0)⟩
  | .mxInt8 => packInt8 neg (roundStep mode m e (-6))
  | _ => packSef f neg (roundTo f.shape mode m e)

/-- Convert one binary32 word to a format without a block scale (R153). -/
def convPlain (f : ElemFmt) (mode : Rounding) (w : Word) : ElemRes :=
  match fpDecode w with
  | .fin neg m e => convMag f mode neg m e
  | .inf neg =>
    match f with
    | .fp32 => ⟨w.toNat, 0⟩
    | .bf16 => ⟨w.toNat / 65536, 0⟩
    | _ => ⟨(if neg then 2 ^ (f.width - 1) else 0) + f.maxBits, fpOverflow⟩
  | .nan =>
    let neg := bitAt w.toNat 31
    match f with
    | .fp32 => ⟨w.toNat, 0⟩
    | .bf16 => ⟨(if neg then 0x8000 else 0) + 0x7FC0, 0⟩
    | _ => ⟨(if neg then 0x80 else 0) + 0x7F, 0⟩

/-- A block converted to an MX format: scale byte, elements and flags (R154). -/
structure MxBlock where
  scale : Nat
  elems : List Nat
  flags : FpFlags
  deriving DecidableEq, Repr

/-- The larger of two magnitudes. -/
def maxMag (a b : Dyadic) : Dyadic := if DyOp.lt a b then b else a

def fpMag : Fp → Dyadic
  | .fin _ m e => ⟨m, e⟩
  | _ => ⟨0, 0⟩

/-- Convert a block of values to an MX format; `mode` gives each element its rounding (R154). -/
def convMx (f : ElemFmt) (mode : Nat → Rounding) (vs : List Word) : MxBlock :=
  let ds := vs.map fpDecode
  if ds.any (fun d => match d with | .fin _ _ _ => false | _ => true) then
    ⟨0xFF, vs.map (fun _ => 0), fpInvalid⟩
  else
    let m := (ds.map fpMag).foldl maxMag ⟨0, 0⟩
    if m.num = 0 then ⟨0x00, vs.map (fun _ => 0), 0⟩
    else
      let x := max (-127) (min 127 (DyOp.log2Floor m - f.emax))
      let rs := (List.range ds.length).map fun i =>
        match ds.getD i .nan with
        | .fin neg mg e => convMag f (mode i) neg mg (e - x)
        | _ => ⟨0, 0⟩
      ⟨(x + 127).toNat, rs.map (·.bits), (rs.map (·.flags)).foldl (· ||| ·) 0⟩

/-- An element times its block's scale, rounded once to binary32 (R179). -/
def unpackElem (f : ElemFmt) (sb x : Nat) : FpRes :=
  if f.isMx && sb = 0xFF then fpInvalidNan
  else
    match elemDecode f x with
    | .nan => fpQuietNan
    | .inf n => ⟨fpInf n, 0⟩
    | .fin n m e => fpRoundMag n m (e + (if f.isMx then (sb : Int) - 127 else 0))

end Sys2Proof.Machine
end

