-- ==== Sys2Proof/Machine/TypesRing.lean ====
section
/-! DEFINITION. Rings, their items and waiters (09_rings.md), and the signals that a step raises for the fault service (21_faults.md R532, R547). -/

namespace Sys2Proof.Machine

/-- RING_STATE.STATE (R265). -/
inductive RingSt
  | closed | opened | flushing
  deriving DecidableEq, Repr

def RingSt.code : RingSt → Nat
  | .closed => 0 | .opened => 1 | .flushing => 2

/-- Who made a reservation or holds a taken item (R241). A remote producer is a package and its SRC. -/
inductive Party
  | none
  | cell (cell thread : Nat)
  | remote (pkg src tag : Nat)
  | engine | host | network | dispatcher | ohmax
  deriving DecidableEq, Repr

/-- Where an item stands (R242–R247). -/
inductive ItemSt
  | reserved | held | committed | skip | taken | done
  deriving DecidableEq, Repr

/-- An item of a ring, from FREE to RESV, oldest first (R238, R242, R246). `mile`, `req`, `typ` and `want` are the header's once it is committed. -/
structure RItem where
  idx : Nat
  words : Nat
  seq : Nat
  st : ItemSt := .reserved
  since : Nat := 0
  producer : Party := .none
  holder : Party := .none
  mile : Nat := 0
  req : Nat := 0
  typ : Nat := 0
  want : Bool := false
  deriving DecidableEq, Repr

/-- A waiting RRES (R242). -/
structure ResWait where
  who : Party
  words : Nat
  deriving DecidableEq, Repr

/-- A waiting RTAKE and its destination in the cell store (R187, R246). -/
structure TakeWait where
  cell : Nat
  thread : Nat
  deriving DecidableEq, Repr

/-- A ring (R238, R242, R251–R262). The indices count modulo 2³². -/
structure Ring where
  st : RingSt := .closed
  resv : Nat := 0
  cmt : Nat := 0
  take : Nat := 0
  free : Nat := 0
  nextSeq : Nat := 0
  items : List RItem := []
  waitRes : List ResWait := []
  waitTake : List TakeWait := []
  promised : Nat := 0
  heldTail : Option Nat := none
  drainSince : Option Nat := none
  narrowed : Bool := false
  voids : Nat := 0
  dbRefused : Nat := 0
  complLost : Nat := 0
  alerted : Bool := false
  deriving DecidableEq, Repr

/-- A containment scope (R532). -/
inductive Scope
  | none
  | task (ring seq : Nat)
  | item (ring seq : Nat)
  | cell (n : Nat)
  | island (n : Nat)
  | package
  | partition
  deriving DecidableEq, Repr

/-- A detected fault or notice, on its way to the fault service (R534, R547). `sev` 0 is a notice; `late` is the severity's cell for R540. -/
structure Detected where
  sev : Nat
  source : Nat
  cause : Nat
  subcause : Nat := 0
  scope : Scope := .none
  atCell : Nat := 0xFF
  atThread : Nat := 0xFF
  unitId : Nat := 0xFF
  addr : Nat := 0
  blob : Nat := 0xFFFFFFFF
  pc : Nat := 0
  arg : Nat := 0
  deriving DecidableEq, Repr

end Sys2Proof.Machine
end

