-- ==== Sys2Proof/Machine/TypesCell.lean ====
section
/-! DEFINITION. Cells, threads, transfers and requests to other packages (05_cells.md, 06_cell_operations.md, 10_dispatch_and_switching.md R268–R280). -/

namespace Sys2Proof.Machine

/-- What a thread waits for (R161, R181–R191). A thread that waits holds the operation that it issued. -/
inductive ThSt
  | run | ended | stopped
  | waitRes (ring : Nat)
  | waitTake (ring : Nat)
  | waitBar (b : Nat)
  | waitFence
  | waitTags (mask : Nat)
  | waitTagFree (tag : Nat)
  | waitAtom
  | waitRemote
  | waitArm
  | waitTick (t : Nat)
  | waitBoundary (turn : Nat)
  | waitEnd
  deriving DecidableEq, Repr

/-- A reservation or take handle (R188): the ring, its package for a remote ring, the item and its words. -/
structure Hold where
  pkg : Nat
  ring : Nat
  seq : Nat
  words : Nat
  deriving DecidableEq, Repr

/-- A thread (R140, R149, R160, R170, R175, R188). Vector registers and tiles are the allotment's; a missing one reads +0. -/
structure Thread where
  st : ThSt := .run
  pc : Nat := 0
  word : Nat := 0
  s : List Dword := List.replicate 32 0
  flags : FpFlags := 0
  walk0 : Option Walker := none
  walk1 : Option Walker := none
  resv : List (Option Hold) := List.replicate 8 none
  takes : List (Option Hold) := List.replicate 8 none
  v : List (List Word) := []
  acc : List (List Word) := []
  failed : Nat := 0
  failCause : Nat := 0
  deriving DecidableEq, Repr

/-- A staging slot's tile (R140, R176): its format code, 32 rows of 32 element codes, and 32 scale bytes. -/
structure StageTile where
  fmt : ElemFmt
  rows : List (List Nat)
  scales : List Nat
  deriving DecidableEq, Repr

/-- A barrier (R184): the threads that wait at it, and IMM of the first (log entry 13). -/
structure Barrier where
  waiting : List Nat := []
  need : Nat := 0
  deriving DecidableEq, Repr

/-- The part a cell runs (R268, R274): the task item's ring and SEQ, its split pair, program and class, and when it last started or resumed. -/
structure Part where
  ring : Nat := 0
  seq : Nat := 0
  p : Nat := 0
  q : Nat := 0
  blob : Nat := 0
  threads : Nat := 0
  vregs : Nat := 0
  acc : Nat := 0
  prio : Nat := 0
  flags : Nat := 0
  startedAt : Nat := 0
  deriving DecidableEq, Repr

/-- CELL_STAT.STATE (R164). -/
inductive CellSt
  | closed | idle | run | switch
  deriving DecidableEq, Repr

def CellSt.code : CellSt → Nat
  | .closed => 0 | .idle => 1 | .run => 2 | .switch => 3

/-- A touch-log entry (R222): the item, and a wagon of the global address space with its page mask. -/
structure Touch where
  ring : Nat
  seq : Nat
  wagon : Nat
  mask : Nat
  deriving DecidableEq, Repr

/-- The state of a part, on a cell or in a save frame (R277). `cell` is where it ran; for a saved part `savedAt` is when it was saved,
`overflow` keeps the wagons that the full touch log could not take and `spilled` the items held when it overflowed (R222);
`resume` is the cell that is loading it, `pool` whether its frame is one of the 128, and `leftOpen` when its platform left OPEN (R284). -/
structure PartState where
  part : Part
  store : List (Nat × Byte) := []
  poison : List (Nat × Bool) := []
  stage : List (Option StageTile) := List.replicate 8 none
  threads : List Thread := []
  bars : List Barrier := List.replicate 4 {}
  touch : List Touch := []
  overflow : List (Nat × Nat × Nat) := []
  spilled : List (Nat × Nat) := []
  halted : Bool := false
  cell : Nat := 0
  savedAt : Nat := 0
  resume : Option Nat := none
  pool : Bool := true
  leftOpen : Option Nat := none
  deriving DecidableEq, Repr

/-- A light switch (R278): the phase (0 quiesce, 1 save, 2 load), when it began, who comes in, and whether a closing platform saves it (R284).
`incoming` is the (ring, SEQ, part) that takes the cell, `resumed` when it is a saved part. `light` says that it replaces a part, so that it counts. -/
structure Switch where
  phase : Nat
  since : Nat
  began : Nat
  incoming : Option (Nat × Nat × Nat)
  resumed : Bool
  light : Bool
  forClose : Bool
  deriving DecidableEq, Repr

/-- A cell (R140, R164). `ps` is the part on it and `last` what its arrays kept of the part that left it; `starting` is when a cold start began; `stoppedIssue` is containment (R535). -/
structure Cell where
  st : CellSt := .closed
  ps : Option PartState := none
  last : Option PartState := none
  starting : Option Nat := none
  switch : Option Switch := none
  stoppedIssue : Bool := false
  draining : Bool := false
  deriving DecidableEq, Repr

/-- The part leaves the cell, whose arrays keep what it left (R140). -/
def Cell.vacate (x : Cell) : Cell := { x with ps := none, last := x.ps }

/-- A transfer's work (R181, R182). -/
inductive XKind
  | get | put | atom (op : Nat) (b d : Nat)
  deriving DecidableEq, Repr

/-- How far a transfer has come: to be performed here, out to another package, answered, failed with a SUBCAUSE of R548, or retrying since a CLOSED response. -/
inductive XSt
  | here
  | away
  | answered (data : List Byte) (poison : List Nat)
  | failed (sub : Nat)
  deriving DecidableEq, Repr

/-- An outstanding transfer or atomic. `tag` 16 is the thread's atomic. `data` is an XPUT's bytes, or what an XGET from another package has received,
and `bad` its poisoned 64-byte lines. `left` counts the bytes or writes still to be answered over links, and `fail` is a part's failure. -/
structure Xfer where
  cell : Nat
  thread : Nat
  tag : Nat
  kind : XKind
  addr : Nat
  off : Nat
  len : Nat
  data : List Byte := []
  bad : List Nat := []
  dreg : Nat := 0
  st : XSt := .here
  left : Nat := 0
  since : Nat := 0
  closedSince : Option Nat := none
  fail : Nat := 0
  deriving DecidableEq, Repr

/-- What a request to another package asks for (R352). -/
inductive RemoteKind
  | read (len : Nat)
  | write (data : List Byte)
  | atomic (op b d : Nat)
  | rres (ring n : Nat) (nw : Bool)
  | rwr (ring seq word : Nat) (data : List Byte)
  | rcom (ring seq : Nat)
  deriving DecidableEq, Repr

/-- A request to another package, with the thread that waits for it: tag 16 for its atomic, 17 for a ring operation. -/
structure RemoteReq where
  pkg : Nat
  cell : Nat
  thread : Nat
  tag : Nat
  addr : Nat
  kind : RemoteKind
  since : Nat := 0
  deriving DecidableEq, Repr

/-- What a step leaves for its end: faults to classify (R539), commits into an empty ring of host consumer, a change of boot code and
refused doorbells (R395), requests to other packages, and answers to their ring operations (R352), a half-link that went down (R382) and a
PARTITION_STOP entry (R545). -/
inductive Signal
  | fault (d : Detected)
  | hostRing (ring : Nat)
  | bootCode
  | dbRefused (ring : Nat)
  | remote (q : RemoteReq)
  | ringResp (pkg tag word : Nat)
  | edgeDown (link half : Nat)
  | partitionStop (origin : Nat)
  deriving DecidableEq, Repr

end Sys2Proof.Machine
end

