-- ==== Sys2Proof/Machine/TypesDispatch.lean ====
section
/-! DEFINITION. Tasks, weight sets and the dispatcher (10_dispatch_and_switching.md R268–R285). -/

namespace Sys2Proof.Machine

/-- A checked task item (R268) and how far its parts have come. `cells` are the cells its TASK_POST allows (R275).
`taken` says that its item has left TAKE; `claiming` that a part of it waits on a quiesce (R278). -/
structure Task where
  ring : Nat
  seq : Nat
  posted : Bool := false
  isStatic : Bool := false
  cells : Nat := 2 ^ 64 - 1
  cellMask : Nat := 0
  blob : Nat := 0
  entry : Nat := 0
  length : Nat := 0
  prio : Nat := 0
  flags : Nat := 0
  threads : Nat := 1
  vregs : Nat := 8
  acc : Nat := 0
  q : Nat := 1
  wset : Nat := 0
  wsetBytes : Nat := 0
  wsetSrc : Nat := 0
  wsetDst : Nat := 0
  mile : Nat := 0
  args : List Nat := []
  taken : Bool := false
  next : Nat := 0
  ended : Nat := 0
  claiming : Bool := false
  deriving DecidableEq, Repr

/-- ROLE, PREEMPT and PINNED of a task's FLAGS (R268). -/
def Task.role (t : Task) : Nat := bitsOf t.flags 3 2
def Task.preempt (t : Task) : Bool := t.flags.testBit 0

/-- STATE of a weight set (R281). -/
inductive WsetSt
  | absent | streaming | resident
  deriving DecidableEq, Repr

def WsetSt.code : WsetSt → Nat
  | .absent => 0 | .streaming => 1 | .resident => 2

/-- A weight-set entry (R281, R285); `id` 0 is free. -/
structure Wset where
  id : Nat := 0
  st : WsetSt := .absent
  src : Nat := 0
  dst : Nat := 0
  bytes : Nat := 0
  since : Nat := 0
  lastUse : Nat := 0
  deriving DecidableEq, Repr

/-- The dispatcher: tasks whose items it holds or that TASK_POST made, the resume queue in save order, the weight sets, candidates that
wait after an abandoned quiesce (ring, SEQ, until) (R279), roles in force (R308) and platforms that admit no new part (R425). -/
structure Disp where
  tasks : List Task := []
  saved : List PartState := []
  wsets : List Wset := List.replicate 16 {}
  blocked : List (Nat × Nat × Nat) := []
  lastRing : Nat := 0
  posted : Nat := 0
  roles : List Nat := List.replicate 8 0
  narrowed : List Nat := []
  deriving DecidableEq, Repr

end Sys2Proof.Machine
end

