-- ==== Sys2Proof/Machine/TypesTime.lean ====
section
/-! DEFINITION. Islands, the timetable, its discipline, departures and the sync station (04_islands_and_timetable.md). -/

namespace Sys2Proof.Machine

/-- The state of an island (R138, R485). -/
inductive IslSt
  | opened | closing | closed | opening
  deriving DecidableEq, Repr

/-- STATE of ISL_CLK (R138). -/
def IslSt.code : IslSt → Nat
  | .opened => 0 | .closing => 1 | .closed => 2 | .opening => 3

/-- An island: its state and when it began, its clock, and what waits for it (R105, R106, R284, R485–R491, R588).
`mhz` is the set frequency (PLAT_MHZ or the last CLOCK_SET), `running` the frequency in force, `change` the other frequency of a change under way.
`began` is when the request for its transition fired; `queued` is the request that waits for the transition to end (R487): true to open.
`cycles` counts its clock's cycles since it opened, in sixteen-thousandths, up to `cycAt` (R164). -/
structure Island where
  st : IslSt := .closed
  since : Nat := 0
  began : Nat := 0
  prepare : Bool := false
  mhz : Nat := 0
  running : Nat := 0
  change : Option Nat := none
  changeAt : Nat := 0
  replica : Bool := false
  queued : Option Bool := none
  longNoted : Bool := false
  leftOpen : Nat := 0
  cycles : Nat := 0
  cycAt : Nat := 0
  deriving DecidableEq, Repr

/-- The clock runs at another frequency from now on. -/
def Island.setRunning (i : Island) (f now : Nat) : Island :=
  { i with cycles := i.cycles + (now - i.cycAt) * i.running, cycAt := now, running := f }

/-- TT_STAT.STATE (R116, R137). -/
inductive TtSt
  | start | acquire | locked | root | holdover | freerun
  deriving DecidableEq, Repr

def TtSt.code : TtSt → Nat
  | .start => 0 | .acquire => 1 | .locked => 2 | .root => 3 | .holdover => 4 | .freerun => 5

/-- What a departure rides on: armed at a tick, or at a phase of the turns whose number is a multiple of `n`
(0: once, at the first turn boundary) (R99, R121). -/
inductive DepWhen
  | once (tick : Nat)
  | periodic (n phase : Nat)
  deriving DecidableEq, Repr

/-- An armed departure (R122). `due` says that a periodic departure has still to fire in this turn; `held` that a
two-phase arming has not yet been acknowledged (R129); `armedBy` is the cell and thread that armed it, for DCAN (R191). -/
structure Departure where
  id : Nat
  whenAt : DepWhen
  action : Nat
  scope : Nat
  order : Nat
  arg : Nat
  log : Bool
  armNo : Nat
  due : Bool := true
  held : Bool := false
  armedBy : Option (Nat × Nat) := none
  deriving DecidableEq, Repr

/-- The last exchange over a link (R112, R360): the offset in sixteenths of a tick, the peer's place in the tree and its grid. -/
structure Exchange where
  offset : Int
  st : Nat
  depth : Nat
  ptime : Bool
  root : Nat
  turnPeriod : Nat
  grid : Nat
  turnNum : Nat
  seenAt : Nat
  deriving DecidableEq, Repr

/-- The sync station's states (R135). -/
inductive SyncSt
  | off | acquire | track | freerun
  deriving DecidableEq, Repr

def SyncSt.code : SyncSt → Nat
  | .off => 0 | .acquire => 1 | .track => 2 | .freerun => 3

/-- The sync station (R132–R135). `lastInt` is the expected interval that already has its edge, `ref` the first accepted edge in 1PPS mode, and
`reversals` counts pulses or frames in a row that show a reversed pair. -/
structure SyncStation where
  st : SyncSt := .off
  misses : Nat := 0
  missing : Nat := 0
  consistent : Nat := 0
  lastEdge : Option Nat := none
  lastInt : Option Nat := none
  ref : Option Nat := none
  inverted : Bool := false
  reversals : Nat := 0
  deriving DecidableEq, Repr

/-- The timetable of I0 (R111–R122). `running` says that the grid's boundaries fire, `align` that a lock after free-run still moves it (R65).
`exch` and `clearRun` (exchanges in a row with PTIME clear) go by half-link, numbered 2 × link + half; `parent` too. `base` is the offset that the
exchanges before first lock agree on (log entry 19), `rejoin` that the next exchange decides under R117, `merge` that its root is another than before (R139). Ticks are nominal ticks of the local PLL; `rate` is the rate word in steps of 2⁻³² tick a PLL cycle;
`frac` counts in steps of 2⁻³⁶ tick; `hold` is how long the counter still stands (R117); `spent` keeps the departures of threads that have fired or were cancelled, for DCAN (R191); `turnSet` a TT_TURN that takes effect at the next boundary (R126). -/
structure Timetable where
  counter : Nat := 0
  frac : Nat := 0
  rate : Nat := 0x1000000000
  hold : Nat := 0
  slewing : Bool := false
  stepBy : Nat := 0
  st : TtSt := .start
  carries : Bool := false
  lockedOnce : Bool := false
  parent : Option Nat := none
  depth : Nat := 0
  rootPkg : Option Nat := none
  lockRun : Nat := 0
  outRun : Nat := 0
  clearRun : List (Nat × Nat) := []
  base : Option Int := none
  rejoin : Bool := false
  merge : Bool := false
  exch : List (Nat × Exchange) := []
  gridMismatch : Bool := false
  syncReversed : Bool := false
  outFault : Bool := false
  boundary : Nat := 0
  turnNum : Nat := 0
  shift : Int := 0
  running : Bool := false
  align : Bool := false
  deps : List Departure := []
  nextId : Nat := 0
  armNo : Nat := 0
  deferred : List Departure := []
  turnSet : Option Nat := none
  sync : SyncStation := {}
  outFrame : List Byte := []
  spent : List Departure := []
  deriving DecidableEq, Repr

/-- Advance the counter over `d` local ticks (R111, R117). -/
def Timetable.pass (t : Timetable) (d : Nat) : Timetable :=
  let still := min d t.hold
  let n := t.frac + (d - still) * t.rate
  { t with hold := t.hold - still, counter := (t.counter + n / 2 ^ 36) % 2 ^ 64, frac := n % 2 ^ 36 }

/-- Local ticks until the counter reaches a tick. -/
def Timetable.until (t : Timetable) (tick : Nat) : Nat :=
  if tick ≤ t.counter then 0
  else t.hold + ceilDiv ((tick - t.counter) * 2 ^ 36 - t.frac) (max t.rate 1)

/-- Bring the counter to a tick that lies ahead; a tick behind leaves it (R111: it never decreases). -/
def Timetable.reach (t : Timetable) (tick : Nat) : Timetable :=
  if tick ≤ t.counter then t else { t with hold := 0, counter := tick % 2 ^ 64, frac := 0 }

/-- Take a departure out of its slot; one that a thread armed is remembered (R122, R191). -/
def Timetable.dropDep (t : Timetable) (d : Departure) : Timetable :=
  { t with deps := t.deps.filter fun x => x.id != d.id, spent := if d.armedBy.isSome then t.spent ++ [d] else t.spent }

/-- The length of the current turn (R118). -/
def Timetable.turnLen (t : Timetable) (turn : Nat) : Nat := ((turn : Int) + t.shift).toNat

/-- The next boundary (R118). -/
def Timetable.nextBoundary (t : Timetable) (turn : Nat) : Nat := t.boundary + t.turnLen turn

/-- When a departure fires, none when not in this turn (R121). -/
def depTime (t : Timetable) (turn : Nat) (d : Departure) : Option Nat :=
  if d.held then none
  else
    match d.whenAt with
    | .once tick => some tick
    | .periodic _ phase =>
      if t.running && d.due then some (t.boundary + min phase (t.turnLen turn - 1)) else none

/-- The clamp of R121 was used. -/
def depClamped (t : Timetable) (turn : Nat) (d : Departure) : Bool :=
  match d.whenAt with
  | .once _ => false
  | .periodic _ phase => decide (t.turnLen turn - 1 < phase)

/-- Action ranks (R126). -/
def actionRank (a : Nat) : Nat :=
  if a = 0x0010 ∨ a = 0x0011 then 0 else if a = 0x0060 ∨ a = 0x0070 then 1 else if a = 0x0020 then 2
  else if a = 0x0030 then 3 else if a = 0x0040 then 5 else if a = 0x0050 ∨ a = 0x0051 then 6 else 7

/-- The firing order of R125, as a comparison of (TIME, ORDER, rank, arming order). -/
def depBefore (a b : Nat × Nat × Nat × Nat) : Bool :=
  decide (a.1 < b.1) || (a.1 == b.1 &&
    (decide (a.2.1 < b.2.1) || (a.2.1 == b.2.1 &&
      (decide (a.2.2.1 < b.2.2.1) || (a.2.2.1 == b.2.2.1 && decide (a.2.2.2 < b.2.2.2))))))

/-- The firing key of a departure. A time already passed over fires now (R117). -/
def depKey (t : Timetable) (turn : Nat) (d : Departure) : Option (Nat × Nat × Nat × Nat) :=
  (depTime t turn d).map fun tick => (max tick t.counter, d.order, actionRank d.action, d.armNo)

/-- The firing key of the standing boundary departure (R120). -/
def boundaryKey (t : Timetable) (turn : Nat) : Nat × Nat × Nat × Nat :=
  (max (t.nextBoundary turn) t.counter, 0x8000, 4, 0)

/-- The departure that fires next, if it comes before the next boundary. -/
def nextDep (t : Timetable) (turn : Nat) : Option Departure :=
  let best := t.deps.foldl (fun (a : Option (Departure × (Nat × Nat × Nat × Nat))) d =>
    match depKey t turn d with
    | none => a
    | some k =>
      match a with
      | none => some (d, k)
      | some (_, k0) => if depBefore k k0 then some (d, k) else a) none
  match best with
  | none => none
  | some (d, k) => if t.running && depBefore (boundaryKey t turn) k then none else some d

/-- Whether the standing boundary departure is the next to fire (R120, R125). -/
def boundaryNext (t : Timetable) (turn : Nat) : Bool :=
  t.running && (nextDep t turn).isNone

/-- Scope codes that are not reserved (R127). -/
def scopeValid (s : Nat) : Bool :=
  s == 0 || (decide (0x100 ≤ s) && decide (s ≤ 0x10D)) || (decide (0x200 ≤ s) && decide (s ≤ 0x23F)) ||
    (decide (0x301 ≤ s) && decide (s ≤ 0x3FF)) || s == 0x400 || s == 0x401

/-- Whether a scope needs two-phase arming (R129). -/
def scopeWide (s : Nat) : Bool := s == 0x400 || s == 0x401

def isIslandScope (s : Nat) : Bool := decide (0x100 ≤ s) && decide (s ≤ 0x10D)
def isCellScope (s : Nat) : Bool := decide (0x200 ≤ s) && decide (s ≤ 0x23F)
def isPlatScope (s : Nat) : Bool := decide (0x301 ≤ s) && decide (s ≤ 0x3FF)

/-- The scopes each action permits (R126); none for a reserved action. -/
def actionScopes (a s : Nat) : Option Bool :=
  if a = 0x0001 then some (scopeValid s)
  else if a = 0x0002 then some (s == 0)
  else if a = 0x0010 ∨ a = 0x0011 then some (s == 0x400)
  else if a = 0x0020 then some (scopeValid s && s != 0x400)
  else if a = 0x0030 then some (s == 0 || isPlatScope s || isCellScope s || scopeWide s)
  else if a = 0x0040 then some (s == 0 || scopeWide s)
  else if a = 0x0050 then some (s == 0 || isPlatScope s || isCellScope s)
  else if a = 0x0051 then some (s == 0)
  else if a = 0x0060 then some (isIslandScope s || isPlatScope s || s == 0)
  else if a = 0x0070 then some (isPlatScope s)
  else none

/-- Who arms a departure (R126). -/
inductive DepSource
  | seed | thread | ohmax | amendA | syncStation
  deriving DecidableEq, Repr

/-- The sources each action takes (R126). -/
def actionSource (a : Nat) : DepSource → Bool
  | .seed => decide (a = 0x0001 ∨ a = 0x0002 ∨ a = 0x0030 ∨ a = 0x0040 ∨ a = 0x0050 ∨ a = 0x0051 ∨ a = 0x0060 ∨ a = 0x0070)
  | .thread => decide (a = 0x0001 ∨ a = 0x0030 ∨ a = 0x0040 ∨ a = 0x0050 ∨ a = 0x0051)
  | .ohmax => decide (a = 0x0001 ∨ a = 0x0002 ∨ a = 0x0030 ∨ a = 0x0040 ∨ a = 0x0050 ∨ a = 0x0051 ∨ a = 0x0060 ∨ a = 0x0070)
  | .amendA => decide (a = 0x0001 ∨ a = 0x0011 ∨ a = 0x0020 ∨ a = 0x0030 ∨ a = 0x0040 ∨ a = 0x0050 ∨ a = 0x0051 ∨ a = 0x0060 ∨ a = 0x0070)
  | .syncStation => decide (a = 0x0010)

/-- The arming lead of R123, in ticks. -/
def armLead (scope : Nat) : Nat := if scopeWide scope then 320000 else 32000

end Sys2Proof.Machine
end

