-- ==== Sys2Proof/Machine/TypesEng.lean ====
section
/-! DEFINITION. The sequence engine, the turntable, the collective engine and two-phase arming (11_sequences.md; 12_generate_and_learn.md;
14_collectives.md). -/

namespace Sys2Proof.Machine

/-! ### Sequences (R288–R306) -/

/-- A model entry of the sequence plan (R305). -/
structure SeqModel where
  layers : Nat
  steps : Nat
  pageTokens : Nat
  joinRing : Nat
  taskRing : Nat
  bucketSet : Nat
  batchMax : Nat
  maxTokens : Nat
  summaryBytes : Nat
  entry : Nat
  shape : List Byte
  prio : Nat
  flags : Nat
  deriving DecidableEq, Repr

/-- The sequence plan (R305). -/
structure SeqPlan where
  models : List SeqModel
  pool : Nat
  pt : Nat
  park : Nat
  summary : Nat
  batch : Nat
  ctrl : Nat
  ptLog2 : Nat
  reserve : Nat
  budget : Nat
  victimTtl : Nat
  queueMax : Nat
  summarySlot : Nat
  deriving DecidableEq, Repr

/-- STATE of a page-table record (R290), but for CANCELLING. -/
inductive SeqSt
  | running | parked | summary | held
  deriving DecidableEq, Repr

def SeqSt.code : SeqSt → Nat
  | .running => 1 | .parked => 2 | .summary => 3 | .held => 4

/-- A live sequence (R290–R298). `pages` are its pool pages and `park` its park-store pages, in entry order; `ttl` and `pausedAt` (the tick of the
boundary of its pause) give its expiry; `grant` is what this boundary granted; `fresh` is 1 for a joiner and 2 for a summary resumer admitted
at this boundary; `wantResume` is a RESUME taken while it was HELD, and `cancel` that a CANCEL was taken (STATE CANCELLING). `version`, `bank`, `vflags` and `channel` are its version-map entry (R312). -/
structure Seq where
  slot : Nat
  id : Nat
  model : Nat
  st : SeqSt := .running
  prio : Nat
  length : Nat := 0
  mile : Nat := 0
  request : Nat := 0
  pages : List Nat := []
  park : List Nat := []
  ttl : Nat := 0
  pausedAt : Nat := 0
  summary : Option Nat := none
  admitted : Nat := 0
  ring : Nat
  item : Nat
  req : Nat := 0
  grant : Nat := 0
  fresh : Nat := 0
  prompt : Nat := 0
  wantResume : Option (Nat × Nat) := none
  cancel : Bool := false
  version : Nat := 0
  bank : Nat := 0
  vflags : Nat := 0
  channel : Option Nat := none
  deriving DecidableEq, Repr

/-- A place in the admission queue (R300): a joiner with its item, or a resumer with its slot. `order` is its entry order, and `now` that the boundary work under way put it there. -/
structure SeqWait where
  prio : Nat
  resumer : Option Nat
  order : Nat
  now : Bool := false
  id : Nat := 0
  model : Nat := 0
  prompt : Nat := 0
  ring : Nat := 0
  item : Nat := 0
  req : Nat := 0
  deriving DecidableEq, Repr

/-- An entry of this turn's batches (R301): START and NEW, KIND and FLAGS. -/
structure SeqEntry where
  slot : Nat
  model : Nat
  id : Nat
  start : Nat
  new : Nat
  prefill : Bool
  rebuild : Bool
  deriving DecidableEq, Repr

/-- The join item that a sequence holds for its whole life names it (R293): its ring and its SEQ. -/
def Seq.join (s : Seq) : Nat × Nat := (s.ring, s.item)
def SeqWait.join (w : SeqWait) : Nat × Nat := (w.ring, w.item)

/-- The program's fields of a page-table header as a snapshot read them, for the sequence that a join item names, and TTL_MS of one paused by then. -/
structure SeqHead where
  join : Nat × Nat
  paused : Option Nat
  request : Nat
  length : Nat
  mile : Nat
  ttl : Nat
  deriving DecidableEq, Repr

/-- A snapshot (R294): the boundary's turn and tick, the headers, the sequences that a CANCEL has taken, live or queued, the queue's newest place,
SEQ_RESERVE and SEQ_PARKBUDGET. -/
structure SeqSnap where
  turn : Nat
  tick : Nat
  heads : List SeqHead
  cancels : List (Nat × Nat)
  order : Nat
  reserve : Nat
  budget : Nat
  deriving DecidableEq, Repr

/-- The sequence engine and the marshalling engine. `entries` are those of a boundary whose batches wait for its copies, `copies` the pages it moved,
`busy` says that boundary work is in progress and since when, and `posted` that its batches are formed; `overdue` are the snapshots of the boundaries whose work waits (R304); `flags` are the
addresses of the FLAGS bytes of this turn's entries by slot (R303); `tasks` are task items that their ring had no room for. -/
structure SeqEng where
  live : List Seq := []
  queue : List SeqWait := []
  order : Nat := 0
  budget : Nat := 0
  copies : Nat := 0
  busy : Option Nat := none
  posted : Bool := false
  entries : List SeqEntry := []
  turn : Nat := 0
  overdue : List SeqSnap := []
  flags : List (Nat × Nat) := []
  tasks : List (Nat × List Byte) := []
  headWait : Bool := false
  unschedNoted : Bool := false
  deriving DecidableEq, Repr

/-! ### The turntable (R309–R333) -/

/-- TRN_CHn_CTL.STATE (R333). -/
inductive TrnSt
  | idle | release | ready | streaming | staged | commitArmed
  deriving DecidableEq, Repr

def TrnSt.code : TrnSt → Nat
  | .idle => 0 | .release => 1 | .ready => 2 | .streaming => 3 | .staged => 4 | .commitArmed => 5

/-- A channel entry of the turntable plan (R331). -/
structure TrnChan where
  model : Nat
  tree : Nat
  srcPkg : Nat
  srcObj : Nat
  bank0 : Nat
  bank1 : Nat
  bytes : Nat
  policy : Nat
  initVersion : Nat
  rings : List Nat
  members : List Byte
  deriving DecidableEq, Repr

/-- The turntable plan (R330). -/
structure TrnPlan where
  chans : List TrnChan
  vmap : Nat
  readyMs : Nat
  doneMs : Nat
  deriving DecidableEq, Repr

/-- A channel (R309–R322). `users0` and `users1` are the task items that a bank's release waits for (R310); `forced` says that the next boundary
forces a roll, `commit` a version whose COMMIT waits for the next boundary; `got` counts the stream's bytes in the target bank, `missed` that a unit
was lost; `stagedAt` is the STAGE edge and `streamAt` the stream's start. The root keeps the members that are READY and DONE, and its own stage. -/
structure TrnCh where
  current : Nat := 0
  other : Nat := 0
  stage : Nat := 0
  curBank : Nat := 0
  st : TrnSt := .idle
  lastFail : Nat := 0
  commitTurn : Nat := 0
  users0 : List (Nat × Nat) := []
  users1 : List (Nat × Nat) := []
  forced : Bool := false
  commit : Option Nat := none
  got : Nat := 0
  missed : Bool := false
  member : Bool := false
  stagedAt : Nat := 0
  streamAt : Nat := 0
  ready : List Nat := []
  done : List Nat := []
  rootSt : TrnSt := .idle
  rootStage : Nat := 0
  deriving DecidableEq, Repr

/-! ### Collectives (R367–R384) -/

/-- A collective descriptor as it was read when its departure was armed (R367, R368). `bad` says that it failed the check, `complOk` that COMPL
is valid even so. -/
structure ColDesc where
  op : Nat
  dtype : Nat
  mode : Nat
  span : Nat
  inst : Nat
  trees : Nat
  bytes : Nat
  src : Nat
  dst : Nat
  compl : Nat
  bad : Bool := false
  complOk : Bool := true
  deriving DecidableEq, Repr

/-- A unit that arrived over a tree and waits: the neighbour it came from, whether it travels down, and its offset in the collective buffer. -/
structure ColUnit where
  peer : Nat
  down : Bool
  off : Nat
  data : List Byte
  deriving DecidableEq, Repr

/-- An instance on one tree (R381). `desc` is none until this member launches. The facts of `op` to `yard` are the first packet's, for R381.
`up` and `down` count the units sent up or reduced, and the units of the result taken. `slice` is the slice's number, `own` an express member's
contribution as read at its firing edge, `tick` its firing tick, and `failed` the status and origin of a failure. -/
structure ColInst where
  tree : Nat
  inst : Nat
  desc : Option ColDesc := none
  slice : Nat := 0
  since : Nat := 0
  op : Nat := 0
  dtype : Nat := 0
  bytes : Nat := 0
  yard : Bool := false
  bulk : Bool := false
  inbox : List ColUnit := []
  up : Nat := 0
  down : Nat := 0
  own : List Byte := []
  tick : Nat := 0
  wrote : Bool := false
  failed : Option (Nat × Nat) := none
  finished : Bool := false
  deriving DecidableEq, Repr

/-- A launch of this member: its descriptor and the trees whose slices are still open (R369, R371). -/
structure ColLaunch where
  desc : ColDesc
  left : List Nat
  held : Bool := false
  deriving DecidableEq, Repr

/-- The collective engine: checked descriptors by departure (with whether R376 holds its lines), launches and instances. -/
structure ColEng where
  armed : List (Nat × ColDesc × Bool) := []
  launches : List ColLaunch := []
  insts : List ColInst := []
  deriving DecidableEq, Repr

/-! ### Two-phase arming (R129, R385) -/

/-- Who asked for a wide departure: a thread (with the word of its DARM), or an engine. -/
inductive ArmAsker
  | thread (cell thread : Nat)
  | engine
  deriving DecidableEq, Repr

/-- A wide record on its way: the arming package and its departure identifier, the local departure (none where R123 refused it, with the
status), the acknowledgements of children, what was asked, and for this package's own record who asked. -/
structure ArmRec where
  pkg : Nat
  dep : Nat
  yard : Bool
  launch : Nat
  time : Nat
  period : Nat
  action : Nat
  scope : Nat
  order : Nat
  arg : Nat
  log : Bool
  localDep : Option Nat := none
  refused : Nat := 0
  downSeen : Bool := false
  acks : List (Nat × Nat × Nat × Nat) := []
  acked : Bool := false
  asker : Option ArmAsker := none
  askedAt : Nat := 0
  deriving DecidableEq, Repr

end Sys2Proof.Machine
end

