-- ==== Sys2Proof/Machine/TypesFault.lean ====
section
/-! DEFINITION. The fault service, the ledgers, and power states (21_faults.md R532–R554; 19_power_states.md R484–R507; 23_electrical.md R583–R590). -/

namespace Sys2Proof.Machine

/-- An item that a handling aborted: its ring, SEQ and milepost. -/
abbrev AbortedItem := Nat × Nat × Nat

/-- A handling on the stack (R537, R539). `rec` is its FAULT record; `items` what it aborted and `pages` what it marked uncertain;
`folded` the task and lone-item scopes folded into it, and `waits` that it waits for its island to open again. -/
structure Handling where
  sev : Nat
  scope : Scope
  recNo : Nat
  cause : Nat
  items : List AbortedItem := []
  pages : List Nat := []
  folded : List Scope := []
  waits : Bool := false
  reopenFailed : Bool := false
  deriving DecidableEq, Repr

/-- A queued fault: what was detected, and its FAULT record. -/
structure QueuedFault where
  d : Detected
  recNo : Nat
  deriving DecidableEq, Repr

/-- The fault service (R537–R552). `stack` has its bottom first. `passing` are the items that package stop's pass has still to complete.
`ret` are the 64 slots of the retention ledger and `retNext` the slot written next; `ends` are the page lists of END records, newest last;
`s2` the S2 handlings of cells (cell, local tick); `lostSince` counts records not written since the last LOST record; `stopRec` is the record of the
fault that stopped the package. -/
structure FltUnit where
  stack : List Handling := []
  queue : List QueuedFault := []
  recNo : Nat := 0
  lostSince : Nat := 0
  stop : Bool := false
  pstop : Bool := false
  passing : Bool := false
  stopAt : Nat := 0
  stopCause : Nat := 0
  stopRec : Nat := 0
  latch : Bool := false
  ends : List (Nat × List Nat) := []
  s2 : List (Nat × Nat) := []
  frozen : Bool := false
  ret : List (List Byte) := List.replicate 64 []
  retNext : Nat := 0
  deriving DecidableEq, Repr

/-- The package's power state and its transitions (R484, R497–R502). -/
inductive PkgSt
  | run | entering | retained | standby | exiting | railWait
  deriving DecidableEq, Repr

/-- Power (R484–R507, R573, R585–R589). `deep` says that an entry leads to P3; `pendOp` is an ENTER that waits and `pendWake` a wake that came during entry.
`supp`, `therm` and `pceil` are the ceilings of R588 in MHz, and the `…At` fields when each last moved. `ests` are the last estimates of 1 ms, newest first. -/
structure Power where
  st : PkgSt := .run
  deep : Bool := false
  pendOp : Option Nat := none
  waitDebug : Option Nat := none
  pendWake : Option Nat := none
  lastWake : Nat := 0
  began : Nat := 0
  railAt : Nat := 0
  avsAt : Nat := 0
  sensed : Nat := 0
  supp : List Nat := List.replicate 8 0xFFFF
  therm : List Nat := List.replicate 8 0xFFFF
  thermDown : List Nat := List.replicate 8 0
  thermUp : List Nat := List.replicate 8 0
  sampleAt : Nat := 0
  hbm2x : Bool := false
  hbmHot : Bool := false
  portHot : Bool := false
  pceil : Nat := 0xFFF
  pceilDown : Nat := 0
  pceilUp : Nat := 0
  overSince : Option Nat := none
  pgate : Bool := false
  sgate : Bool := false
  ests : List Nat := []
  estMax : Nat := 0
  deriving DecidableEq, Repr

end Sys2Proof.Machine
end

