-- ==== Sys2Proof/Machine/TypesNet.lean ====
section
/-! DEFINITION. Bilsal links, their packets and the link-state map (13_bilsal_links.md). -/

namespace Sys2Proof.Machine

/-- A transport packet (R351). A waypoint is a package and its global link. -/
structure Packet where
  typ : Nat
  hops : Nat := 0
  pass1 : Bool := false
  pass2 : Bool := false
  dst : Nat
  src : Nat
  way1 : Option (Nat × Nat) := none
  way2 : Option (Nat × Nat) := none
  status : Nat := 0
  tag : Nat := 0
  addr : Nat := 0
  data : List Byte := []
  deriving DecidableEq, Repr

/-- LNK_STAT.STATE (R363). -/
inductive LkSt
  | disabled | down | training | up | widthchg
  deriving DecidableEq, Repr

def LkSt.code : LkSt → Nat
  | .disabled => 0 | .down => 1 | .training => 2 | .up => 3 | .widthchg => 4

/-- A lane of one direction (R339, R340, R363): its status, whether it is inverted, its logical lane, and its latency (R361). -/
structure Lane where
  status : Nat := 0
  inverted : Bool := false
  logical : Nat := 0
  lat : Nat := 0
  deriving DecidableEq, Repr

/-- A DATA flit sent and not yet acknowledged (R347): its SEQ, its (class, stage) pair code, whether it spent a shared token, and its packets. -/
structure SentFlit where
  seq : Nat
  pair : Nat
  shared : Bool
  pkts : List Packet
  deriving DecidableEq, Repr

/-- A flit's buffer at the receiver (R349): the pair code its token goes back to, and the packets of it that still wait. -/
structure RecvFlit where
  code : Nat
  pkts : List Packet
  deriving DecidableEq, Repr

/-- A flit sent, with the lead of its codeword (R335, R346): the codeword count and the active lanes; FTYPE, VC, SEQ, ACK and PKTS; the token
returns; and the body before its zero fill. -/
structure Flit where
  count : Nat
  lanes : Nat
  ftype : Nat
  vc : Nat
  seq : Nat
  ack : Nat
  pkts : Nat
  tokret : List (Nat × Nat)
  body : List Byte
  deriving DecidableEq, Repr

/-- A stream of a link: a full link or half-link end is half 0, a split link has two (R341). `tok` are the tokens it may spend,
by pair code (0x3F the shared pool). `txq` are the packets in its output queue with their pair codes. `ackAt` is when ACK
last made progress; `replays` counts replays of `replaySeq`; `mask` is the lane mask of a width change that this end's receiver asked for.
`rxPhys` are the physical lanes that carry what the stream receives, `rxMask` their logical numbers. `crcAt` are the times of the last CRC failures.
`wait2` and `wait3` count the flits that REQUEST and POSTED stood behind (R350). `ret` are tokens to give back by pair code, `ackOwed` that a flit
accepted has still to be acknowledged, `cw` the next codeword's count, and `out` the flits sent last, the newest first (log entry 71).
The TIME fields are of R360, `timeOut` the body of the last TIME flit sent. -/
structure LinkHalf where
  st : LkSt := .disabled
  phase : Nat := 0
  since : Nat := 0
  peerPkg : Nat := 0
  peerLink : Nat := 0
  mismatch : Bool := false
  txMask : Nat := 0
  rxMask : Nat := 0
  lastFail : Nat := 0
  txSeq : Nat := 0
  rxSeq : Nat := 0
  naked : Bool := false
  ackAt : Nat := 0
  replaySeq : Nat := 0
  replays : Nat := 0
  crcAt : List Nat := []
  rxPhys : Nat := 0
  wait2 : Nat := 0
  wait3 : Nat := 0
  ret : List (Nat × Nat) := []
  ackOwed : Bool := false
  cw : Nat := 0
  out : List Flit := []
  tok : List (Nat × Nat) := []
  postedNext : Bool := false
  txq : List (Nat × Packet) := []
  sent : List SentFlit := []
  recv : List RecvFlit := []
  mask : Option Nat := none
  tseq : Nat := 0
  txPrev : Nat := 0
  txLatPrev : Nat := 0
  rxLast : Nat := 0
  rxSeqLast : Nat := 0
  rxLatLast : Nat := 0
  peerSeq : Nat := 0
  timeOut : List Byte := []
  deriving DecidableEq, Repr

/-- A link: its lanes and its streams. `blocks` are the training blocks that its transmit lanes send, empty for a lane that sends none (R338). -/
structure Link where
  blocks : List (List Byte) := []
  tx : List Lane := []
  rx : List Lane := []
  halves : List LinkHalf := [{}, {}]
  deriving DecidableEq, Repr

/-- A link-state entry (R357). -/
structure LsEntry where
  origin : Nat
  link : Nat
  half : Nat
  st : Nat
  wtx : Nat
  wrx : Nat
  seq : Nat
  boot : Nat
  deriving DecidableEq, Repr

/-- A packet that its source holds until a route to its destination is open again (R492–R494): a closed station's request, or a bounced write. -/
structure HeldPacket where
  pkt : Packet
  since : Nat
  bounced : Bool
  deriving DecidableEq, Repr

/-- How much of a page the WRITE packets of one XPUT of another package have covered so far, a bit for each 64 bytes (R224). -/
structure Cover where
  src : Nat
  tag : Nat
  page : Nat
  mask : Nat
  deriving DecidableEq, Repr

/-- The network of links of this package (R334–R364). `asked` are the ring operations of this package's threads that other packages have still to
answer, `held` what waits for a route, `mapSince` when the map last changed, `covers` what remote XPUTs under way have written, and `badNoted` that this turn's notice of discarded packets is out. -/
structure Net where
  links : List Link := List.replicate 24 {}
  map : List LsEntry := []
  boot : Nat := 0
  lsaSeq : Nat := 0
  held : List HeldPacket := []
  asked : List RemoteReq := []
  mapSince : Nat := 0
  badNoted : Bool := false
  lsaAt : Nat := 0
  covers : List Cover := []
  deriving DecidableEq, Repr

end Sys2Proof.Machine
end

