-- ==== Sys2Proof/Machine/TypesPin.lean ====
section
/-! DEFINITION. Service pins, the console, the lamp port, the control complex, the TAP, the I3C target and the wear store
(17_signal_box.md; 18_service_pins_and_lamp_port.md; 20 R521, R527; 22_wear.md). -/

namespace Sys2Proof.Machine

/-- A service pin (R456–R467). `cfg` is what PIN_CFGn and PIN_PARAMn hold, `attached` that its function is attached, `enabled` that its output is
enabled. `change` is the entry of a points change under way; `phase` is 1 from Park and 2 from Quiet, `changeAt` when it began. `level` is the pad
and `input` what the peripheral sees; `clean` counts clean checks of a faulted pin since `faultAt`; `strobe` is the tick a TURN_STROBE
asserted at while it is asserted, and `strobed` the turn of its last pulse. -/
structure Pin where
  cfg : PinEntry := {}
  attached : Bool := false
  enabled : Bool := false
  change : Option PinEntry := none
  phase : Nat := 0
  changeAt : Nat := 0
  level : Bool := false
  input : Bool := false
  fault : Bool := false
  clean : Nat := 0
  faultAt : Nat := 0
  strobe : Option Nat := none
  strobed : Option Nat := none
  deriving DecidableEq, Repr

/-- LAMP_STAT.RX (R471). -/
inductive LampRx
  | hunt | preamble | frame | blanked | tx
  deriving DecidableEq, Repr

def LampRx.code : LampRx → Nat
  | .hunt => 0 | .preamble => 1 | .frame => 2 | .blanked => 3 | .tx => 4

/-- A whole lamp frame from the technician (R470); `lastChip` is the local time of its last chip. -/
structure LampCmd where
  cmd : Nat
  tag : Nat
  payload : List Byte
  lastChip : Nat
  deriving DecidableEq, Repr

/-- A reply that waits to be sent: `ready` is when its payload was known, and it starts no earlier than `earliest`. -/
structure LampReply where
  cmd : Nat
  tag : Nat
  payload : List Byte
  ready : Nat
  earliest : Nat
  deriving DecidableEq, Repr

/-- The lamp codec (R468–R480), in local time. `pulses` counts the preamble's pulses; `grid` is in PREAMBLE the sum of what their edges say of the first pulse's
chip, and in FRAME the start of the first data chip; `symbols` are the symbols received and `bad` that one was wrong. `good` is a whole frame before its action
point; `serving` is the command being served, and `itemAt` when its item was committed on ring 0x0005. `txEnd` is the end of the reply being sent;
`dazzled` is a dazzle that came during it. `tracker` is LAMP_STAT.LEVEL. -/
structure Lamp where
  rx : LampRx := .hunt
  pulses : Nat := 0
  lastPulse : Nat := 0
  grid : Int := 0
  symbols : List Nat := []
  bad : Bool := false
  good : Option LampCmd := none
  serving : Option LampCmd := none
  itemAt : Option Nat := none
  replies : List LampReply := []
  txEnd : Nat := 0
  dazzled : Bool := false
  tracker : Nat := 0
  absent : Bool := false
  lastAbort : Nat := 0
  session : Option Nat := none
  nonce : Option (List Byte) := none
  nonceTill : Nat := 0
  sent : List Byte := []
  deriving DecidableEq, Repr

/-- The control complex (R433–R451). `sram` is the working SRAM, `run` the cores out of reset, `beats` when each core last wrote its heartbeat,
`noticed` the masters whose decode notice this turn has, `gpioSet` which halves of PIN_GPIO_OUT were written. `answer` is what the last control access returned, `console` what the console last
answered, and `mirrors` the image of the status page and I3C telemetry that Ohmax last published. `hand` is the draw of the hand-over block that the boot ROM wrote,
and `handed` lists its bytes that were written since. -/
structure Ctl where
  sram : List (Nat × Byte) := []
  run : Nat := 0
  beats : List Nat := List.replicate 4 0
  noticed : Nat := 0
  gpioSet : Nat := 0
  answer : List Byte := []
  console : List Byte := []
  mirrors : List Byte := []
  hand : Option Nat := none
  handed : List Nat := []
  deriving DecidableEq, Repr

/-- The TAP (R521, R527): the instruction in force by its row of the table, the boundary register as loaded, what it drives, and what was shifted out. -/
inductive TapIr
  | bypass | idcode | samplePreload | extest | clamp | highz | dapacc | aoacc
  deriving DecidableEq, Repr

structure Tap where
  ir : TapIr := .idcode
  boundary : List Bool := []
  driving : Option (List Bool) := none
  floating : Bool := false
  out : Word := 0
  deriving DecidableEq, Repr

/-- The I3C target (R564, R565): its dynamic address, whether in-band interrupts are enabled, the data byte of the last one, the map address, and what the
last transfer returned. `seen` is the state the last interrupt reported: wear notice, FLT_STAT.HIGHEST and SB_BOOTSTAT.CODE. -/
structure I3c where
  dyn : Option Nat := none
  events : Bool := false
  ibi : Nat := 0
  addr : Nat := 0
  out : List Byte := []
  seen : Nat × Nat × Nat := (0, 0, 0)
  deriving DecidableEq, Repr

/-- A slow sample of the last 7 days (R558): when, its interval in ticks, AF in 2⁻³², the mean TJ in 0.1 °C and the mean VDD_SENSED in mV. `asleep` marks
an interval in P3, whose AF is 0 and which has neither mean. -/
structure WearStress where
  taken : Nat
  span : Nat
  af : Nat
  tj : Int
  vdd : Nat
  asleep : Bool := false
  deriving DecidableEq, Repr

/-- A daily point of a criterion (R559): its value, and the effective age in ticks. -/
structure WearPoint where
  value : Int
  age : Nat
  deriving DecidableEq, Repr

/-- A prediction in days (R559): median, 10th and 90th percentile. -/
structure WearPred where
  median : Nat := 0xFFFF
  p10 : Nat := 0xFFFF
  p90 : Nat := 0xFFFF
  deriving DecidableEq, Repr

/-- The wear unit (R555–R567). `store` survives PORST_N: v₀ and the daily points by criterion, the effective age in ticks, the erases of each device and
the IMAGE_ID and SEQUENCE last recorded of each slot. `monitors` are the values last sampled, by their place in the I3C map; `holds` counts samples beyond a threshold by
(threshold, instance, side), and `met` those that raised their fault. `today` are the day's samples by criterion, `vddSum` and `vddN` the sum and number
of the fast samples of VDD_SENSED since the last slow one, which was at `slowAt`; `sampleAt` is the schedule's; `vals` are the criteria's values and units at the last slow
sample and `units` the units last seen, `fec` and `ecc` the counts there. `lost` says that the store is yet to be rebuilt or begun. -/
structure Wear where
  v0 : List (Option Int) := List.replicate 4 none
  points : List (List WearPoint) := List.replicate 4 []
  age : Nat := 0
  erases : List Nat := List.replicate 3 0
  slots : List (List Byte) := List.replicate 2 []
  flashDays : List (Nat × List Nat) := []
  stress : List WearStress := []
  today : List (List Int) := List.replicate 4 []
  dayAt : Nat := 0
  sampleAt : Nat := 0
  fastAt : Nat := 0
  cellMargins : List (List Int) := List.replicate 64 []
  monitors : List (Nat × Int) := []
  holds : List (Nat × Nat) := []
  met : List Nat := []
  vddSum : Nat := 0
  vddN : Nat := 0
  slowAt : Nat := 0
  vals : List (Option (Int × Nat)) := List.replicate 4 none
  units : List Nat := List.replicate 4 0
  fec : List Nat := List.replicate 24 0
  ecc : Nat := 0
  preds : List WearPred := List.replicate 4 {}
  eol : Option Nat := none
  crossed : Nat := 0
  inNotice : Nat := 0
  stale : Bool := false
  restored : Bool := false
  lost : Bool := true
  recNo : Nat := 0
  lastSample : List Byte := []
  lastPredict : List Byte := []
  deriving DecidableEq, Repr

end Sys2Proof.Machine
end

