-- ==== Sys2Proof/Machine/TypesPort.lean ====
section
/-! DEFINITION. The flex ports, the Ethernet ports, their queue pairs and the SPDM responder (15_host_and_memory_ports.md R387–R406). -/

namespace Sys2Proof.Machine

/-- A completion that a flex port returns to its host: 0 successful, 1 unsupported request, 2 request retry, 4 completer abort (R394, R63). -/
structure Cpl where
  status : Nat := 0
  poisoned : Bool := false
  data : List Byte := []
  deriving DecidableEq, Repr

/-- A flex port (R388–R398, R406). `link` is PORT_FXn_STAT.LINK and `ready` that its function answers configuration requests.
`mps` is the Max Payload Size set, `cfg` the configuration words written, `d3` that the function is in
D3hot, `msixCtl` MSI-X Message Control, `msix` the bytes of the MSI-X table
that differ from reset, `pba` the pending bits; `sent` lists the messages of the last step as (address, data) and `cpl` is the last completion. -/
structure FxPort where
  perst : Bool := true
  link : Nat := 0
  speed : Nat := 0
  width : Nat := 0
  ready : Bool := false
  setUp : Bool := false
  since : Nat := 0
  mps : Nat := 128
  cfg : List (Nat × Word) := []
  d3 : Bool := false
  msixCtl : Nat := 0
  msix : List (Nat × Byte) := []
  pba : Nat := 0
  sent : List (Nat × Nat) := []
  cpl : Cpl := {}
  deriving DecidableEq, Repr

/-- What an Ethernet port sends: an acknowledgement, a negative one (RNR with its timer code, invalid request, remote access error), a read
response, a SEND of the egress engine, or a congestion notification. -/
inductive EthOut
  | ack (qpn : Nat)
  | rnr (qpn timer : Nat)
  | invalid (qpn : Nat)
  | access (qpn : Nat)
  | resp (qpn : Nat) (data : List Byte)
  | send (qpn : Nat) (data : List Byte)
  | cnp (qpn : Nat)
  deriving DecidableEq, Repr

/-- A queue pair that is not as its plan entry leaves it (R400–R403): its expected and next PSN, whether it is in error, its rate in 2⁻²⁰ of
full rate, and the egress item taken: its SEQ and whether its SEND is outstanding. -/
structure QueuePair where
  port : Nat
  qpn : Nat
  epsn : Nat := 0
  spsn : Nat := 0
  error : Bool := false
  rate : Nat := 2 ^ 20
  item : Option (Nat × Bool) := none
  deriving DecidableEq, Repr

/-- An Ethernet port (R399–R404, R406). `stamp` is the last event message's timestamp, and `recovered` when rates last recovered. -/
structure EthPort where
  up : Bool := false
  ptpSeen : Bool := false
  ptpLocked : Bool := false
  stamp : Nat := 0
  recovered : Nat := 0
  sent : List EthOut := []
  deriving DecidableEq, Repr

/-- A measurement block (R517): its index, value type and value; a digest or raw bytes. -/
structure MeasBlock where
  index : Nat
  valueType : Nat
  digest : Bool
  value : List Byte
  deriving DecidableEq, Repr

/-- An SPDM response (R396, R516, R517). `signature` is the identity key's, a free value (log entry 25). -/
inductive SpdmResp
  | none
  | version
  | capabilities
  | algorithms
  | digests (slotMask : Nat) (digests : List (List Byte))
  | certificate (portion : List Byte) (remainder : Nat)
  | challengeAuth (slot : Nat) (chainDigest : List Byte) (nonce : Nat) (signature : Nat)
  | measurements (count : Nat) (blocks : List MeasBlock) (nonce : Nat) (signature : Option Nat)
  | error (unsupported : Bool)
  deriving DecidableEq, Repr

/-- A write of a port's host or network path that a closed island bounced (R492, R493, R495): the OFFSET, the bytes and when it first bounced. -/
structure PortWrite where
  path : Nat
  off : Nat
  data : List Byte
  since : Nat
  deriving DecidableEq, Repr

/-- The ports. `spdmVersion`, `spdmCaps` and `spdmAlgs` are how far the SPDM responder has negotiated, and `spdm` its last response. `wall` is PORT_WALL's pair of a tick and a TAI time, published at `wallAt` (R404). -/
structure Ports where
  fx : List FxPort := [{}, {}]
  eth : List EthPort := [{}, {}]
  qps : List QueuePair := []
  held : List PortWrite := []
  spdmVersion : Bool := false
  spdmCaps : Bool := false
  spdmAlgs : Bool := false
  spdm : SpdmResp := .none
  wallAt : Nat := 0
  wall : Nat × Nat := (0, 0)
  deriving DecidableEq, Repr

end Sys2Proof.Machine
end

