-- ==== Sys2Proof/Machine/TypesSec.lean ====
section
/-! DEFINITION. The security root's work, the debug session and the ledger's mirror (20_security_and_debug.md R509–R526; 18_service_pins_and_lamp_port.md R461). -/

namespace Sys2Proof.Machine

/-- A programming of fuses under way (R511, R514). -/
inductive ProgOp
  | keySlot (slot : Nat) (hash : List Byte)
  | revoke (mask : Nat)
  | kek (slot : Nat) (id wrap : List Byte)
  | floor (value : Nat)
  | lifecycle (target : Nat)
  deriving DecidableEq, Repr

/-- The debug access port (R518–R526). `free` marks a session without a time limit and `endAt` is when another one ends. `nonce` is the current
nonce, spent or expired when absent; `coreHalt` is DBG_CORE.HALT and `cores` are the halted cores. -/
structure Dbg where
  level : Nat := 0
  free : Bool := false
  endAt : Nat := 0
  permit : Nat := 0
  reason : Nat := 0
  nonce : Option (List Byte) := none
  nonceTill : Nat := 0
  coreHalt : Nat := 0
  cores : Nat := 0
  deriving DecidableEq, Repr

/-- The security root (R509–R528): the operations waiting for the fuses, and the amendment log L. -/
structure Sec where
  progs : List ProgOp := []
  log : List Byte := List.replicate 48 0
  dbg : Dbg := {}
  deriving DecidableEq, Repr

/-- The ledger's mirror on the XSPI2 device (R461): its contents (an unlisted byte is erased), its SFDP size in bytes (0 when it has none),
whether Ohmax keeps it, the slot written next and the sectors erased. -/
structure Mirror where
  data : List (Nat × Byte) := []
  size : Nat := 0
  on : Bool := false
  next : Nat := 0
  erases : Nat := 0
  deriving DecidableEq, Repr

end Sys2Proof.Machine
end

