-- ==== Sys2Proof/Machine/State.lean ====
section
/-! DEFINITION. The state of the package as plain data, the reasons a step can stop, and the state right after reset. -/

namespace Sys2Proof.Machine

/-- Everything of the package but its fuses and the queue of commands. -/
structure Chip where
  /-- Local ticks since the model began; never runs back (log entry 8). -/
  elapsed : Nat := 0
  /-- The model's own count of free values drawn (log entry 6). -/
  draws : Nat := 0
  /-- This package's number from ROUTES (R97). -/
  pkg : Nat := 0
  image : Option Image := none
  /-- The control registers that hold a value of their own; an unlisted one holds its reset value. -/
  regs : List (Nat × Word) := []
  isl : List Island := List.replicate 14 {}
  tt : Timetable := {}
  mem : Mem := {}
  rings : List (Nat × Ring) := []
  /-- REQs cancelled (R258, R303). -/
  cancelled : List Nat := []
  cells : List Cell := List.replicate 64 {}
  /-- Transfers and atomics outstanding (R181, R182), oldest first. -/
  xfers : List Xfer := []
  disp : Disp := {}
  net : Net := {}
  boot : Boot := {}
  seq : SeqEng := {}
  trn : List TrnCh := []
  col : ColEng := {}
  arms : List ArmRec := []
  flashA : Flash := {}
  flashB : Flash := {}
  flt : FltUnit := {}
  pwr : Power := {}
  sec : Sec := {}
  ports : Ports := {}
  amd : Amend := {}
  mirror : Mirror := {}
  pins : List Pin := List.replicate 48 {}
  lamp : Lamp := {}
  ctl : Ctl := {}
  tap : Tap := {}
  i3c : I3c := {}
  wear : Wear := {}
  signals : List Signal := []
  deriving DecidableEq, Repr

/-- Why a step stops with a fault: no meaning of this model does, so the type has no constructor. -/
inductive Fault where
  deriving DecidableEq, Repr

/-- Why a command is refused. -/
inductive Refusal where
  /-- A command that has no meaning yet, by its mnemonic; raised by `exec` alone. Safe. -/
  | notModelled (mnemonic : String)
  deriving DecidableEq, Repr

/-- The state of the block: the fuses, the rest of the package, and the queue of waiting commands, first in first out. -/
structure State where
  otp : Otp := {}
  chip : Chip := {}
  pending : List Instr := []
  deriving DecidableEq, Repr

/-- The fuses of the part that the model takes (log entry 2). -/
def resetOtp : Otp :=
  { deviceId := leBytes 16 1
    slots := { hash := List.replicate 48 1, programmed := true } :: List.replicate 15 {}
    keks := { kekId := leBytes 16 1, key := List.replicate 32 1, programmed := true } :: List.replicate 3 {}
    seed := List.replicate 48 1
    cert := [0x30]
    rollback := []
    idcode := 1 }

/-- The machine right after reset: before t0, with nothing queued. -/
def State.reset : State := { otp := resetOtp }

end Sys2Proof.Machine
end

