-- ==== Sys2Proof/Machine/Ops.lean ====
section
/-! DEFINITION. The named operations over the state that every family uses: registers, counters, time, islands, objects and signals. -/

namespace Sys2Proof.Machine

/-- A meaning that changes the package and leaves its fuses and the queue alone. -/
def State.act (s : State) (f : Otp → Chip → Chip) : Host.Outcome State Fault Refusal :=
  .next { s with chip := f s.otp s.chip }

/-! ### Control registers that hold a value -/

/-- The stored value of a register. -/
def Chip.reg (c : Chip) (a : Nat) : Nat := (storeGet c.regs a).toNat
/-- Store a register. -/
def Chip.setReg (c : Chip) (a v : Nat) : Chip := { c with regs := storePut c.regs a (BitVec.ofNat 32 v) }
/-- Field [hi:lo] of a stored register. -/
def Chip.regField (c : Chip) (a hi lo : Nat) : Nat := bitsOf (c.reg a) hi lo

/-- Put a value into field [hi:lo] of a number. -/
def putField (w hi lo v : Nat) : Nat :=
  w - bitsOf w hi lo * 2 ^ lo + v % 2 ^ (hi + 1 - lo) * 2 ^ lo

def Chip.setField (c : Chip) (a hi lo v : Nat) : Chip := c.setReg a (putField (c.reg a) hi lo v)
/-- Advance a saturating count held in field [hi:lo]. -/
def Chip.bumpField (c : Chip) (a hi lo d : Nat) : Chip :=
  c.setField a hi lo (satAdd (hi + 1 - lo) (c.regField a hi lo) d)
/-- Advance a saturating 32-bit count. -/
def Chip.bump (c : Chip) (a : Nat) : Chip := c.setReg a (satAdd 32 (c.reg a) 1)
def Chip.bumpBy (c : Chip) (a d : Nat) : Chip := c.setReg a (satAdd 32 (c.reg a) d)
/-- Advance a count that wraps at 32 bits. -/
def Chip.bumpWrap (c : Chip) (a : Nat) : Chip := c.setReg a (c.reg a + 1)

/-- A 64-bit value held in a register pair. -/
def Chip.reg64 (c : Chip) (lo : Nat) : Nat := c.reg lo + c.reg (lo + 4) * 2 ^ 32
def Chip.setReg64 (c : Chip) (lo v : Nat) : Chip := (c.setReg lo (v % 2 ^ 32)).setReg (lo + 4) (v / 2 ^ 32)

/-- The bytes of `n` consecutive registers, first register first (R9). -/
def Chip.regBytes (c : Chip) (a n : Nat) : List Byte := (List.range n).flatMap fun k => leBytes 4 (c.reg (a + 4 * k))
def Chip.setRegBytes (c : Chip) (a : Nat) (bs : List Byte) : Chip :=
  (List.range (ceilDiv bs.length 4)).foldl (fun c k => c.setReg (a + 4 * k) (leNat ((bs.drop (4 * k)).take 4))) c

/-! ### Time -/

/-- TT_TURN (R118, R137). -/
def Chip.turnPeriod (c : Chip) : Nat := c.reg64 rTT_TURN_LO
/-- The timetable's tick. -/
def Chip.now (c : Chip) : Nat := c.tt.counter
/-- Let local time pass (log entry 8). -/
def Chip.pass (c : Chip) (d : Nat) : Chip := { c with elapsed := c.elapsed + d, tt := c.tt.pass d }
/-- Let time pass up to an instant of local time; an instant already past leaves it. -/
def Chip.passTo (c : Chip) (deadline : Nat) : Chip := c.pass (deadline - c.elapsed)
/-- Let time pass until the timetable reaches a tick. -/
def Chip.reachTick (c : Chip) (tick : Nat) : Chip :=
  { c with elapsed := c.elapsed + c.tt.until tick, tt := c.tt.reach tick }

/-- Draw a free value (log entry 6). -/
def Chip.draw (c : Chip) : Nat × Chip := ((Config.freeWord c.draws).toNat, { c with draws := c.draws + 1 })

/-! ### Islands (R105) -/

def Chip.island (c : Chip) (n : Nat) : Island := c.isl.getD n {}
def Chip.setIsland (c : Chip) (n : Nat) (f : Island → Island) : Chip := { c with isl := setAt c.isl n f }
def Chip.islOpen (c : Chip) (n : Nat) : Bool := decide ((c.island n).st = .opened)

/-- The island of platform p, of cell n and of link l (R105, R22). -/
def platIsland (p : Nat) : Nat := p + 2
def cellPlat (n : Nat) : Nat := n / 8
def cellIsland (n : Nat) : Nat := n / 8 + 2
def linkIsland (l : Nat) : Nat := if l < 12 then 12 else 13

/-! ### Signals to the fault service -/

def Chip.signal (c : Chip) (s : Signal) : Chip := { c with signals := c.signals ++ [s] }
def Chip.raise (c : Chip) (d : Detected) : Chip := c.signal (.fault d)
/-- An S0 notice (R534 source 0x0D, R548 CAUSE 0x0040). The SUBCAUSE is the owning rule's number where no chapter names one (log entry 11). -/
def Chip.notice (c : Chip) (subcause arg : Nat) : Chip :=
  c.raise { sev := 0, source := 0x0D, cause := 0x40, subcause := subcause, arg := arg }

/-! ### The units of a departure -/

/-- The islands of the units that fire a scope (R127). -/
def scopeIslands (s : Nat) : List Nat :=
  if isIslandScope s then [s - 0x100]
  else if isCellScope s then [cellIsland (s - 0x200)]
  else if isPlatScope s then (maskList 8 (s % 256)).map platIsland
  else [1]

/-- The islands that a departure fires in: one of package scope whose action falls on the engines of I10 counts as fired there (R490). -/
def depIslands (d : Departure) : List Nat :=
  if scopeIslands d.scope = [1] ∧ d.action ∈ [0x0030, 0x0040, 0x0050, 0x0051] then [10] else scopeIslands d.scope

/-! ### The image and its objects -/

/-- A field of the running image; the default without one. -/
def Chip.im (c : Chip) : Image := c.image.getD {}
def Chip.objs (c : Chip) : List ObjEntry := c.im.objs
/-- The object at an OFFSET of this package. -/
def Chip.objAt (c : Chip) (off : Nat) : Option ObjEntry := resolveObj c.objs c.pkg off
/-- DEPOT of the object at an OFFSET (R214). -/
def Chip.depotMode (c : Chip) (off : Nat) : Nat := ((c.objAt off).map (·.depotMode)).getD 0

/-- Read bytes homed here: the bytes and whether they carry poison. -/
def Chip.memRead (c : Chip) (off n : Nat) : List Byte × Bool × Chip :=
  let r := c.mem.read (c.depotMode off) off n
  (r.1, r.2.1, { c with mem := r.2.2 })
/-- Write bytes homed here, as one write of its source (R224). -/
def Chip.memWrite (c : Chip) (off : Nat) (bs : List Byte) : Chip :=
  { c with mem := c.mem.write (c.depotMode off) off bs true }
/-- An engine's read goes through the depot as any other (R218, R225). -/
def Chip.touch (c : Chip) (off n : Nat) : Chip := { c with mem := c.mem.touchLines (c.depotMode off) off n false }
/-- Read bytes without disturbing the depot, for an engine's check of a record. -/
def Chip.peek (c : Chip) (off n : Nat) : List Byte := sread c.mem.bytes off n
def Chip.peekNat (c : Chip) (off n : Nat) : Nat := sreadNat c.mem.bytes off n

/-- Change an element at an index of a list of pairs keyed by number (default when absent), in key order. -/
def Chip.ring (c : Chip) (r : Nat) : Ring := sget {} c.rings r
def Chip.setRing (c : Chip) (r : Nat) (f : Ring → Ring) : Chip := { c with rings := sput {} c.rings r (f (c.ring r)) }

end Sys2Proof.Machine
end

