-- ==== Sys2Proof/Machine/Operands.lean ====
section
/-! DEFINITION. The operation word, its reserved encodings, and a thread's registers (06_cell_operations.md R167–R173, R188). -/

namespace Sys2Proof.Machine

/-! ### Fields of the operation word (R167) -/

def wOp (w : Nat) : Nat := bitsOf w 7 0
def wIb (w : Nat) : Bool := w.testBit 8
def wNw (w : Nat) : Bool := w.testBit 9
def wD (w : Nat) : Nat := bitsOf w 21 16
def wDk (w : Nat) : Nat := bitsOf w 23 22
def wA (w : Nat) : Nat := bitsOf w 29 24
def wAk (w : Nat) : Nat := bitsOf w 31 30
def wB (w : Nat) : Nat := bitsOf w 37 32
def wBk (w : Nat) : Nat := bitsOf w 39 38
def wC (w : Nat) : Nat := bitsOf w 45 40
def wCk (w : Nat) : Nat := bitsOf w 47 46
def wX (w : Nat) : Nat := bitsOf w 55 48
def wY (w : Nat) : Nat := bitsOf w 63 56
def wImm (w : Nat) : Nat := bitsOf w 127 64

/-- What an operation's encoding uses (R169, R172): the kinds of D, A, B and C (0 none, 1 scalar, 2 vector, 3 accumulator),
whether B may come from IMM, whether NW is used, and whether X, Y and IMM hold legal values. -/
structure OpForm where
  d : Nat := 0
  a : Nat := 0
  b : Nat := 0
  c : Nat := 0
  ib : Bool := false
  nw : Bool := false
  x : Bool := false
  y : Bool := false
  imm : Bool := false
  deriving DecidableEq, Repr

/-- The forms of R172 and the operation rules of R173–R191 and R591. The X, Y and IMM parts say whether this word's values are legal. -/
def opForm (w : Nat) : Option OpForm :=
  let x := wX w
  let y := wY w
  let imm := wImm w
  let x0 := x == 0
  let y0 := y == 0
  let i0 := imm == 0
  let s3 : OpForm := { d := 1, a := 1, b := 1, c := 1, x := x0, y := y0, imm := i0 }
  match wOp w with
  | 0x00 => some { x := x0, y := y0, imm := i0 }
  | 0x01 => some { x := x0, y := y0, imm := i0 }
  | 0x02 => some { d := 1, x := x0, y := y0, imm := true }
  | 0x03 => some { d := 1, a := 1, b := if wIb w then 0 else 1, ib := true, x := decide (x ≤ 0x0C), y := y0, imm := wIb w || i0 }
  | 0x04 => some { d := 1, a := 1, b := if wIb w then 0 else 1, ib := true, x := decide (x ≤ 5), y := y0, imm := wIb w || i0 }
  | 0x05 => some { a := if x = 0 then 0 else 1, x := decide (x ≤ 2), y := y0, imm := true }
  | 0x06 => some { d := 1, x := decide (x ≤ 1), y := y0, imm := true }
  | 0x07 => some { d := 1, x := decide (x ≤ 1), y := y0, imm := true }
  | 0x08 => some { d := 1, x := decide (x ≤ 15), y := y0, imm := i0 }
  | 0x09 => some { x := decide (x ≤ 15), y := y0, imm := i0 }
  | 0x0A => some { x := decide (x ≤ 2), y := y0, imm := i0 }
  | 0x0B => some { x := decide (x ≤ 3), y := y0, imm := true }
  | 0x10 => some { d := 1, a := 1, nw := true, x := x0, y := y0, imm := decide (1 ≤ imm) && decide (imm ≤ 64) }
  | 0x11 => some { a := 1, b := 1, x := true, y := true, imm := i0 }
  | 0x12 => some { s3 with b := 0, c := 0 }
  | 0x13 => some { s3 with c := 0, nw := true }
  | 0x14 => some { s3 with c := 0 }
  | 0x15 => some { s3 with b := 0, c := 0 }
  | 0x20 => some { s3 with x := decide (x ≤ 1), imm := decide (imm < 2 ^ 49) }
  | 0x21 => some { s3 with b := 0, c := 0 }
  | 0x22 => some { a := if x = 0 then 1 else 0, x := decide (x ≤ 1), y := y0, imm := i0 }
  | 0x23 => some { d := 1, x := decide (x ≤ 3), y := y0, imm := i0 }
  | 0x30 => some { d := 1, a := 1, x := x0, y := y0, imm := true }
  | 0x31 => some { a := 1, b := 1, x := x0, y := y0, imm := true }
  | 0x32 => some { d := 2, a := 1, x := x0, y := y0, imm := true }
  | 0x33 => some { a := 1, b := 2, x := x0, y := y0, imm := true }
  | 0x34 => some { s3 with d := 0, x := decide (x ≤ 15) }
  | 0x35 => some { s3 with d := 0, x := decide (x ≤ 15) }
  | 0x36 => some { d := if wDk w = 0 then 0 else 1, nw := true, x := x0, y := y0, imm := decide (imm < 2 ^ 16) }
  | 0x37 => some { s3 with x := decide (x ≤ 3) }
  | 0x40 => some { a := 1, b := 1
                   x := decide (x ≤ 15) && (decide (x < 8) || decide (y ≤ 3))
                   y := decide (1 ≤ y) && decide (y ≤ 9), imm := decide (imm < 2 ^ 32) }
  | 0x41 => some { d := 3, x := decide (x ≤ 3)
                   y := decide (y ≤ 63) && (!(x.testBit 1) || (y % 2 == 0 && y / 8 % 2 == 0)), imm := i0 }
  | 0x42 => some { d := 2, a := 3, x := x0 && wD w % 4 == 0, y := y0, imm := i0 }
  | 0x43 => some { d := 3, a := 2, x := x0 && wA w % 4 == 0, y := y0, imm := i0 }
  | 0x44 => some { a := 3, b := 1, c := 1, x := decide (x ≤ 9), y := y0, imm := decide (imm < 2 ^ 32) }
  | 0x50 => some { d := 2, a := 2, b := 2, x := decide (x ≤ 1), y := y0, imm := i0 }
  | 0x51 => some { d := 2, a := 2, b := 2, x := x0, y := y0, imm := i0 }
  | 0x52 => some { d := 2, a := 2, b := 2, c := 2, x := x0, y := y0, imm := i0 }
  | 0x53 => some { d := 2, a := 2, b := 2, x := x0, y := y0, imm := i0 }
  | 0x54 => some { d := 2, a := 2, b := 2, x := x0, y := y0, imm := i0 }
  | 0x55 => some { d := 2, a := 2, b := 2, x := decide (x ≤ 15) && x % 8 != 7, y := y0, imm := i0 }
  | 0x56 => some { d := 2, a := 2, b := 2, c := 2, x := x0, y := y0, imm := i0 }
  | 0x57 => some { d := 2, b := if wIb w then 0 else 1, ib := true, x := x0, y := y0, imm := wIb w || i0 }
  | 0x58 => some { d := 1, a := 2, x := decide (x ≤ 2), y := y0, imm := i0 }
  | 0x59 => some { d := 2, a := 2, x := decide (1 ≤ x) && decide (x ≤ 9), y := decide (y ≤ 1), imm := i0 }
  | 0x60 => some { d := 2, a := 2, x := decide (x ≤ 7), y := y0, imm := i0 }
  | 0x61 => some { d := 2, a := 1, b := 2, x := x0, y := y0, imm := i0 }
  | 0x62 => some { d := 2, c := 1, x := decide (x ≤ 1) && decide (wC w ≤ 29), y := y0, imm := i0 }
  | 0x63 => some { d := 2, a := 2, c := 1, x := decide (1 ≤ x) && decide (x ≤ 9) && decide (wC w ≤ 29), y := y0, imm := i0 }
  | _ => none

/-- A register field of a kind: the kind code and a number in its range (R168). -/
def fieldOk (want kind num : Nat) : Bool :=
  kind == want && (match want with
    | 0 => num == 0
    | 1 => decide (num < 32)
    | 3 => decide (num < 16)
    | _ => true)

/-- The word carries no reserved encoding (R169). -/
def encodingOk (w : Nat) : Bool :=
  match opForm w with
  | none => false
  | some f =>
    bitsOf w 15 10 == 0 && fieldOk f.d (wDk w) (wD w) && fieldOk f.a (wAk w) (wA w) &&
      fieldOk f.b (wBk w) (wB w) && fieldOk f.c (wCk w) (wC w) && (f.ib || !wIb w) && (f.nw || !wNw w) && f.x && f.y && f.imm

/-! ### Registers of a thread (R168, R170) -/

/-- s0 reads 0 (R168). -/
def Thread.sreg (t : Thread) (n : Nat) : Dword := if n = 0 then 0 else t.s.getD n 0
/-- A write to s0 is discarded (R168). -/
def Thread.setS (t : Thread) (n : Nat) (v : Dword) : Thread := if n = 0 then t else { t with s := t.s.set n v }
/-- Write consecutive scalar registers. -/
def Thread.setSs (t : Thread) (n : Nat) : List Dword → Thread
  | [] => t
  | v :: rest => (t.setS n v).setSs (n + 1) rest

def zeroVec : List Word := List.replicate 256 0
/-- A vector register; one not yet written holds +0 (R170). -/
def Thread.vreg (t : Thread) (n : Nat) : List Word :=
  let v := t.v.getD n []
  if v.isEmpty then zeroVec else v
/-- Write a register into a list, with empty places before it. -/
def putReg (l : List (List Word)) (n : Nat) (v : List Word) : List (List Word) :=
  (l ++ List.replicate (n + 1 - l.length) []).set n v
def Thread.setV (t : Thread) (n : Nat) (v : List Word) : Thread := { t with v := putReg t.v n v }
/-- An accumulator tile as 1,024 words, row by row. -/
def Thread.tile (t : Thread) (n : Nat) : List Word :=
  let v := t.acc.getD n []
  if v.isEmpty then List.replicate 1024 0 else v
def Thread.setTile (t : Thread) (n : Nat) (v : List Word) : Thread := { t with acc := putReg t.acc n v }

/-- Operand B: a scalar, or IMM with IB (R169). -/
def Thread.opB (t : Thread) (w : Nat) : Dword := if wIb w then BitVec.ofNat 64 (wImm w) else t.sreg (wB w)

/-- The next operation (R170). -/
def Thread.step (t : Thread) : Thread := { t with pc := t.pc + 16, st := .run }
/-- Branch by IMM × 16, signed (R172). -/
def Thread.jump (t : Thread) (w : Nat) : Thread :=
  { t with pc := (BitVec.ofInt 64 ((t.pc : Int) + signed 64 (wImm w) * 16)).toNat, st := .run }

/-! ### Status words and handles (R185, R188) -/

def statusWord (seq words handle status : Nat) : Dword :=
  BitVec.ofNat 64 (status % 256 + handle % 256 * 2 ^ 8 + words % 65536 * 2 ^ 16 + seq % 2 ^ 32 * 2 ^ 32)

/-- The handle a status word carries. -/
def handleOf (v : Dword) : Nat := bitsOf v.toNat 15 8

def freeHandle (l : List (Option Hold)) : Option Nat := (List.range 8).find? fun k => (l.getD k none).isNone

/-- The items a thread holds (R193). -/
def Thread.heldItems (t : Thread) : List (Nat × Nat) :=
  t.takes.filterMap fun h => h.map fun x => (x.ring, x.seq)

/-! ### Cells -/

def Chip.cell (c : Chip) (n : Nat) : Cell := c.cells.getD n {}
def Chip.setCell (c : Chip) (n : Nat) (f : Cell → Cell) : Chip := { c with cells := setAt c.cells n f }
def Chip.partAt (c : Chip) (n : Nat) : Option PartState := (c.cell n).ps
def Chip.setPart (c : Chip) (n : Nat) (f : PartState → PartState) : Chip :=
  c.setCell n fun x => { x with ps := x.ps.map f }
def Chip.thread? (c : Chip) (n t : Nat) : Option Thread := (c.partAt n).bind fun p => p.threads[t]?
def Chip.setThread (c : Chip) (n t : Nat) (f : Thread → Thread) : Chip :=
  c.setPart n fun p => { p with threads := setAt p.threads t f }

/-- Address of a register of a cell's window (R164, R194, R210). -/
def cellReg (r n : Nat) : Nat := r + n * 0x10000

/-- Bytes of the cell store and the poison of its 64-byte lines (R150, R152). -/
def PartState.load (p : PartState) (off n : Nat) : List Byte := sread p.store off n
def PartState.bad (p : PartState) (off n : Nat) : Bool := (unitsOf off n).any fun u => sget false p.poison u
def PartState.put (p : PartState) (off : Nat) (bs : List Byte) : PartState :=
  { p with
    store := swrite p.store off bs
    poison := (unitsOf off bs.length).foldl (fun m u =>
      if off ≤ u * 64 ∧ u * 64 + 64 ≤ off + bs.length then sput false m u false else m) p.poison }
def PartState.taint (p : PartState) (lines : List Nat) : PartState :=
  { p with poison := lines.foldl (fun m u => sput false m u true) p.poison }

/-- The 4 MiB of the cell store (R140). -/
def cellStoreBytes : Nat := 0x400000

/-! ### Exceptions (R193) -/

/-- Exception codes. -/
def excIllegal : Nat := 0x01
def excRegister : Nat := 0x02
def excBounds : Nat := 0x03
def excAlign : Nat := 0x04
def excAddr : Nat := 0x05
def excXfer : Nat := 0x06
def excFormat : Nat := 0x07
def excRing : Nat := 0x08
def excFptrap : Nat := 0x09
def excBarrier : Nat := 0x0A
def excPc : Nat := 0x0B
def excPoison : Nat := 0x0C
/-- POISON found by a load or a fill of the cell store: its source is the store's (R152, R534). -/
def excStorePoison : Nat := 0x10C
def excLoop : Nat := 0x0D

/-- S2 for ILLEGAL and PC, S1 for the rest (R193). -/
def excSeverity (code : Nat) : Nat := if code = excIllegal ∨ code = excPc then 2 else 1

/-- One thread takes a precise exception (R193, R194): it stops and its fault is raised. `sub` and `addr` fill the record (R548). -/
def Chip.except1 (c : Chip) (n t exc sub addr : Nat) : Chip :=
  match c.partAt n with
  | none => c
  | some p =>
    let code := exc % 256
    let pc := ((p.threads[t]?).map (·.pc)).getD 0
    let c := c.setThread n t fun x => { x with st := .stopped }
    let r := cellReg rCELL_EXC n
    let c := c.setReg r (satAdd 16 (c.regField r 15 0) 1 + t * 2 ^ 16 + code * 2 ^ 24)
    let c := c.setReg (cellReg rCELL_EXCPC n) pc
    let c := c.setReg (cellReg rCELL_EXCBLOB n) p.part.blob
    c.raise
      { sev := excSeverity code, source := 0x01 + exc / 256, cause := code, subcause := sub
        scope := if excSeverity code = 2 then .cell n else .task p.part.ring p.part.seq
        atCell := n, atThread := t, addr := addr, blob := p.part.blob, pc := pc }

/-- Threads of a part that may still reach a barrier (R184). -/
def PartState.live (p : PartState) : Nat := (p.threads.filter fun t => t.st != .ended && t.st != .stopped).length

/-- A barrier that too few live threads can release gives BARRIER to every thread that waits at it (R184). -/
def Chip.barCheck (c : Chip) (n : Nat) : Nat → Chip
  | 0 => c
  | fuel + 1 =>
    match c.partAt n with
    | none => c
    | some p =>
      match (List.range 4).find? fun k => match p.bars[k]? with
          | some b => !b.waiting.isEmpty && decide (p.live < b.need)
          | none => false with
      | none => c
      | some k =>
        let who := ((p.bars.getD k {}).waiting)
        let c := c.setPart n fun p => { p with bars := p.bars.set k {} }
        (who.foldl (fun c t => c.except1 n t excBarrier 0 0) c).barCheck n fuel

/-- Take a precise exception, and settle the barriers that counted on the thread. -/
def Chip.except (c : Chip) (n t code sub addr : Nat) : Chip := (c.except1 n t code sub addr).barCheck n 8

/-! ### Issue (R161, R169, R193) -/

/-- Whether the word names vector registers and tiles inside the allotment (R160). -/
def inAllotment (p : Part) (w : Nat) : Bool :=
  let span := fun (k num : Nat) (wide : Bool) =>
    if k = 2 then decide (num + (if wide then 4 else 1) ≤ p.vregs) else if k = 3 then decide (num < p.acc) else true
  span (wDk w) (wD w) (wOp w == 0x42) && span (wAk w) (wA w) (wOp w == 0x43) && span (wBk w) (wB w) false && span (wCk w) (wC w) false

/-- The length of a part's program in bytes. -/
def Chip.progLen (c : Chip) (blob : Nat) : Nat := ((c.im.blob? 1 blob).map (·.data.length)).getD 0

/-- A departure due by now has still to fire in an island: no thread of it works between two departures of one tick (R125). -/
def Chip.owesFiring (c : Chip) (isl : Nat) : Bool :=
  c.tt.deps.any fun d => (depIslands d).contains isl && match depTime c.tt c.turnPeriod d with
    | some t => decide (t ≤ c.tt.counter)
    | none => false

/-- A thread still holds an open reservation (R195): one of this package's rings that was neither committed nor voided, or one of another
package's ring, of which this package learns only by its RCOM. -/
def Chip.holdsOpen (c : Chip) (t : Thread) : Bool := t.resv.any fun h => match h with
  | none => false
  | some h => h.pkg != c.pkg || match (c.ring h.ring).items.find? (·.seq == h.seq) with
    | some i => i.st == .reserved
    | none => false

/-- The cell lets a thread issue: it runs, or it quiesces for a switch and the thread has still to commit a reservation (R195, R278; log entry 62). -/
def Chip.mayIssue (c : Chip) (cell : Nat) (t : Thread) : Bool :=
  let x := c.cell cell
  x.st == .run || (x.st == .switch && (match x.switch with | some w => w.phase == 0 | none => false) && c.holdsOpen t)

/-- A thread of a running cell issues a word. The command has no effect when the cell does not run, is halted or contained, its island
is not OPEN, the thread waits, or the word is another row's (log entry 10). -/
def Chip.issue (c : Chip) (cell thread : Nat) (word op : Nat) (k : PartState → Thread → Chip → Chip) : Chip :=
  let x := c.cell cell
  match x.ps with
  | none => c
  | some p =>
    match p.threads[thread]? with
    | none => c
    | some t =>
      if c.mayIssue cell t = false ∨ c.owesFiring (cellIsland cell) = true ∨ x.stoppedIssue ∨ p.halted ∨ (c.reg64 rDBG_HALTED_LO).testBit cell = true ∨ x.starting.isSome ∨ !c.islOpen (cellIsland cell) ∨ t.st ≠ .run ∨ wOp word ≠ op then c
      else if c.progLen p.part.blob ≤ t.pc then c.except cell thread excPc 0 0
      else if !encodingOk word then c.except cell thread excIllegal 0 0
      else if !inAllotment p.part word then c.except cell thread excRegister 0 0
      else k p t c

/-- An operation that only changes its thread. -/
def Chip.issueT (c : Chip) (cell thread word op : Nat) (f : PartState → Thread → Thread) : Chip :=
  c.issue cell thread word op fun p t c => c.setThread cell thread fun _ => (f p t).step

end Sys2Proof.Machine
end

