-- ==== Sys2Proof/Machine/Special.lean ====
section
/-! DEFINITION. The special-function unit, the rotary phase and the dice unit (05_cells.md R156–R159, R592). -/

namespace Sys2Proof.Machine

/-! ### Fixed-point evaluation, 256 fraction bits: it locates the exact value so that the error bound can be kept -/

def fxOne : Int := 2 ^ 256
def fxMul (a b : Int) : Int := Int.fdiv (a * b) fxOne
def fxDiv (a b : Int) : Int := Int.fdiv (a * fxOne) b

/-- An exact dyadic value in fixed point. -/
def fxOf (d : Dyadic) : Int := DyOp.floor (DyOp.scale d 256)

/-- Σ yⁿ/n!, by terms. -/
def fxExpTerms (y : Int) : Nat → Nat → Int → Int → Int
  | 0, _, _, acc => acc
  | k + 1, n, term, acc => fxExpTerms y k (n + 1) (Int.fdiv (fxMul term y) (n + 1)) (acc + term)

/-- exp y for |y| at most a few units. -/
def fxExp (y : Int) : Int := fxExpTerms y 120 0 fxOne 0

/-- Σ t^(2k+1)/(2k+1), by terms. -/
def fxAtanhTerms (t2 : Int) : Nat → Nat → Int → Int → Int
  | 0, _, _, acc => acc
  | k + 1, n, p, acc => fxAtanhTerms t2 k (n + 2) (fxMul p t2) (acc + Int.fdiv p n)

/-- atanh t for |t| ≤ 1/3. -/
def fxAtanh (t : Int) : Int := fxAtanhTerms (fxMul t t) 90 1 t 0
def fxLn2 : Int := 2 * fxAtanh (fxDiv 1 3)

/-- arctan (1/k), by terms of alternating sign. -/
def fxAtanInvTerms (k2 : Int) : Nat → Nat → Int → Int → Int
  | 0, _, _, acc => acc
  | k + 1, n, p, acc => fxAtanInvTerms k2 k (n + 2) (-(Int.fdiv p k2)) (acc + Int.fdiv p n)
def fxAtanInv (k : Int) : Int := fxAtanInvTerms (k * k) 120 1 (Int.fdiv fxOne k) 0
def fxPi : Int := 16 * fxAtanInv 5 - 4 * fxAtanInv 239

/-- Σ of a sine or cosine series, each term divided by two successive integers. -/
def fxTrigTerms (y2 : Int) : Nat → Nat → Int → Int → Int
  | 0, _, _, acc => acc
  | k + 1, n, term, acc =>
    fxTrigTerms y2 k (n + 2) (-(Int.fdiv (fxMul term y2) ((n + 1) * (n + 2)))) (acc + term)
def fxSin (y : Int) : Int := fxTrigTerms (fxMul y y) 60 1 y 0
def fxCos (y : Int) : Int := fxTrigTerms (fxMul y y) 60 0 fxOne 0

/-- exp y as a dyadic with full relative precision, for any fixed-point y. -/
def fxExpDy (y : Int) : Dyadic :=
  let n := Int.fdiv y fxLn2
  ⟨fxExp (y - n * fxLn2), n - 256⟩

/-- 2^x for an exact x. -/
def refExp2 (x : Dyadic) : Dyadic :=
  let n := DyOp.floor x
  let f := fxOf (DyOp.sub x ⟨n, 0⟩)
  ⟨fxExp (fxMul f fxLn2), n - 256⟩

/-- log₂ of a positive `m · 2^e`. -/
def refLog2 (m : Nat) (e : Int) : Dyadic :=
  let k := (bitLen m : Int) - 1
  let mant := fxOf ⟨m, -k⟩
  let l := 2 * fxAtanh (fxDiv (mant - fxOne) (mant + fxOne))
  DyOp.add ⟨k + e, 0⟩ ⟨fxDiv l fxLn2, -256⟩

/-- 1/|x|, at 300 bits of relative precision. -/
def refRecip (m : Nat) (e : Int) : Dyadic := ⟨(2 ^ 400 / m : Nat), -400 - e⟩

/-- 1/√x for a positive `m · 2^e`. -/
def refRsqrt (m : Nat) (e : Int) : Dyadic :=
  let m' := if e % 2 = 0 then m else m * 2
  let e' := if e % 2 = 0 then e else e - 1
  ⟨(Nat.sqrt (2 ^ 700 / m') : Nat), -350 - Int.fdiv e' 2⟩

/-- sin 2πr and cos 2πr of r in [0, 1), taken at r or r − 1. -/
def refTurn (cosine : Bool) (r : Dyadic) : Dyadic :=
  let r' := if DyOp.lt ⟨1, -1⟩ r then DyOp.sub r ⟨1, 0⟩ else r
  let y := 2 * fxMul fxPi (fxOf r')
  ⟨if cosine then fxCos y else fxSin y, -256⟩

/-- tanh |x|. -/
def refTanh (m : Nat) (e : Int) : Dyadic :=
  if DyOp.lt ⟨100, 0⟩ ⟨m, e⟩ then ⟨2 ^ 256 - 1, -256⟩
  else
    let z := fxOf (fxExpDy (-2 * fxOf ⟨m, e⟩))
    ⟨fxDiv (fxOne - z) (fxOne + z), -256⟩

/-- 0.5x(1 + tanh(0.797885(x + 0.044715x³))), its decimal constants exact (R156). -/
def refGelu (x : Dyadic) : Dyadic :=
  if DyOp.lt x ⟨-64, 0⟩ then ⟨-1, -4000⟩
  else if DyOp.lt ⟨64, 0⟩ x then x
  else
    let x3 := DyOp.mul x (DyOp.mul x x)
    let inner := Int.fdiv (fxOf x * 1000000 + fxOf x3 * 44715) 1000000
    let u2 := Int.fdiv (2 * inner * 797885) 1000000
    -- 0.5(1 + tanh u) = w / (1 + w) with w = exp 2u
    if 0 ≤ u2 then
      let z := fxOf (fxExpDy (-u2))
      DyOp.mul x ⟨fxDiv fxOne (fxOne + z), -256⟩
    else
      let w := fxExpDy u2
      DyOp.mul x ⟨fxDiv w.num (fxOne + fxOf w), w.exp⟩

/-! ### Results inside the bound -/

/-- The binary32 word of an order key, with the sign of a zero given. -/
def fpOfKey (negZero : Bool) (k : Int) : Word :=
  if k < 0 then BitVec.ofNat 32 (0x80000000 + k.natAbs)
  else if k = 0 then fpZero negZero else BitVec.ofNat 32 k.toNat

/-- One unit in the last place of binary32 at a value. -/
def ulpAt (d : Dyadic) : Dyadic :=
  ⟨1, if d.num = 0 then -149 else max (DyOp.log2Floor d - 23) (-149)⟩

/-- The finite words within `b` ulp of a value: the candidates a function of that bound may return. The zero for an exact
zero is +0 (log entry 87). -/
def ulpCandidates (b : Nat) (d : Dyadic) : List Word :=
  let near := fpRound d
  let nz := decide (d.num < 0)
  let k := fpCmpKey near.bits
  let lim := DyOp.mul ⟨b, 0⟩ (ulpAt d)
  ((List.range (2 * b + 3)).map (fun (i : Nat) => fpOfKey nz (k + (i : Int) - (b : Int) - 1))).filter fun w =>
    match fpDecode w with
    | .fin n m e => DyOp.le (DyOp.abs (DyOp.sub (fpVal n m e) d)) lim
    | _ => false

/-- The flags of a function's finite result against its exact value (R592): a tiny and inexact result sets UNDERFLOW, and so does a subnormal or
zero that is returned for an exact value that is not it. -/
def sfnFlags (d : Dyadic) (exactKnown : Bool) (w : Word) : FpFlags :=
  let r := roundTo fmtFp32 .nearest d.num.natAbs d.exp
  let same : Bool := match fpDecode w with
    | .fin n m e => exactKnown && DyOp.isEq (fpVal n m e) d
    | _ => false
  if (r.tiny || w.toNat / 2 ^ 23 % 256 == 0) && !same && d.num != 0 then fpUnderflow else 0

/-- A result within `b` ulp of the exact value, the part's own choice among them (R156). -/
def sfnUlp (code b : Nat) (x : Word) (d : Dyadic) (exactKnown : Bool) : FpRes :=
  let cs := ulpCandidates b d
  let w := cs.getD (Config.sfnPick code x % cs.length) (fpRound d).bits
  ⟨w, sfnFlags d exactKnown w⟩

/-- A result within 2⁻²² of the exact value, the part's own choice (R156). -/
def sfnAbs (code : Nat) (x : Word) (d : Dyadic) : FpRes :=
  let raw := BitVec.ofNat 32 (Config.sfnPick code x)
  let w := match fpDecode raw with
    | .fin n m e =>
      if DyOp.le (DyOp.abs (DyOp.sub (fpVal n m e) d)) ⟨1, -22⟩ then raw else (fpRound d).bits
    | _ => (fpRound d).bits
  ⟨w, sfnFlags d false w⟩

/-- sinr and cosr of a finite value, exact at the points R156 names. -/
def sfnTurn (cosine : Bool) (x : Word) (neg : Bool) (m : Nat) (e : Int) : FpRes :=
  let v := fpVal neg m e
  let r := DyOp.sub v ⟨DyOp.floor v, 0⟩
  let quarter (k : Nat) : Bool := DyOp.isEq r ⟨k, -2⟩
  if cosine then
    if quarter 0 then ⟨0x3F800000, 0⟩
    else if quarter 2 then ⟨0xBF800000, 0⟩
    else if quarter 1 || quarter 3 then ⟨fpZero false, 0⟩
    else sfnAbs 5 x (refTurn true r)
  else
    if quarter 0 || quarter 2 then ⟨fpZero neg, 0⟩
    else if quarter 1 then ⟨0x3F800000, 0⟩
    else if quarter 3 then ⟨0xBF800000, 0⟩
    else sfnAbs 4 x (refTurn false r)

/-- A special function of one lane: 0 exp2, 1 log2, 2 recip, 3 rsqrt, 4 sinr, 5 cosr, 6 tanh, 7 gelu_t (R156, R592, R591).
exp2 of minus infinity is exactly 0 and sets no flag (log entry 88). -/
def sfnLane (code : Nat) (x : Word) : FpRes :=
  match code, fpDecode x with
  | _, .nan => fpQuietNan
  | 0, .inf neg => ⟨if neg then fpZero false else fpInf false, 0⟩
  | 0, .fin neg m e =>
    let v := fpVal neg m e
    if DyOp.le ⟨128, 0⟩ v then ⟨fpInf false, fpOverflow⟩
    else if DyOp.le v ⟨-150, 0⟩ then ⟨fpZero false, fpUnderflow⟩
    else
      let whole : Bool := DyOp.isEq v ⟨DyOp.floor v, 0⟩
      sfnUlp 0 1 x (if whole then ⟨1, DyOp.floor v⟩ else refExp2 v) whole
  | 1, .inf neg => if neg then fpInvalidNan else ⟨fpInf false, 0⟩
  | 1, .fin neg m e =>
    if m = 0 then ⟨fpInf true, fpDivZero⟩
    else if neg then fpInvalidNan
    else
      let d := refLog2 m e
      let inner : Bool := DyOp.le ⟨1, -1⟩ ⟨m, e⟩ && DyOp.le ⟨m, e⟩ ⟨2, 0⟩
      if inner then sfnAbs 1 x d else sfnUlp 1 1 x d true
  | 2, .inf neg => ⟨fpZero neg, 0⟩
  | 2, .fin neg m e =>
    if m = 0 then ⟨fpInf neg, fpDivZero⟩
    else
      let d := refRecip m e
      if (fpRound d).flags &&& fpOverflow ≠ 0 then ⟨fpInf neg, fpOverflow⟩
      else sfnUlp 2 1 x (if neg then DyOp.neg d else d) true
  | 3, .inf neg => if neg then fpInvalidNan else ⟨fpZero false, 0⟩
  | 3, .fin neg m e =>
    if m = 0 then ⟨fpInf false, fpDivZero⟩
    else if neg then fpInvalidNan
    else sfnUlp 3 1 x (refRsqrt m e) true
  | 4, .inf _ => fpInvalidNan
  | 4, .fin neg m e => sfnTurn false x neg m e
  | 5, .inf _ => fpInvalidNan
  | 5, .fin neg m e => sfnTurn true x neg m e
  | 6, .inf neg => ⟨if neg then 0xBF800000 else 0x3F800000, 0⟩
  | 6, .fin neg m e =>
    let d := refTanh m e
    sfnUlp 6 2 x (if m = 0 then ⟨0, 0⟩ else if neg then DyOp.neg d else d) (decide (m = 0))
  | 7, .inf neg => ⟨if neg then fpZero true else fpInf false, 0⟩
  | 7, .fin neg m e => sfnUlp 7 4 x (if m = 0 then ⟨0, 0⟩ else refGelu (fpVal neg m e)) (decide (m = 0))
  | _, _ => fpQuietNan

/-- The rotary phase fraction of position p at frequency f, exact before its one rounding (R157). -/
def rophLane (p f : Word) : FpRes :=
  match fpDecode f with
  | .nan => fpQuietNan
  | .inf _ => fpInvalidNan
  | .fin neg m e =>
    let y := DyOp.mul ⟨p.toNat, 0⟩ (fpVal neg m e)
    fpRound (DyOp.sub y ⟨DyOp.floor y, 0⟩)

/-! ### The dice unit: Philox4x32-10 (R158, R159) -/

/-- A counter block: the key and the four counter words. -/
structure DiceBlock where
  k0 : Word
  k1 : Word
  c0 : Word
  c1 : Word
  c2 : Word
  c3 : Word
  deriving DecidableEq, Repr

/-- High and low halves of a 32 × 32 product. -/
def mulHiLo (a b : Word) : Word × Word :=
  let p := a.toNat * b.toNat
  (BitVec.ofNat 32 (p / 2 ^ 32), BitVec.ofNat 32 p)

def philoxRound (d : DiceBlock) : DiceBlock :=
  let p0 := mulHiLo 0xD2511F53 d.c0
  let p1 := mulHiLo 0xCD9E8D57 d.c2
  { k0 := d.k0 + 0x9E3779B9, k1 := d.k1 + 0xBB67AE85
    c0 := p1.1 ^^^ d.c1 ^^^ d.k0, c1 := p1.2, c2 := p0.1 ^^^ d.c3 ^^^ d.k1, c3 := p0.2 }

/-- Ten rounds; the words r0 to r3. -/
def philox (d : DiceBlock) : List Word :=
  let r := (List.range 10).foldl (fun d _ => philoxRound d) d
  [r.c0, r.c1, r.c2, r.c3]

/-- Word L of a draw: word L mod 4 of the block at c3 + ⌊L ÷ 4⌋, modulo 2³² (R158). -/
def diceWord (d : DiceBlock) (l : Nat) : Word :=
  (philox { d with c3 := d.c3 + BitVec.ofNat 32 (l / 4) }).getD (l % 4) 0

/-- The uniform conversion (r ≫ 8) × 2⁻²⁴ (R159). -/
def diceUniform (r : Word) : Word := (fpRound ⟨(r.toNat >>> 8 : Nat), -24⟩).bits

end Sys2Proof.Machine
end

