-- ==== Sys2Proof/Machine/Flags.lean ====
section
/-! DEFINITION. The arithmetic flags of a thread and of its cell (05_cells.md R149, R164; 06 R174), and the scalar operations' results (R173). -/

namespace Sys2Proof.Machine

/-- Set flags of a thread, and the cell's OR of them (R149). -/
def Chip.setFlags (c : Chip) (cell thread : Nat) (f : FpFlags) : Chip :=
  if f = 0 then c
  else
    let c := c.setThread cell thread fun t => { t with flags := t.flags ||| f }
    c.setReg (cellReg rCELL_FPFLAGS cell) (c.reg (cellReg rCELL_FPFLAGS cell) ||| f.toNat)

/-- The OR of a list of flags. -/
def orFlags (l : List FpFlags) : FpFlags := l.foldl (· ||| ·) 0

/-- SALU (R173): 64-bit wrapping arithmetic, shifts by bits [5:0] of B. -/
def salu (x : Nat) (a b : Dword) : Dword :=
  let sh := b.toNat % 64
  match x with
  | 0x00 => a + b
  | 0x01 => a - b
  | 0x02 => a * b
  | 0x03 => a &&& b
  | 0x04 => a ||| b
  | 0x05 => a ^^^ b
  | 0x06 => a <<< sh
  | 0x07 => a >>> sh
  | 0x08 => a.sshiftRight sh
  | 0x09 => if a.slt b then a else b
  | 0x0A => if a.slt b then b else a
  | 0x0B => if a.ult b then a else b
  | _ => if a.ult b then b else a

/-- SCMP conditions (R173). -/
def scmp (x : Nat) (a b : Dword) : Bool :=
  match x with
  | 0x00 => a == b
  | 0x01 => a != b
  | 0x02 => a.slt b
  | 0x03 => !a.slt b
  | 0x04 => a.ult b
  | _ => !a.ult b

/-- BR conditions (R173). -/
def brTaken (x : Nat) (a : Dword) : Bool :=
  match x with
  | 0x00 => true
  | 0x01 => a == 0
  | _ => a != 0

end Sys2Proof.Machine
end

