-- ==== Sys2Proof/Machine/RingOps.lean ====
section
/-! DEFINITION. The ring engine: reserve, commit, take, complete, flush, open and close (09_rings.md R238–R263). -/

namespace Sys2Proof.Machine

def idxMask : Nat := 2 ^ 32
/-- The distance from one free-running index to another (R238). -/
def idxDist (a b : Nat) : Nat := (b + idxMask - a) % idxMask

/-! ### Configuration (R263, R265) -/

def ringReg (r k : Nat) : Nat := rRING_CFG + r * 0x20 + k
def Chip.ringCfg (c : Chip) (r : Nat) : Nat := c.reg (ringReg r 0)
def Chip.ringK (c : Chip) (r : Nat) : Nat := bitsOf (c.ringCfg r) 4 0
def Chip.ringSize (c : Chip) (r : Nat) : Nat := 2 ^ c.ringK r
def Chip.ringProd (c : Chip) (r : Nat) : Nat := bitsOf (c.ringCfg r) 12 8
def Chip.ringCons (c : Chip) (r : Nat) : Nat := bitsOf (c.ringCfg r) 18 16
def Chip.ringMaxWords (c : Chip) (r : Nat) : Nat :=
  let m := bitsOf (c.ringCfg r) 29 24
  if m = 0 then 64 else m
def Chip.ringTailDb (c : Chip) (r : Nat) : Bool := (c.ringCfg r).testBit 22
def Chip.ringHold (c : Chip) (r : Nat) : Bool := (c.ringCfg r).testBit 21
def Chip.ringCompl (c : Chip) (r : Nat) : Nat := bitsOf (c.reg (ringReg r 8)) 29 16
def Chip.ringKey (c : Chip) (r : Nat) : Nat := bitsOf (c.reg (ringReg r 8)) 15 0
def Chip.ringAlertWords (c : Chip) (r : Nat) : Nat := bitsOf (c.reg (ringReg r 4)) 24 0

/-- The storage object of an image ring (R93). -/
def Chip.ringBase (c : Chip) (r : Nat) : Option Nat :=
  match c.im.rings.find? (fun e => e.ring == r) with
  | none => none
  | some e => (c.im.obj? e.obj).map (·.base)

/-- The free words of a ring (R238). -/
def Chip.ringFree (c : Chip) (r : Nat) : Nat :=
  let x := c.ring r
  c.ringSize r - idxDist x.free x.resv - x.promised

/-! ### Words (R238) -/

def sysKey (r slot : Nat) : Nat := (r * 65536 + slot) * 64

/-- The word of an index. -/
def Chip.ringWord (c : Chip) (r x : Nat) : List Byte :=
  let slot := x % c.ringSize r
  if r < 0x10 then sread c.mem.sysWords (sysKey r slot) 64
  else match c.ringBase r with
    | none => List.replicate 64 0
    | some b => c.peek (b + slot * 64) 64

/-- Store part of a word. -/
def Chip.setRingWord (c : Chip) (r x off : Nat) (bs : List Byte) : Chip :=
  let slot := x % c.ringSize r
  if r < 0x10 then { c with mem := { c.mem with sysWords := swrite c.mem.sysWords (sysKey r slot + off) bs } }
  else match c.ringBase r with
    | none => c
    | some b => { c with mem := c.mem.write (c.depotMode b) (b + slot * 64 + off) bs false }

/-- The bytes of `n` words from an index. -/
def Chip.ringWords (c : Chip) (r x n : Nat) : List Byte := (List.range n).flatMap fun k => c.ringWord r (x + k)

/-- Store whole words from an index. -/
def Chip.setRingWords (c : Chip) (r x : Nat) (bs : List Byte) : Chip :=
  (List.range (ceilDiv bs.length 64)).foldl (fun c k => c.setRingWord r (x + k) 0 ((bs.drop (64 * k)).take 64)) c

/-! ### The header (R239, R240, R243) -/

def hdrWords (h : List Byte) : Nat := fieldAt h 0 1
def hdrType (h : List Byte) : Nat := fieldAt h 1 1
def hdrMile (h : List Byte) : Nat := fieldAt h 2 2
def hdrSeq (h : List Byte) : Nat := fieldAt h 4 4
def hdrReq (h : List Byte) : Nat := fieldAt h 8 4
def hdrFlags (h : List Byte) : Nat := fieldAt h 12 2
def hdrSrc (h : List Byte) : Nat := fieldAt h 14 2

/-- The conditions of R243 on a header. -/
def hdrGood (h : List Byte) : Bool :=
  let t := hdrType h
  t != 0 && decide (hdrFlags h < 2) && !(decide (0x0C ≤ t) && decide (t ≤ 0x7F))

/-- SRC of a producer (R239, R241). -/
def srcOf (p : Party) : Nat :=
  match p with
  | .cell cell thread => cell * 64 + thread
  | .remote pkg _ _ => 0x4000 + pkg
  | .host => 0x1000
  | .network => 0x2000
  | _ => 0x3000

/-- SRC of an item on a ring. Ring 0x0000 takes nothing of other packages but relayed amendments, which count as a package engine's (R420). -/
def itemSrc (r : Nat) (p : Party) : Nat := match r, p with | 0, .remote _ _ _ => 0x3000 | _, p => srcOf p

/-- A header as a producer writes it: WORDS, TYPE, MILEPOST, REQ and FLAGS (R239). -/
def mkHeader (words typ mile req flags : Nat) : List Byte :=
  leBytes 1 words ++ leBytes 1 typ ++ leBytes 2 mile ++ leBytes 4 0 ++ leBytes 4 req ++ leBytes 2 flags ++ leBytes 2 0

/-! ### Indices -/

def setItem (items : List RItem) (seq : Nat) (f : RItem → RItem) : List RItem :=
  items.map fun i => if i.seq = seq then f i else i

def Ring.item? (x : Ring) (seq : Nat) : Option RItem := x.items.find? (·.seq == seq)

/-- FREE advances over every run of completed words that starts at it (R246). -/
def freeRun (free : Nat) : List RItem → Nat × List RItem
  | [] => (free, [])
  | i :: rest => if i.st = .done ∧ i.idx = free then freeRun ((free + i.words) % idxMask) rest else (free, i :: rest)

/-- The end of the contiguous run of committed and skip items from TAKE (R238). -/
def cmtRun (cmt : Nat) : List RItem → Nat
  | [] => cmt
  | i :: rest =>
    if i.idx ≠ cmt then cmtRun cmt rest
    else if i.st = .committed ∨ i.st = .skip then cmtRun ((cmt + i.words) % idxMask) rest
    else cmt

/-- TAKE passes the skip items it stands at, and their words are freed (R245). -/
def skipRun (take : Nat) : List RItem → Nat × List RItem
  | [] => (take, [])
  | i :: rest =>
    if i.idx = take ∧ i.st = .skip then
      let (t, r) := skipRun ((take + i.words) % idxMask) rest
      (t, { i with st := .done } :: r)
    else
      let (t, r) := skipRun take rest
      (t, i :: r)

/-- Bring CMT, TAKE and FREE up to date. -/
def Ring.norm (x : Ring) : Ring :=
  let s := skipRun x.take x.items
  let f := freeRun x.free s.2
  { x with take := s.1, free := f.1, items := f.2, cmt := cmtRun s.1 f.2 }

/-- ALERT (R251). -/
def Chip.ringAlert (c : Chip) (r : Nat) : Bool :=
  let x := c.ring r
  let w := c.ringAlertWords r
  decide (0 < w) && decide (w < idxDist x.take x.cmt)

/-- The first backlog of a turn logs the ring's notice (R251). -/
def Chip.alertCheck (c : Chip) (r : Nat) : Chip :=
  if c.ringAlert r && !(c.ring r).alerted then
    (c.setRing r fun x => { x with alerted := true }).notice 251 r
  else c

/-! ### Reserve, write, commit, void (R242–R245) -/

/-- Grant a reservation: the words from RESV and the ring's next sequence number. -/
def Chip.grant (c : Chip) (r n : Nat) (who : Party) : RItem × Chip :=
  let x := c.ring r
  let it : RItem := { idx := x.resv, words := n, seq := x.nextSeq, since := c.elapsed, producer := who }
  (it, c.setRing r fun x =>
    { x with resv := (x.resv + n) % idxMask, nextSeq := (x.nextSeq + 1) % idxMask, items := x.items ++ [it] })

/-- The item at which a consumer would take next. -/
def Ring.atTake (x : Ring) : Option RItem := x.items.find? fun i => i.idx == x.take && decide (i.st = .committed)

/-- Write the package fields and turn a reservation into a committed item (R239, R243). -/
def Chip.commitItem (c : Chip) (r seq : Nat) (hold : Bool) : Chip :=
  match (c.ring r).item? seq with
  | none => c
  | some i =>
    let c := c.setRingWord r i.idx 0 (leBytes 1 i.words)
    let c := c.setRingWord r i.idx 4 (leBytes 4 seq)
    let c := c.setRingWord r i.idx 14 (leBytes 2 (itemSrc r i.producer))
    let h := c.ringWord r i.idx
    let wasEmpty := (c.ring r).atTake.isNone
    let c := c.setRing r fun x => Ring.norm { x with
      items := setItem x.items seq fun i =>
        { i with st := if hold then .held else .committed, mile := hdrMile h, req := hdrReq h
                 typ := hdrType h, want := (hdrFlags h).testBit 0 } }
    let c := if wasEmpty && (c.ring r).atTake.isSome && c.ringCons r == 2 then c.signal (.hostRing r) else c
    c.alertCheck r

/-- A reservation's words become a skip item, and VOIDS advances (R244, R245). -/
def Chip.skipItem (c : Chip) (r seq : Nat) : Chip :=
  match (c.ring r).item? seq with
  | none => c
  | some i =>
    let c := c.setRingWord r i.idx 0 (leBytes 1 (min i.words 255) ++ leBytes 3 0 ++ leBytes 4 seq ++ leBytes 8 0)
    c.setRing r fun x => Ring.norm { x with
      items := setItem x.items seq fun i => { i with st := .skip }, voids := satAdd 16 x.voids 1 }

/-- Void a reservation (R244); CMT may pass what waited behind it, which can begin a backlog (R251). -/
def Chip.voidItem (c : Chip) (r seq : Nat) : Chip := (c.skipItem r seq).alertCheck r

/-- Reserve and commit one item in one step, as a package engine that PROD admits (R241). None when the ring refuses. -/
def Chip.enginePut (c : Chip) (r : Nat) (bytes : List Byte) : Option Chip :=
  let n := ceilDiv bytes.length 64
  let x := c.ring r
  if x.st ≠ .opened ∨ x.narrowed ∨ (c.ringProd r).testBit 4 = false ∨ c.ringFree r < n then none
  else
    let (it, c) := c.grant r n .engine
    some ((c.setRingWords r it.idx bytes).commitItem r it.seq false)

/-! ### Completion (R255–R257) -/

/-- The completion record of an item. -/
def Chip.complRecord (c : Chip) (r status detail : Nat) (i : RItem) : List Byte :=
  mkHeader 1 0x03 0 0 0 ++ leBytes 2 r ++ leBytes 1 status ++ leBytes 1 i.typ ++ leBytes 4 i.seq ++ leBytes 4 i.req ++
    leBytes 2 i.mile ++ leBytes 2 0 ++ leBytes 8 c.tt.counter ++ leBytes 8 c.tt.turnNum ++ leBytes 8 detail ++ leBytes 8 0

/-- An item needs a completion record (R255). -/
def Chip.wantsCompl (c : Chip) (r : Nat) (i : RItem) : Bool := i.want && c.ringCompl r != 0 && i.typ != 0x03

/-- The completion ring can promise one word (R257). -/
def Chip.canPromise (c : Chip) (r : Nat) (i : RItem) : Bool :=
  !c.wantsCompl r i ||
    (decide ((c.ring (c.ringCompl r)).st = .opened) && decide (1 ≤ c.ringFree (c.ringCompl r)))

/-- Hold a promise for an item that is taken. -/
def Chip.promise (c : Chip) (r : Nat) (i : RItem) : Chip :=
  if c.wantsCompl r i then c.setRing (c.ringCompl r) fun x => { x with promised := x.promised + 1 } else c

/-- Spend the promise: the record is reserved and committed in one step, whatever the ring's state. -/
def Chip.spend (c : Chip) (r status detail : Nat) (i : RItem) : Chip :=
  if c.wantsCompl r i then
    let cr := c.ringCompl r
    let rec' := c.complRecord r status detail i
    let c := c.setRing cr fun x => { x with promised := x.promised - 1 }
    let (it, c) := c.grant cr 1 .engine
    (c.setRingWords cr it.idx rec').commitItem cr it.seq false
  else c

/-- Complete a taken item: its record, then its words (R246, R255). -/
def Chip.completeItem (c : Chip) (r seq status detail : Nat) : Chip :=
  match (c.ring r).item? seq with
  | none => c
  | some i =>
    let c := c.spend r status detail i
    c.setRing r fun x => Ring.norm { x with items := setItem x.items seq fun i => { i with st := .done } }

/-- Discard an untaken item at once, with its completion when a word can be promised (R257, R258). The second part says that a record was lost. -/
def Chip.discard (c : Chip) (r status : Nat) (i : RItem) : Chip × Bool :=
  let ok := c.canPromise r i
  let c := if ok then (c.promise r i).spend r status 0 i else c
  let c := c.setRing r fun x => { x with
    items := setItem x.items i.seq fun i => { i with st := .skip }
    complLost := if ok then x.complLost else satAdd 16 x.complLost 1 }
  (c.setRing r Ring.norm, !ok)

/-- Discard the cancelled items that stand at TAKE, while a promise can be made (R258). -/
def Chip.dropCancelled (c : Chip) (r : Nat) : Nat → Chip
  | 0 => c
  | fuel + 1 =>
    match (c.ring r).atTake with
    | none => c
    | some i =>
      if i.req ≠ 0 ∧ i.req ∈ c.cancelled ∧ c.canPromise r i then ((c.discard r 0x02 i).1).dropCancelled r fuel
      else c

def Chip.clearHead (c : Chip) (r : Nat) : Chip := c.dropCancelled r ((c.ring r).items.length + 1)

/-- Take the item at TAKE, if its consumer may have it now (R246, R257). -/
def Chip.takeItem (c : Chip) (r : Nat) (who : Party) : Option (RItem × Chip) :=
  let c := c.clearHead r
  if (c.ring r).st ≠ .opened then none
  else match (c.ring r).atTake with
    | none => none
    | some i =>
      if i.req ≠ 0 ∧ i.req ∈ c.cancelled then none
      else if !c.canPromise r i then none
      else
        let c := c.promise r i
        some (i, c.setRing r fun x => Ring.norm { x with
          take := (x.take + i.words) % idxMask
          items := setItem x.items i.seq fun i => { i with st := .taken, holder := who } })

/-- Raise a taken item's milepost (R247). -/
def Chip.setMile (c : Chip) (r seq m : Nat) : Chip :=
  c.setRing r fun x => { x with items := setItem x.items seq fun i => { i with mile := max i.mile m } }

/-! ### Flush, open, close (R259–R262) -/

/-- Discard every committed item that has not been taken, with FLUSHED; one notice when a record was lost. -/
def Chip.discardAll (c : Chip) (r : Nat) : Chip :=
  let step := fun (a : Chip × Bool) (i : RItem) =>
    if i.st = .committed then let d := a.1.discard r 0x05 i; (d.1, a.2 || d.2) else a
  let res := (c.ring r).items.foldl step (c, false)
  if res.2 then res.1.notice 257 r else res.1

/-- Void every open reservation, held doorbells among them (R259, R260, R262). -/
def Chip.voidOpen (c : Chip) (r : Nat) : Chip :=
  (c.ring r).items.foldl (fun c i => if i.st = .reserved ∨ i.st = .held then c.skipItem r i.seq else c) c

/-- A cut flush (R260), or the end of a drain (R259). -/
def Chip.cutRing (c : Chip) (r : Nat) : Chip :=
  let c := (c.voidOpen r).discardAll r
  c.setRing r fun x => Ring.norm { x with
    st := .opened, drainSince := none, heldTail := none, take := x.resv, cmt := x.resv }

/-- A drain flush starts (R259, R261). -/
def Chip.drainRing (c : Chip) (r : Nat) : Chip :=
  if (c.ring r).st = .opened then c.setRing r fun x => { x with st := .flushing, drainSince := some c.elapsed } else c

/-- Something is open on a ring. -/
def Ring.hasOpen (x : Ring) : Bool := x.items.any fun i => decide (i.st = .reserved) || decide (i.st = .held)

/-- Open a ring with every index and count at 0 (R238, R262, R265). Words promised to items that are still taken from other rings stay
promised (R257). -/
def Chip.openRing (c : Chip) (r : Nat) : Chip :=
  c.setRing r fun x => { x with
    st := .opened, resv := 0, cmt := 0, take := 0, free := 0, nextSeq := 0, items := []
    heldTail := none, drainSince := none, narrowed := false, voids := 0, dbRefused := 0, complLost := 0, alerted := false }

/-- Reopen a ring with what it kept (R262). -/
def Chip.reopenRing (c : Chip) (r : Nat) : Chip := c.setRing r fun x => { x with st := .opened, narrowed := false }

/-- Close a ring (R262): reservations are voided; committed and taken items are kept; the waits end in their own commands. -/
def Chip.closeRing (c : Chip) (r : Nat) : Chip :=
  (c.voidOpen r).setRing r fun x => { x with st := .closed, drainSince := none, heldTail := none }

/-- Set up the system rings at hand-over (R66, R263): rings 0x0001–0x0005 open, ring 0x0000 configured and closed. -/
def Chip.setupSystemRings (c : Chip) : Chip :=
  let c := c.setReg (ringReg 0 0) (12 + 0x1C * 256 + 4 * 65536)
  [(1, 10), (2, 14), (3, 12), (4, 14), (5, 8)].foldl (fun c (e : Nat × Nat) =>
    (c.setReg (ringReg e.1 0) (e.2 + 0x10 * 256 + 4 * 65536)).openRing e.1) c

/-- Load an image ring's entry (R265). -/
def Chip.loadRing (c : Chip) (e : RingEntry) : Chip :=
  let c := c.setReg (ringReg e.ring 0) (fieldAt e.entry 0 4)
  let c := c.setReg (ringReg e.ring 4) (fieldAt e.entry 4 4)
  c.setReg (ringReg e.ring 8) (fieldAt e.entry 8 4)

/-! ### Doorbells (R252–R254) -/

def Chip.refuseDb (c : Chip) (r : Nat) : Chip :=
  (c.setRing r fun x => { x with dbRefused := satAdd 16 x.dbRefused 1 }).signal (.dbRefused r)

/-- The PROD bit of a port's class: bit 2 host, bit 3 network. -/
def dbClassOk (c : Chip) (r : Nat) (network : Bool) : Bool := (c.ringProd r).testBit (if network then 3 else 2)

/-- An item doorbell (R252): accepted when it answers true. -/
def Chip.itemDoorbell (c : Chip) (network : Bool) (w : List Byte) : Chip × Bool :=
  let r := fieldAt w 0 2
  if 0x3FFF < r then (c, false)
  else
    let item := w.drop 16
    let n := hdrWords item
    let who : Party := if network then .network else .host
    if dbClassOk c r network && !c.ringTailDb r && fieldAt w 2 2 == c.ringKey r && decide (1 ≤ n) &&
        decide (n ≤ c.ringMaxWords r) && w.length == 16 + 64 * n && decide ((c.ring r).st = .opened) &&
        !(c.ring r).narrowed && decide (n ≤ c.ringFree r) then
      let (it, c) := c.grant r n who
      let c := c.setRingWords r it.idx item
      let c := if hdrGood item then c.commitItem r it.seq (c.ringHold r) else c.voidItem r it.seq
      (c, true)
    else (c.refuseDb r, false)

/-- Walk the headers from RESV to TAIL (R253); a bad header turns the rest into one skip item. -/
def Chip.tailWalk (c : Chip) (r tail : Nat) (who : Party) : Nat → Chip
  | 0 => c
  | fuel + 1 =>
    let left := idxDist (c.ring r).resv tail
    if left = 0 then c
    else
      let h := c.ringWord r (c.ring r).resv
      let n := hdrWords h
      if 1 ≤ n ∧ n ≤ c.ringMaxWords r ∧ n ≤ left ∧ hdrGood h then
        let (it, c) := c.grant r n who
        (c.commitItem r it.seq false).tailWalk r tail who fuel
      else
        let (it, c) := c.grant r left who
        (c.voidItem r it.seq).notice 253 r

/-- A tail doorbell (R253, R254). -/
def Chip.tailDoorbell (c : Chip) (network : Bool) (w : List Byte) : Chip × Bool :=
  let r := fieldAt w 0 2
  if 0x3FFF < r then (c, false)
  else
    let x := c.ring r
    let tail := fieldAt w 4 4
    let room := c.ringSize r - idxDist x.free x.resv - x.promised
    let d := idxDist x.resv tail
    if dbClassOk c r network && c.ringTailDb r && fieldAt w 2 2 == c.ringKey r && decide (x.st = .opened) &&
        !x.narrowed && decide (1 ≤ d) && decide (d ≤ room) then
      if c.ringHold r then
        let ahead := match x.heldTail with | none => true | some t => decide (idxDist x.resv t < d)
        (if ahead then c.setRing r fun x => { x with heldTail := some tail } else c, true)
      else (c.tailWalk r tail (if network then .network else .host) (d + 1), true)
    else (c.refuseDb r, false)

/-- The DOORBELL action: commit everything held (R254). -/
def Chip.releaseHeld (c : Chip) (r : Nat) (who : Party) : Chip :=
  let wasEmpty := (c.ring r).atTake.isNone
  let c := (c.ring r).items.foldl (fun c i => if i.st = .held then
    (c.setRing r fun x => Ring.norm { x with items := setItem x.items i.seq fun i => { i with st := .committed } }) else c) c
  let c := match (c.ring r).heldTail with
    | none => c
    | some t => (c.setRing r fun x => { x with heldTail := none }).tailWalk r t who (idxDist (c.ring r).resv t + 1)
  let c := if wasEmpty && (c.ring r).atTake.isSome && c.ringCons r == 2 then c.signal (.hostRing r) else c
  c.alertCheck r

/-- HELD of RING_STATE (R254). -/
def Ring.anyHeld (x : Ring) : Bool := x.heldTail.isSome || x.items.any fun i => decide (i.st = .held)

end Sys2Proof.Machine
end

