-- ==== Sys2Proof/Machine/Transfers.lean ====
section
/-! DEFINITION. Cell-store accesses, the touch log, and transfers and atomics with what waits for them
(06_cell_operations.md R181–R184, R189, R192; 08_memory_tiers.md R217, R222–R226). -/

namespace Sys2Proof.Machine

/-! ### The cell store (R150, R152, R181) -/

/-- Whether `[off, off + n)` lies in the cell store. -/
def inStore (off n : Nat) : Bool := decide (off + n ≤ cellStoreBytes)

/-- What a read of the cell store meets in its ECC (R152): 0 nothing, 1 an error corrected, 2 an uncorrectable error in one line. -/
def Chip.storeEcc (c : Chip) (n obs line : Nat) : Chip :=
  let r := cellReg rCELL_ECC n
  match obs with
  | 0 => c
  | 1 => c.bumpField r 31 16 1
  | _ =>
    let c := (c.bumpField r 15 0 1).setReg (cellReg rCELL_ECCADDR n) (line * 64)
    c.setPart n fun p => p.taint [line]

/-- The line of a list that an ECC observation names. -/
def pickLine (lines : List Nat) (k : Nat) : Nat := lines.getD (k % max lines.length 1) 0

/-- A thread's read of the cell store: BOUNDS, ALIGN or POISON, or its bytes (R152, R181). -/
def Chip.storeRead (c : Chip) (cell thread off n align obs line : Nat) (k : List Byte → Chip → Chip) : Chip :=
  if !inStore off n then c.except cell thread excBounds 0 off
  else if off % align ≠ 0 then c.except cell thread excAlign 0 off
  else
    let c := c.storeEcc cell obs (pickLine (unitsOf off n) line)
    match c.partAt cell with
    | none => c
    | some p => if p.bad off n then c.except cell thread excStorePoison 0 off else k (p.load off n) c

/-- A thread's write of the cell store. -/
def Chip.storeWrite (c : Chip) (cell thread off align : Nat) (bs : List Byte) : Chip :=
  if !inStore off bs.length then c.except cell thread excBounds 0 off
  else if off % align ≠ 0 then c.except cell thread excAlign 0 off
  else (c.setPart cell fun p => p.put off bs).setThread cell thread Thread.step

/-- The 256 lanes of 1,024 bytes, and back (R9). -/
def lanesOf (bs : List Byte) : List Word :=
  (List.range (bs.length / 4)).map fun k => BitVec.ofNat 32 (leNat ((bs.drop (4 * k)).take 4))
def bytesOfLanes (v : List Word) : List Byte := v.flatMap fun w => leBytes 4 w.toNat

/-! ### The touch log (R222) -/

/-- OFFSETs of ring storage objects are never logged. -/
def Chip.isRingStorage (c : Chip) (off : Nat) : Bool :=
  match c.objAt off with
  | none => false
  | some o => c.im.rings.any fun e => e.obj == o.id

/-- Put one wagon's mask into the log against an item; an entry that finds 4,096 others overflows. -/
def PartState.logTouch (p : PartState) (ring seq wagon mask : Nat) : PartState :=
  if p.touch.any fun e => e.ring == ring && e.seq == seq && e.wagon == wagon then
    { p with touch := p.touch.map fun e =>
        if e.ring = ring ∧ e.seq = seq ∧ e.wagon = wagon then { e with mask := e.mask ||| mask } else e }
  else if 4096 ≤ p.touch.length then
    { p with
      overflow := if (ring, seq, wagon) ∈ p.overflow then p.overflow else p.overflow ++ [(ring, seq, wagon)]
      spilled := (p.spilled ++ (ring, seq) :: p.threads.flatMap Thread.heldItems).eraseDups }
  else { p with touch := p.touch ++ [⟨ring, seq, wagon, mask⟩] }

/-- Log the pages of `[addr, addr + n)` of the global address space against every item a thread holds (R222). -/
def Chip.logTouches (c : Chip) (cell thread addr n : Nat) : Chip :=
  match c.thread? cell thread with
  | none => c
  | some t =>
    if addrPkg addr = c.pkg ∧ c.isRingStorage (addrOff addr) then c
    else
      (t.heldItems).foldl (fun c (h : Nat × Nat) =>
        (pagesOf addr n).foldl (fun c pg => c.setPart cell fun p => p.logTouch h.1 h.2 (pg / 16) (2 ^ (pg % 16))) c) c

/-- Free the entries of an item that is complete (R222). -/
def PartState.freeTouches (p : PartState) (ring seq : Nat) : PartState :=
  { p with
    touch := p.touch.filter fun e => !(e.ring == ring && e.seq == seq)
    overflow := p.overflow.filter fun e => !(e.1 == ring && e.2.1 == seq)
    spilled := p.spilled.filter fun e => !(e.1 == ring && e.2 == seq) }

/-! ### Issue of transfers (R181, R211, R212) -/

/-- Whether a global address range is good at issue (R181). -/
def Chip.addrGood (c : Chip) (a n : Nat) : Bool :=
  addrSpace a == 0 && decide (addrPkg a ≤ 2319) && inObject c.objs (addrPkg a) (addrOff a) n

/-- A thread's transfers that are outstanding. -/
def Chip.xfersOf (c : Chip) (cell thread : Nat) : List Xfer :=
  c.xfers.filter fun x => x.cell == cell && x.thread == thread

def Chip.tagBusy (c : Chip) (cell thread tag : Nat) : Bool := (c.xfersOf cell thread).any fun x => x.tag == tag

/-- The mask of tags still busy. -/
def Chip.busyMask (c : Chip) (cell thread : Nat) : Nat :=
  maskOf (((c.xfersOf cell thread).map (·.tag)).filter (· < 16))

/-- Start a transfer; one for another package leaves as a request (R231, R352). -/
def Chip.startXfer (c : Chip) (x : Xfer) : Chip :=
  if addrPkg x.addr = c.pkg then { c with xfers := c.xfers ++ [x] }
  else
    let kind := match x.kind with
      | .get => RemoteKind.read x.len
      | .put => .write x.data
      | .atom op b d => .atomic op b d
    ({ c with xfers := c.xfers ++ [{ x with st := .away }] }).signal
      (.remote { pkg := addrPkg x.addr, cell := x.cell, thread := x.thread, tag := x.tag, addr := x.addr, kind := kind })

/-! ### What waits for a thread's transfers (R181, R183, R189, R192) -/

/-- END's own effect once its transfers are complete: a failed transfer that no XWAIT met gives XFER, a held reservation or item gives RING
and voids the reservations, else the thread ends. The end of its part follows in `finish`. -/
def Chip.endThread (c : Chip) (cell thread : Nat) (finish : Chip → Chip) : Chip :=
  match c.thread? cell thread with
  | none => c
  | some t =>
    if t.failed ≠ 0 then c.except cell thread excXfer t.failCause 0
    else if t.resv.any Option.isSome || t.takes.any Option.isSome then
      let c := t.resv.foldl (fun c h => match h with
        | none => c
        | some h =>
          if h.pkg ≠ c.pkg then c
          else match (c.ring h.ring).item? h.seq with
            | some i => if i.st = .reserved ∧ i.producer = .cell cell thread then c.voidItem h.ring h.seq else c
            | none => c) c
      (c.setThread cell thread fun t => { t with resv := List.replicate 8 none }).except cell thread excRing 0 0
    else
      let c := c.setThread cell thread fun t => { t with st := .ended }
      finish (c.barCheck cell 8)

/-- XWAIT's end: XFER if a tag waited for failed, else the next operation. -/
def Chip.endWait (c : Chip) (cell thread mask : Nat) : Chip :=
  match c.thread? cell thread with
  | none => c
  | some t =>
    if t.failed &&& mask ≠ 0 then
      (c.setThread cell thread fun t => { t with failed := t.failed - (t.failed &&& mask) }).except cell thread excXfer t.failCause 0
    else c.setThread cell thread Thread.step

/-- A thread looks at its transfers again after one of them ended. -/
def Chip.recheck (c : Chip) (cell thread : Nat) (finish : Chip → Chip) : Chip :=
  match c.thread? cell thread with
  | none => c
  | some t =>
    match t.st with
    | .waitTagFree tag => if c.tagBusy cell thread tag then c else c.setThread cell thread fun t => { t with st := .run }
    | .waitTags mask => if c.busyMask cell thread &&& mask ≠ 0 then c else c.endWait cell thread mask
    | .waitFence => if (c.xfersOf cell thread).isEmpty then c.setThread cell thread Thread.step else c
    | .waitEnd => if (c.xfersOf cell thread).isEmpty then c.endThread cell thread finish else c
    | _ => c

/-! ### Performing a transfer (R217, R223–R231) -/

/-- What a read of this package's memory meets in one 64-byte unit (R226, R398): 1 an error corrected, 2 an uncorrectable error,
3 a CXL response that carries poison. -/
def Mem.readEcc (m : Mem) (obs off : Nat) : Mem :=
  match obs with
  | 0 => m
  | 1 => { m with eccCorr := satAdd 16 m.eccCorr 1 }
  | 2 => { m with eccUncorr := satAdd 16 m.eccUncorr 1, poison := sput false m.poison (off / 64) true, poisonAddr := some (off / 64 * 64) }
  | _ => { m with poison := sput false m.poison (off / 64) true, poisonAddr := some (off / 64 * 64) }

/-- Why a read of a range fails, if it does: 3 UNBACKED (R217), 2 UNCERTAIN (R223). -/
def Mem.readFails (m : Mem) (off n : Nat) : Option Nat :=
  if m.anyUnbacked off n then some 3 else if m.anyUncertain off n then some 2 else none

/-- A read of `[off, off + n)` by a transfer: its failure, or its bytes and its poisoned units. -/
def Chip.homeRead (c : Chip) (off n : Nat) : (Nat ⊕ (List Byte × List Nat)) × Chip :=
  match c.mem.readFails off n with
  | some e => (.inl e, c)
  | none =>
    let r := c.memRead off n
    (.inr (r.1, c.mem.badUnits off n), r.2.2)

/-- A write of `[off, off + n)`, with the poison its source carried (R152, R226): its failure, if it has one. -/
def Chip.homeWrite (c : Chip) (off : Nat) (bs : List Byte) (bad : List Nat) : Option Nat × Chip :=
  let lost := c.mem.anyUnbacked off bs.length
  let c := c.memWrite off bs
  let c : Chip := { c with mem := bad.foldl (fun m k =>
    if (m.wagon ((off + 64 * k) / wagonBytes)).loc = .unbacked then m
    else { m with poison := sput false m.poison (off / 64 + k) true }) c.mem }
  (if lost then some 3 else none, c)

/-- The new value of an atomic (R182). -/
def atomNew (op : Nat) (old b d : Nat) : Nat :=
  match op with
  | 0 => (old + b) % 2 ^ 64
  | 1 => b
  | 2 => if old = d then b else old
  | _ => max old b

/-- What an atomic at its home slice answers: 7 for a poisoned unit, another failure of R548, or the old value (R182, R230). -/
def Chip.homeAtomic (c : Chip) (off op b d : Nat) : (Nat ⊕ Nat) × Chip :=
  match c.mem.readFails off 8 with
  | some e => (.inl e, c)
  | none =>
    if !(c.mem.badUnits (off / 64 * 64) 64).isEmpty then (.inl 7, { c with mem := c.mem.notePoison (off / 64 * 64) 64 })
    else
      let old := c.peekNat off 8
      let mode := c.depotMode off
      (.inr old, { c with mem := c.mem.write mode off (leBytes 8 (atomNew op old b d)) false })

/-- Take a transfer off the list. -/
def Chip.dropXfer (c : Chip) (x : Xfer) : Chip :=
  { c with xfers := c.xfers.filter fun y => !(y.cell == x.cell && y.thread == x.thread && y.tag == x.tag) }

/-- A transfer failed: its tag, or its atomic's thread, learns it (R181, R182). -/
def Chip.failXfer (c : Chip) (x : Xfer) (sub : Nat) : Chip :=
  let c := c.dropXfer x
  match x.kind with
  | .atom _ _ _ =>
    if sub = 0x17 then c.except x.cell x.thread excPoison 0 x.addr else c.except x.cell x.thread excXfer sub x.addr
  | _ => c.setThread x.cell x.thread fun t =>
      { t with failed := t.failed ||| 2 ^ x.tag, failCause := if t.failed = 0 then sub else t.failCause }

/-- An XGET's data reach the cell store, poison with them (R226). -/
def Chip.deliverGet (c : Chip) (x : Xfer) (bs : List Byte) (bad : List Nat) : Chip :=
  (c.dropXfer x).setPart x.cell fun p => (p.put x.off bs).taint (bad.map fun k => x.off / 64 + k)

/-- An XATOM's old value reaches its thread. -/
def Chip.deliverAtom (c : Chip) (x : Xfer) (old : Nat) : Chip :=
  (c.dropXfer x).setThread x.cell x.thread fun t => (t.setS x.dreg (BitVec.ofNat 64 old)).step

/-- A wagon of the range has its frame on a port's sidings. -/
def Mem.onPort (m : Mem) (port off n : Nat) : Bool := (wagonsOf off n).any fun w => decide ((m.wagon w).loc = .sidings port)

/-- A transfer to a flex port whose class-C procedure runs and that was asked for since: it is held at its origin (R425). -/
def Chip.portHolds (c : Chip) (x : Xfer) : Bool :=
  decide (x.st = .here) && c.amd.procs.any fun p => p.scope / 256 == 3 && decide (p.since ≤ x.since) && c.mem.onPort (p.scope % 256) (addrOff x.addr) x.len

/-- Every request to a flex port that was outstanding at a tick has completed (R425). -/
def Chip.portQuiet (c : Chip) (port since : Nat) : Bool :=
  !c.xfers.any fun x => decide (x.st = .here) && decide (x.since < since) && c.mem.onPort port (addrOff x.addr) x.len

/-- Perform a transfer at this package's memory, or finish one that another package answered. `obs` and `line` say what the read
met in its ECC. -/
def Chip.finishXfer (c : Chip) (x : Xfer) (obs line : Nat) : Chip :=
  let off := addrOff x.addr
  match x.st with
  | .away => c
  | .failed sub => c.failXfer x sub
  | .answered data bad =>
    match x.kind with
    | .get => c.deliverGet x data bad
    | .put => c.dropXfer x
    | .atom _ _ _ => c.deliverAtom x (leNat data)
  | .here =>
    let unit := off / 64 * 64 + 64 * (line % max (ceilDiv x.len 64) 1)
    match x.kind with
    | .get =>
      let c : Chip := if (c.mem.readFails off x.len).isNone then { c with mem := c.mem.readEcc obs unit } else c
      match c.homeRead off x.len with
      | (.inl e, c) => c.failXfer x e
      | (.inr (bs, bad), c) => c.deliverGet x bs bad
    | .put =>
      match c.homeWrite off x.data x.bad with
      | (some e, c) => c.failXfer x e
      | (none, c) => c.dropXfer x
    | .atom op b d =>
      let c : Chip := if (c.mem.readFails off 8).isNone then { c with mem := c.mem.readEcc obs (off / 64 * 64) } else c
      match c.homeAtomic off op b d with
      | (.inl e, c) => c.failXfer x (if e = 7 then 0x17 else e)
      | (.inr old, c) => c.deliverAtom x old

end Sys2Proof.Machine
end

