-- ==== Sys2Proof/Machine/DispatchOps.lean ====
section
/-! DEFINITION. The dispatcher: the task check, eligibility, starts, switches, weight sets and the end of a part
(10_dispatch_and_switching.md R268–R286). -/

namespace Sys2Proof.Machine

/-! ### The task item (R268, R269) -/

/-- What the check of an item gives: a task, NO_BUCKET, or a failure. -/
inductive TaskCheck
  | good (t : Task)
  | noBucket
  | bad
  deriving DecidableEq, Repr

/-- The set a WSET_ID is known with differs from what an item says (R269). -/
def Chip.wsetClash (c : Chip) (id src dst bytes : Nat) : Bool :=
  c.disp.wsets.any fun w => w.id == id && w.id != 0 && !(w.src == src && w.dst == dst && w.bytes == bytes)

/-- Check a task item of a ring (R269), and choose its bucket (R208, R209). -/
def Chip.checkTask (c : Chip) (ring : Nat) (isStatic : Bool) (b : List Byte) : TaskCheck :=
  let program := fieldAt b 16 4
  let entry := fieldAt b 20 4
  let set := fieldAt b 24 2
  let prio := fieldAt b 26 1
  let flags := fieldAt b 27 1
  let len := fieldAt b 28 4
  let threads := fieldAt b 32 1
  let v := fieldAt b 33 1
  let acc := fieldAt b 34 1
  let q := fieldAt b 35 1
  let mask := fieldAt b 36 8
  let wb := fieldAt b 44 4
  let ws := fieldAt b 48 8
  let wd := fieldAt b 56 4
  let wid := fieldAt b 60 2
  let shape := hdrWords b == 2 && hdrType b == 1 && decide (prio ≤ 7) && decide (flags < 16) && bitsOf flags 3 2 != 3 &&
    decide (1 ≤ threads) && decide (threads ≤ 64) && (v == 8 || v == 16 || v == 32 || v == 64) && decide (acc ≤ 16) &&
    decide (1 ≤ q) && decide (q ≤ 64) && fieldAt b 62 2 == 0 && decide (threads * v ≤ 1024) && decide (threads * acc ≤ 16) &&
    ((program == 0xFFFFFFFF) != (set == 0xFFFF)) && entry % 16 == 0 &&
    (if isStatic then popCount 64 mask == q else mask == 0)
  let wset := wid == 0 ||
    (decide (134217728 ≤ wb) && decide (wb ≤ 3489660928) && wb % 65536 == 0 &&
      (match c.im.obj? wd with
        | some o => o.heldBy c.pkg && decide (wb ≤ o.size)
        | none => false) && !c.wsetClash wid ws wd wb)
  let task := fun (blob : Nat) =>
    if c.progLen blob ≤ entry then TaskCheck.bad
    else .good
      { ring := ring, seq := hdrSeq b, isStatic := isStatic, cellMask := mask, blob := blob, entry := entry, length := len, prio := prio
        flags := flags, threads := threads, vregs := v, acc := acc, q := q, wset := wid, wsetBytes := wb, wsetSrc := ws
        wsetDst := wd, mile := hdrMile b, args := (List.range 8).map fun k => fieldAt b (64 + 8 * k) 8 }
  if !(shape && wset) then .bad
  else if set = 0xFFFF then task program
  else
    match bucketPick ((c.im.buckets.filter fun e => e.set == set).map fun e => (e.length, e.loopId)) len with
    | none => .noBucket
    | some e =>
      match c.im.loops.find? (fun l => l.id == e.2) with
      | none => .bad
      | some l => task l.program

/-- The image rings whose consumer is the dispatcher. -/
def Chip.dispRings (c : Chip) : List Nat := ((c.im.rings.map (·.ring)).filter fun r => c.ringCons r == 1)
def Chip.ringStatic (c : Chip) (r : Nat) : Bool := c.im.rings.any fun e => e.ring == r && e.isStatic

/-! ### Tasks -/

def Disp.task? (d : Disp) (ring seq : Nat) : Option Task := d.tasks.find? fun t => t.ring == ring && t.seq == seq
def Disp.setTask (d : Disp) (ring seq : Nat) (f : Task → Task) : Disp :=
  { d with tasks := d.tasks.map fun t => if t.ring = ring ∧ t.seq = seq then f t else t }
def Disp.dropTask (d : Disp) (ring seq : Nat) : Disp :=
  { d with tasks := d.tasks.filter fun t => !(t.ring == ring && t.seq == seq) }
def Chip.setDisp (c : Chip) (f : Disp → Disp) : Chip := { c with disp := f c.disp }

/-- A task of a ring whose parts are not all placed keeps the ring's place (R270). -/
def Disp.current (d : Disp) (r : Nat) : Bool := d.tasks.any fun t => t.ring == r && !t.posted && decide (t.next < t.q)

/-- Look at the item at TAKE of a ring: one that fails leaves with its fault, one without a bucket completes (R269, R209). -/
def Chip.clearTaskHead (c : Chip) (r : Nat) : Nat → Chip
  | 0 => c
  | fuel + 1 =>
    if c.disp.current r then c
    else
      let c := c.clearHead r
      match (c.ring r).atTake with
      | none => c
      | some i =>
        match c.checkTask r (c.ringStatic r) (c.ringWords r i.idx i.words) with
        | .good _ => c
        | .noBucket =>
          match c.takeItem r .dispatcher with
          | none => c
          | some (i, c) => (c.completeItem r i.seq 0x03 0).clearTaskHead r fuel
        | .bad =>
          match c.takeItem r .dispatcher with
          | none => c
          | some (i, c) =>
            (c.raise { sev := 1, source := 0x03, cause := 0x20, scope := .item r i.seq }).clearTaskHead r fuel

/-- Every ring's head. -/
def Chip.clearTaskHeads (c : Chip) : Chip :=
  c.dispRings.foldl (fun c r => c.clearTaskHead r ((c.ring r).items.length + 1)) c

/-- The task at TAKE of a ring, not taken yet. -/
def Chip.headTask (c : Chip) (r : Nat) : Option Task :=
  if c.disp.current r ∨ (c.ring r).st ≠ .opened then none
  else match (c.ring r).atTake with
    | none => none
    | some i =>
      match c.checkTask r (c.ringStatic r) (c.ringWords r i.idx i.words) with
      | .good t => some { t with seq := i.seq }
      | _ => none

/-! ### Placement (R271, R276) -/

/-- The cell that CELL_MASK gives to a part. -/
def staticCell (mask p : Nat) : Option Nat := (maskList 64 mask)[p]?

/-- The role of a platform in force (R92, R308). -/
def Chip.role (c : Chip) (plat : Nat) : Nat := c.disp.roles.getD plat 0

/-- A quarantined cell, or one of a quarantined island (R542). -/
def Chip.quarantined (c : Chip) (n : Nat) : Bool :=
  (if n < 32 then (c.reg rFLT_QUAR_LO).testBit n else (c.reg rFLT_QUAR_HI).testBit (n - 32)) ||
    (c.reg rFLT_QUARISL).testBit (cellIsland n)

/-- A platform of a role admits a task's ROLE (R271). -/
def roleAdmits (plat task : Nat) : Bool := plat == task || plat == 2 || task == 2

/-- A cell is eligible for part p of a task. -/
def Chip.eligible (c : Chip) (t : Task) (p n : Nat) : Bool :=
  c.islOpen (cellIsland n) && !(c.island (cellIsland n)).prepare && roleAdmits (c.role (cellPlat n)) t.role && t.cells.testBit n &&
    (!t.isStatic || staticCell t.cellMask p == some n) && !(cellPlat n ∈ c.disp.narrowed) && !c.quarantined n

/-- A cell in state IDLE that no handling holds. -/
def Chip.isIdle (c : Chip) (n : Nat) : Bool :=
  let x := c.cell n
  decide (x.st = .idle) && !x.stoppedIssue && !x.draining && x.ps.isNone

def Chip.minRun (c : Chip) : Nat := c.regField rDSP_CFG 15 0 * tUs
def Chip.preemptEn (c : Chip) : Bool := (c.reg rDSP_CFG).testBit 16

/-- Save frames in use, those of saves under way with them (R277, R285). -/
def Chip.framesUsed (c : Chip) : Nat :=
  (c.disp.saved.filter (·.pool)).length +
    (c.cells.filter fun x => match x.switch with | some w => decide (w.phase ≤ 1) && !w.forClose | none => false).length

/-- The part that a task may pre-empt: the lowest priority, then the highest cell (R276). -/
def Chip.victim (c : Chip) (t : Task) (p : Nat) : Option Nat :=
  ((List.range 64).foldl (fun (a : Option (Nat × Nat)) n =>
    let x := c.cell n
    match x.ps with
    | none => a
    | some ps =>
      if x.st = .run ∧ x.starting = none ∧ x.switch = none ∧ !x.stoppedIssue ∧ c.eligible t p n ∧ ps.part.prio < t.prio ∧ !ps.halted ∧
          !ps.part.flags.testBit 1 ∧ ps.part.startedAt + c.minRun ≤ c.elapsed then
        match a with
        | none => some (ps.part.prio, n)
        | some (q, _) => if ps.part.prio ≤ q then some (ps.part.prio, n) else a
      else a) none).map (·.2)

/-- How a candidate's part can be placed: an IDLE cell, or a part to pre-empt. -/
inductive Place
  | idle (cell : Nat)
  | preempt (cell : Nat)
  deriving DecidableEq, Repr

def Chip.placeOf (c : Chip) (t : Task) (p : Nat) : Option Place :=
  match (List.range 64).find? fun n => c.isIdle n && c.eligible t p n with
  | some n => some (.idle n)
  | none =>
    if t.preempt && c.preemptEn && decide (c.framesUsed < 128) && !(c.disp.blocked.any fun e => e.1 == t.ring && e.2.1 == t.seq) then
      (c.victim t p).map .preempt
    else none

/-! ### Weight sets (R281–R283) -/

def Disp.wset? (d : Disp) (id : Nat) : Option Nat := (List.range 16).find? fun k => (d.wsets.getD k {}).id == id
def Chip.wsetReady (c : Chip) (t : Task) : Bool :=
  t.wset == 0 || c.disp.wsets.any fun w => w.id == t.wset && decide (w.st = .resident)

/-- The sets that a queued, saved or running task names. -/
def Chip.namedSets (c : Chip) : List Nat :=
  (c.disp.tasks.map (·.wset)) ++
    c.dispRings.flatMap fun r => ((c.ring r).items.filter fun i => decide (i.st = .committed)).map fun i =>
      fieldAt (c.ringWords r i.idx 1) 60 2

/-- The least recently used RESIDENT set that nothing names. -/
def Chip.dropSet (c : Chip) : Option Nat :=
  ((List.range 16).foldl (fun (a : Option (Nat × Nat)) k =>
    let w := c.disp.wsets.getD k {}
    if w.st = .resident ∧ w.id ≠ 0 ∧ w.id ∉ c.namedSets then
      match a with
      | none => some (w.lastUse, k)
      | some (u, _) => if w.lastUse < u then some (w.lastUse, k) else a
    else a) none).map (·.2)

/-- Start the stream that a task needs, if it is not under way (R281); DSP_HEAVY counts it. -/
def Chip.wantSet (c : Chip) (t : Task) : Chip :=
  if t.wset = 0 then c
  else
    let w : Wset :=
      { id := t.wset, st := .streaming, src := t.wsetSrc, dst := t.wsetDst, bytes := t.wsetBytes, since := c.elapsed, lastUse := c.elapsed }
    let fill := fun (k : Nat) => (c.setDisp fun d => { d with wsets := d.wsets.set k w }).bumpWrap rDSP_HEAVY
    match c.disp.wset? t.wset with
    | some k => if (c.disp.wsets.getD k {}).st = .absent then fill k else c
    | none =>
      match (List.range 16).find? fun k =>
          let w := c.disp.wsets.getD k {}
          w.id == 0 || (decide (w.st = .absent) && !(w.id ∈ c.namedSets)) with
      | some k => fill k
      | none =>
        match c.dropSet with
        | some k => fill k
        | none => c

def Chip.useSet (c : Chip) (t : Task) : Chip :=
  c.setDisp fun d => { d with wsets := d.wsets.map fun w => if w.id = t.wset ∧ t.wset ≠ 0 then { w with lastUse := c.elapsed } else w }

/-! ### Starting and loading parts (R272, R273, R278) -/

/-- The part descriptor of part p of a task. -/
def Task.part (t : Task) (p now : Nat) : Part :=
  { ring := t.ring, seq := t.seq, p := p, q := t.q, blob := t.blob, threads := t.threads, vregs := t.vregs, acc := t.acc
    prio := t.prio, flags := t.flags, startedAt := now }

/-- The start registers of thread i (R273). -/
def startRegs (c : Chip) (t : Task) (p cell i : Nat) : List Dword :=
  let v := [0, c.pkg, cell, p, t.q, i, t.length, t.mile] ++ t.args
  (v ++ List.replicate (32 - v.length) 0).map (BitVec.ofNat 64)

/-- A part as a cold start leaves it (R272). -/
def Chip.freshPart (c : Chip) (t : Task) (p cell : Nat) : PartState :=
  { part := t.part p c.elapsed, cell := cell
    threads := (List.range t.threads).map fun i => { pc := t.entry, s := startRegs c t p cell i } }

/-- Items and waits of a part follow it to another cell: SRC, the holder and the queues name the cell it runs on. -/
def Chip.rebindThread (c : Chip) (old new i : Nat) (t : Thread) : Chip :=
  let c := t.resv.foldl (fun c h => match h with
    | none => c
    | some h => if h.pkg ≠ c.pkg then c else c.setRing h.ring fun x => { x with
        items := setItem x.items h.seq fun it => if it.producer = .cell old i then { it with producer := .cell new i } else it }) c
  let c := t.takes.foldl (fun c h => match h with
    | none => c
    | some h => c.setRing h.ring fun x => { x with
        items := setItem x.items h.seq fun it => if it.holder = .cell old i then { it with holder := .cell new i } else it }) c
  match t.st with
  | .waitRes r => c.setRing r fun x => { x with waitRes := x.waitRes ++ [{ who := .cell new i, words := wImm t.word }] }
  | .waitTake r => c.setRing r fun x => { x with waitTake := x.waitTake ++ [{ cell := new, thread := i }] }
  | _ => c

/-- Take a cell's threads out of every ring's queue. -/
def Chip.unqueue (c : Chip) (n : Nat) : Chip :=
  { c with rings := (c.rings.map fun (e : Nat × Ring) => (e.1, { e.2 with
      waitRes := e.2.waitRes.filter fun w => match w.who with | .cell k _ => k != n | _ => true
      waitTake := e.2.waitTake.filter fun w => w.cell != n })).filter fun e => e.2 ≠ {} }

/-- Restore a saved part to a cell bit for bit (R147, R278, R280). -/
def Chip.loadPart (c : Chip) (n : Nat) (ps : PartState) : Chip :=
  let c := c.setCell n fun x => { x with
    st := .run, switch := none
    ps := some { ps with cell := n, resume := none, leftOpen := none, part := { ps.part with startedAt := c.elapsed } } }
  (List.range ps.threads.length).foldl (fun c i => match ps.threads[i]? with
    | some t => c.rebindThread ps.cell n i t
    | none => c) c

def PartState.isPart (ps : PartState) (k : Nat × Nat × Nat) : Bool := ps.part.ring == k.1 && ps.part.seq == k.2.1 && ps.part.p == k.2.2
def Disp.savedPart? (d : Disp) (k : Nat × Nat × Nat) : Option PartState := d.saved.find? fun ps => ps.isPart k
def Disp.setSaved (d : Disp) (k : Nat × Nat × Nat) (f : PartState → PartState) : Disp :=
  { d with saved := d.saved.map fun ps => if ps.isPart k then f ps else ps }
def Disp.dropSaved (d : Disp) (k : Nat × Nat × Nat) : Disp := { d with saved := d.saved.filter fun ps => !ps.isPart k }

/-- Whether what is to come onto a cell still exists. -/
def Chip.incomingOk (c : Chip) (w : Switch) : Bool :=
  match w.incoming with
  | none => true
  | some k => if w.resumed then (c.disp.savedPart? k).isSome else (c.disp.task? k.1 k.2.1).isSome

/-- Give back what a switch had claimed (R279): the saved part waits again, or the task's part is still to be placed. -/
def Chip.unclaim (c : Chip) (w : Switch) : Chip :=
  match w.incoming with
  | none => c
  | some k =>
    if w.resumed then c.setDisp fun d => d.setSaved k fun ps => { ps with resume := none }
    else c.setDisp fun d => d.setTask k.1 k.2.1 fun t => { t with claiming := false, next := min t.next k.2.2 }

/-- Nothing holds up the save of a cell's part (R195, R278): no transfer, ring request, two-phase arming or open reservation. -/
def Chip.quiet (c : Chip) (n : Nat) : Bool :=
  !(c.xfers.any fun x => x.cell == n) &&
    match c.partAt n with
    | none => true
    | some p => p.threads.all fun t => !(t.st == .waitRemote || t.st == .waitArm) && !c.holdsOpen t

/-- Start a switch on a running cell. -/
def Chip.beginSwitch (c : Chip) (n : Nat) (incoming : Option (Nat × Nat × Nat)) (resumed forClose : Bool) : Chip :=
  c.setCell n fun x => { x with
    st := .switch
    switch := some { phase := 0, since := c.elapsed, began := c.elapsed, incoming := incoming, resumed := resumed
                     light := incoming.isSome, forClose := forClose } }

/-- The outgoing part goes to a save frame and joins the resume queue (R277, R284). -/
def Chip.savePart (c : Chip) (n : Nat) (forClose : Bool) : Chip :=
  match c.partAt n with
  | none => c
  | some ps =>
    let ps := { ps with cell := n, savedAt := c.elapsed, resume := none, pool := !forClose || decide (c.framesUsed < 128)
                        leftOpen := if forClose then some c.elapsed else none }
    let c := c.unqueue n
    (c.setCell n Cell.vacate).setDisp fun d => { d with saved := d.saved ++ [ps] }

/-- Save every part of a platform before it closes (R284). A part that is still starting or loading is saved as it would have started. -/
def Chip.saveCellForClose (c : Chip) (n : Nat) : Chip :=
  let x := c.cell n
  match x.switch with
  | some w =>
    if w.phase ≤ 1 then
      (c.unclaim w).setCell n fun x => { x with switch := some { w with incoming := none, light := false, forClose := true } }
    else
      let c := match w.incoming with
        | none => c
        | some k =>
          if w.resumed then c.setDisp fun d => d.setSaved k fun ps => { ps with resume := none, leftOpen := some c.elapsed }
          else match c.disp.task? k.1 k.2.1 with
            | none => c
            | some t => c.setDisp fun d => { d with saved := d.saved ++
                [{ c.freshPart t k.2.2 n with savedAt := c.elapsed, leftOpen := some c.elapsed, pool := decide (c.framesUsed < 128) }] }
      c.setCell n fun x => { x with st := .idle, switch := none }
  | none =>
    match x.ps with
    | none => c
    | some ps =>
      if x.starting.isSome then
        let c := match c.disp.task? ps.part.ring ps.part.seq with
          | none => c
          | some t => c.setDisp fun d => { d with saved := d.saved ++
              [{ c.freshPart t ps.part.p n with savedAt := c.elapsed, leftOpen := some c.elapsed, pool := decide (c.framesUsed < 128) }] }
        c.setCell n fun x => { x.vacate with st := .idle, starting := none }
      else if x.st = .run then c.beginSwitch n none false true
      else c

def Chip.saveForClose (c : Chip) (plat : Nat) : Chip :=
  (List.range 8).foldl (fun c k => c.saveCellForClose (8 * plat + k)) c

/-- Something of a platform is still being saved. -/
def Chip.savingPlat (c : Chip) (plat : Nat) : Bool :=
  (List.range 8).any fun k => (c.cell (8 * plat + k)).switch.isSome || (c.cell (8 * plat + k)).ps.isSome

/-! ### The end of a part (R274) -/

/-- Status of a task item's completion: CANCELLED when its request was (R258). -/
def Chip.doneStatus (c : Chip) (ring seq : Nat) : Nat :=
  match (c.ring ring).item? seq with
  | some i => if i.req ≠ 0 ∧ i.req ∈ c.cancelled then 0x02 else 0x00
  | none => 0x00

/-- The last thread of a part has ended: the cell is IDLE, and after the last part the task item is completed. -/
def Chip.partEnd (c : Chip) (n : Nat) : Chip :=
  match c.partAt n with
  | none => c
  | some p =>
    if !(p.threads.all fun t => t.st == .ended) || (c.cell n).starting.isSome then c
    else
      let c := c.setCell n fun x => { x.vacate with st := if x.switch.isSome then x.st else .idle }
      match c.disp.task? p.part.ring p.part.seq with
      | none => c
      | some t =>
        if t.ended + 1 < t.q then c.setDisp fun d => d.setTask t.ring t.seq fun t => { t with ended := t.ended + 1 }
        else
          let c := c.setDisp fun d => d.dropTask t.ring t.seq
          if t.posted then c else c.completeItem t.ring t.seq (c.doneStatus t.ring t.seq) 0

end Sys2Proof.Machine
end

