-- ==== Sys2Proof/Machine/CellRingOps.lean ====
section
/-! DEFINITION. What the ring operations of cells share: references, statuses, handles and grants (06_cell_operations.md R185–R189; 09_rings.md R242–R247). -/

namespace Sys2Proof.Machine

def stOk : Nat := 0x00
def stEmpty : Nat := 0x01
def stFull : Nat := 0x02
def stClosed : Nat := 0x03
def stVoid : Nat := 0x04
def stDenied : Nat := 0x05
def stBadsize : Nat := 0x06
def stCancelled : Nat := 0x08

def refRemote (v : Nat) : Bool := v.testBit 31
def refPkg (v : Nat) : Nat := bitsOf v 27 16
def refRing (v : Nat) : Nat := bitsOf v 13 0
/-- The forms of a reference that are not DENIED (R237). -/
def refOk (v : Nat) : Bool :=
  bitsOf v 63 32 == 0 && bitsOf v 30 28 == 0 && bitsOf v 15 14 == 0 && (refRemote v || refPkg v == 0) && decide (refPkg v ≤ 2319)
/-- A reference served by another package. -/
def Chip.refAway (c : Chip) (v : Nat) : Bool := refRemote v && refPkg v != c.pkg

/-- Cell threads may use a ring of this package this way (R241). -/
def Chip.cellMay (c : Chip) (r : Nat) (take : Bool) : Bool :=
  decide (0x10 ≤ r) && (c.im.rings.any fun e => e.ring == r) && (if take then c.ringCons r == 0 else (c.ringProd r).testBit 0)

/-- A status that names no item: the rest of the word is a free value (log entry 15). -/
def Chip.bareStatus (c : Chip) (cell thread d st : Nat) : Chip :=
  let (v, c) := c.draw
  c.setThread cell thread fun t => (t.setS d (BitVec.ofNat 64 (v * 256 + st))).step

/-- A request to another package: the thread waits for its answer (R352). -/
def Chip.askRing (c : Chip) (cell thread w pkg ref : Nat) (k : RemoteKind) : Chip :=
  (c.setThread cell thread fun t => { t with st := .waitRemote, word := w }).signal
    (.remote { pkg := pkg, cell := cell, thread := thread, tag := 17, addr := ref, kind := k })

/-- Give a reservation to a thread (R242, R188). -/
def Chip.grantTo (c : Chip) (cell thread d r n : Nat) : Chip :=
  match c.thread? cell thread with
  | none => c
  | some t =>
    let h := (freeHandle t.resv).getD 0
    let (it, c) := c.grant r n (.cell cell thread)
    c.setThread cell thread fun t =>
      ({ t with resv := t.resv.set h (some ⟨c.pkg, r, it.seq, n⟩) }.setS d (statusWord it.seq n h stOk)).step

/-- A ring can grant n words now (R242, R259, R425). -/
def Chip.canGrant (c : Chip) (r n : Nat) : Bool :=
  decide ((c.ring r).st = .opened) && !(c.ring r).narrowed && decide (n ≤ c.ringFree r)

/-- A queued thread can be served: its cell runs. -/
def Chip.waiterRuns (c : Chip) (cell : Nat) : Bool := decide ((c.cell cell).st = .run) && c.islOpen (cellIsland cell)

/-- A waiting request can be served: a thread's cell runs, and another package's always can. -/
def Chip.requestRuns (c : Chip) (w : ResWait) : Bool :=
  match w.who with
  | .cell k _ => c.waiterRuns k
  | _ => true

/-- The reservation that a status word names among a thread's own. -/
def Thread.resvOf (t : Thread) (v : Dword) : Option Hold := if handleOf v < 8 then t.resv.getD (handleOf v) none else none
/-- The taken item that a status word names. -/
def Thread.takeOf (t : Thread) (v : Dword) : Option Hold := if handleOf v < 8 then t.takes.getD (handleOf v) none else none

/-- The reservation is still open (R244): another event may have voided it. -/
def Chip.resvOpen (c : Chip) (cell thread : Nat) (h : Hold) : Option RItem :=
  match (c.ring h.ring).item? h.seq with
  | none => none
  | some i => if i.st = .reserved ∧ i.producer = .cell cell thread then some i else none

/-- Deliver the item at TAKE of a ring to a thread, if it may have it now (R187, R246, R257): none when it must wait. An item that would not
fit the cell store is not taken, and the thread takes BOUNDS (log entry 16). -/
def Chip.deliverTake (c : Chip) (cell thread w r : Nat) : Option Chip :=
  match c.thread? cell thread, (c.ring r).atTake with
  | some t, some i =>
    let off := (t.sreg (wB w)).toNat
    if (c.takeItem r (.cell cell thread)).isSome && !inStore off (64 * i.words) then some (c.except cell thread excBounds 0 off)
    else
      match c.takeItem r (.cell cell thread) with
      | none => none
      | some (i, c) =>
        let h := (freeHandle t.takes).getD 0
        let bs := c.ringWords r i.idx i.words
        let bad := (List.range i.words).filter fun k => match c.ringBase r with
          | none => false
          | some b => !(c.mem.badUnits (b + (i.idx + k) % c.ringSize r * 64) 64).isEmpty
        let c := match c.ringBase r with
          | none => c
          | some b => (List.range i.words).foldl (fun (c : Chip) k => c.touch (b + (i.idx + k) % c.ringSize r * 64) 64) c
        let c := c.setPart cell fun p => (p.put off bs).taint (bad.flatMap fun k => unitsOf (off + 64 * k) 64)
        some (c.setThread cell thread fun t =>
          ({ t with takes := t.takes.set h (some ⟨c.pkg, r, i.seq, i.words⟩) }.setS (wD w) (statusWord i.seq i.words h stOk)).step)
  | _, _ => none

/-- A taken item's request was cancelled (R258). -/
def Chip.itemCancelled (c : Chip) (h : Hold) : Bool :=
  match (c.ring h.ring).item? h.seq with
  | some i => i.req != 0 && decide (i.req ∈ c.cancelled)
  | none => false

end Sys2Proof.Machine
end

