-- ==== Sys2Proof/Machine/Crypto.lean ====
section
/-! DEFINITION. The published ciphers and hashes that the package applies to data it holds: SHA-384 (R82, R83, R411, R522, R528), AES-256 key unwrap under
RFC 3394 (R84, R514) and AES-256-GCM (R85). -/

namespace Sys2Proof.Machine

/-! ### SHA-384 (FIPS 180-4) -/

def shaK : List Nat :=
  [0x428A2F98D728AE22, 0x7137449123EF65CD, 0xB5C0FBCFEC4D3B2F, 0xE9B5DBA58189DBBC] ++
  [0x3956C25BF348B538, 0x59F111F1B605D019, 0x923F82A4AF194F9B, 0xAB1C5ED5DA6D8118] ++
  [0xD807AA98A3030242, 0x12835B0145706FBE, 0x243185BE4EE4B28C, 0x550C7DC3D5FFB4E2] ++
  [0x72BE5D74F27B896F, 0x80DEB1FE3B1696B1, 0x9BDC06A725C71235, 0xC19BF174CF692694] ++
  [0xE49B69C19EF14AD2, 0xEFBE4786384F25E3, 0x0FC19DC68B8CD5B5, 0x240CA1CC77AC9C65] ++
  [0x2DE92C6F592B0275, 0x4A7484AA6EA6E483, 0x5CB0A9DCBD41FBD4, 0x76F988DA831153B5] ++
  [0x983E5152EE66DFAB, 0xA831C66D2DB43210, 0xB00327C898FB213F, 0xBF597FC7BEEF0EE4] ++
  [0xC6E00BF33DA88FC2, 0xD5A79147930AA725, 0x06CA6351E003826F, 0x142929670A0E6E70] ++
  [0x27B70A8546D22FFC, 0x2E1B21385C26C926, 0x4D2C6DFC5AC42AED, 0x53380D139D95B3DF] ++
  [0x650A73548BAF63DE, 0x766A0ABB3C77B2A8, 0x81C2C92E47EDAEE6, 0x92722C851482353B] ++
  [0xA2BFE8A14CF10364, 0xA81A664BBC423001, 0xC24B8B70D0F89791, 0xC76C51A30654BE30] ++
  [0xD192E819D6EF5218, 0xD69906245565A910, 0xF40E35855771202A, 0x106AA07032BBD1B8] ++
  [0x19A4C116B8D2D0C8, 0x1E376C085141AB53, 0x2748774CDF8EEB99, 0x34B0BCB5E19B48A8] ++
  [0x391C0CB3C5C95A63, 0x4ED8AA4AE3418ACB, 0x5B9CCA4F7763E373, 0x682E6FF3D6B2B8A3] ++
  [0x748F82EE5DEFB2FC, 0x78A5636F43172F60, 0x84C87814A1F0AB72, 0x8CC702081A6439EC] ++
  [0x90BEFFFA23631E28, 0xA4506CEBDE82BDE9, 0xBEF9A3F7B2C67915, 0xC67178F2E372532B] ++
  [0xCA273ECEEA26619C, 0xD186B8C721C0C207, 0xEADA7DD6CDE0EB1E, 0xF57D4F7FEE6ED178] ++
  [0x06F067AA72176FBA, 0x0A637DC5A2C898A6, 0x113F9804BEF90DAE, 0x1B710B35131C471B] ++
  [0x28DB77F523047D84, 0x32CAAB7B40C72493, 0x3C9EBE0A15C9BEBC, 0x431D67C49C100D4C] ++
  [0x4CC5D4BECB3E42B6, 0x597F299CFC657E2A, 0x5FCB6FAB3AD6FAEC, 0x6C44198C4A475817]

def sha384Init : List Nat :=
  [0xCBBB9D5DC1059ED8, 0x629A292A367CD507, 0x9159015A3070DD17, 0x152FECD8F70E5939] ++
  [0x67332667FFC00B31, 0x8EB44A8768581511, 0xDB0C2E0D64F98FA7, 0x47B5481DBEFA4FA4]

def rotr64 (x n : Nat) : Nat := (x >>> n ||| x <<< (64 - n)) % 2 ^ 64

/-- The eight working variables of a block. -/
structure ShaSt where
  a : Nat
  b : Nat
  c : Nat
  d : Nat
  e : Nat
  f : Nat
  g : Nat
  h : Nat
  deriving DecidableEq, Repr

/-- One round with its schedule word and constant. -/
def shaRound (s : ShaSt) (w k : Nat) : ShaSt :=
  let s1 := rotr64 s.e 14 ^^^ rotr64 s.e 18 ^^^ rotr64 s.e 41
  let ch := (s.e &&& s.f) ^^^ ((2 ^ 64 - 1 - s.e) &&& s.g)
  let t1 := s.h + s1 + ch + k + w
  let s0 := rotr64 s.a 28 ^^^ rotr64 s.a 34 ^^^ rotr64 s.a 39
  let maj := (s.a &&& s.b) ^^^ (s.a &&& s.c) ^^^ (s.b &&& s.c)
  { a := (t1 + s0 + maj) % 2 ^ 64, b := s.a, c := s.b, d := s.c, e := (s.d + t1) % 2 ^ 64, f := s.e, g := s.f, h := s.g }

/-- The next schedule word from the last sixteen, oldest first. -/
def shaNext (w : List Nat) : Nat :=
  let x := w.getD 1 0
  let y := w.getD 14 0
  let s0 := rotr64 x 1 ^^^ rotr64 x 8 ^^^ x >>> 7
  let s1 := rotr64 y 19 ^^^ rotr64 y 61 ^^^ y >>> 6
  (w.getD 0 0 + s0 + w.getD 9 0 + s1) % 2 ^ 64

/-- The rounds of a block, over a window of sixteen schedule words. -/
def shaRounds (s : ShaSt) (w : List Nat) : List Nat → ShaSt
  | [] => s
  | k :: ks => shaRounds (shaRound s (w.getD 0 0) k) (w.drop 1 ++ [shaNext w]) ks

/-- Compress one block of 128 bytes. -/
def shaBlock (h : List Nat) (b : List Byte) : List Nat :=
  let w := (List.range 16).map fun k => beNat ((b.drop (8 * k)).take 8)
  let g := fun k => h.getD k 0
  let s := shaRounds { a := g 0, b := g 1, c := g 2, d := g 3, e := g 4, f := g 5, g := g 6, h := g 7 } w shaK
  (h.zip [s.a, s.b, s.c, s.d, s.e, s.f, s.g, s.h]).map fun (e : Nat × Nat) => (e.1 + e.2) % 2 ^ 64

/-- SHA-384 of a byte string. -/
def sha384 (m : List Byte) : List Byte :=
  let pad := (239 - m.length % 128) % 128
  let p := m ++ [0x80] ++ List.replicate pad 0 ++ beBytes 16 (8 * m.length)
  let h := (List.range (p.length / 128)).foldl (fun h k => shaBlock h ((p.drop (128 * k)).take 128)) sha384Init
  ((h.take 6).flatMap fun x => beBytes 8 x)

/-- The key hash of R83. -/
def keyHash (ecPk mldsaPk : List Byte) : List Byte := sha384 (ecPk ++ mldsaPk)

/-! ### AES-256 (FIPS 197) -/

def aesSbox : List Nat :=
  [0x63, 0x7C, 0x77, 0x7B, 0xF2, 0x6B, 0x6F, 0xC5, 0x30, 0x01, 0x67, 0x2B, 0xFE, 0xD7, 0xAB, 0x76] ++
  [0xCA, 0x82, 0xC9, 0x7D, 0xFA, 0x59, 0x47, 0xF0, 0xAD, 0xD4, 0xA2, 0xAF, 0x9C, 0xA4, 0x72, 0xC0] ++
  [0xB7, 0xFD, 0x93, 0x26, 0x36, 0x3F, 0xF7, 0xCC, 0x34, 0xA5, 0xE5, 0xF1, 0x71, 0xD8, 0x31, 0x15] ++
  [0x04, 0xC7, 0x23, 0xC3, 0x18, 0x96, 0x05, 0x9A, 0x07, 0x12, 0x80, 0xE2, 0xEB, 0x27, 0xB2, 0x75] ++
  [0x09, 0x83, 0x2C, 0x1A, 0x1B, 0x6E, 0x5A, 0xA0, 0x52, 0x3B, 0xD6, 0xB3, 0x29, 0xE3, 0x2F, 0x84] ++
  [0x53, 0xD1, 0x00, 0xED, 0x20, 0xFC, 0xB1, 0x5B, 0x6A, 0xCB, 0xBE, 0x39, 0x4A, 0x4C, 0x58, 0xCF] ++
  [0xD0, 0xEF, 0xAA, 0xFB, 0x43, 0x4D, 0x33, 0x85, 0x45, 0xF9, 0x02, 0x7F, 0x50, 0x3C, 0x9F, 0xA8] ++
  [0x51, 0xA3, 0x40, 0x8F, 0x92, 0x9D, 0x38, 0xF5, 0xBC, 0xB6, 0xDA, 0x21, 0x10, 0xFF, 0xF3, 0xD2] ++
  [0xCD, 0x0C, 0x13, 0xEC, 0x5F, 0x97, 0x44, 0x17, 0xC4, 0xA7, 0x7E, 0x3D, 0x64, 0x5D, 0x19, 0x73] ++
  [0x60, 0x81, 0x4F, 0xDC, 0x22, 0x2A, 0x90, 0x88, 0x46, 0xEE, 0xB8, 0x14, 0xDE, 0x5E, 0x0B, 0xDB] ++
  [0xE0, 0x32, 0x3A, 0x0A, 0x49, 0x06, 0x24, 0x5C, 0xC2, 0xD3, 0xAC, 0x62, 0x91, 0x95, 0xE4, 0x79] ++
  [0xE7, 0xC8, 0x37, 0x6D, 0x8D, 0xD5, 0x4E, 0xA9, 0x6C, 0x56, 0xF4, 0xEA, 0x65, 0x7A, 0xAE, 0x08] ++
  [0xBA, 0x78, 0x25, 0x2E, 0x1C, 0xA6, 0xB4, 0xC6, 0xE8, 0xDD, 0x74, 0x1F, 0x4B, 0xBD, 0x8B, 0x8A] ++
  [0x70, 0x3E, 0xB5, 0x66, 0x48, 0x03, 0xF6, 0x0E, 0x61, 0x35, 0x57, 0xB9, 0x86, 0xC1, 0x1D, 0x9E] ++
  [0xE1, 0xF8, 0x98, 0x11, 0x69, 0xD9, 0x8E, 0x94, 0x9B, 0x1E, 0x87, 0xE9, 0xCE, 0x55, 0x28, 0xDF] ++
  [0x8C, 0xA1, 0x89, 0x0D, 0xBF, 0xE6, 0x42, 0x68, 0x41, 0x99, 0x2D, 0x0F, 0xB0, 0x54, 0xBB, 0x16]

def sub8 (b : Byte) : Byte := BitVec.ofNat 8 (aesSbox.getD b.toNat 0)
def invSub8 (b : Byte) : Byte := BitVec.ofNat 8 ((aesSbox.findIdx? (· == b.toNat)).getD 0)

/-- Multiplication by x in GF(2⁸). -/
def xtime (b : Byte) : Byte := if b.msb then (b <<< 1) ^^^ 0x1B else b <<< 1

/-- Multiplication in GF(2⁸) by a small number. -/
def gmul (b : Byte) (n : Nat) : Byte :=
  let b2 := xtime b
  let b4 := xtime b2
  let b8 := xtime b4
  (if n.testBit 0 then b else 0) ^^^ (if n.testBit 1 then b2 else 0) ^^^ (if n.testBit 2 then b4 else 0) ^^^ (if n.testBit 3 then b8 else 0)

def xorBytes (a b : List Byte) : List Byte := (a.zip b).map fun (e : Byte × Byte) => e.1 ^^^ e.2

/-- The 60 words of the key schedule, 4 bytes each. -/
def aesWords (key : List Byte) : List (List Byte) :=
  let w0 := (List.range 8).map fun k => (key.drop (4 * k)).take 4
  (List.range 52).foldl (fun (a : List (List Byte) × Byte) i =>
    let w := a.1
    let n := i + 8
    let t := w.getD (n - 1) []
    let (t, rc) := if n % 8 = 0 then (xorBytes ((t.drop 1 ++ t.take 1).map sub8) [a.2, 0, 0, 0], xtime a.2)
      else if n % 8 = 4 then (t.map sub8, a.2) else (t, a.2)
    (w ++ [xorBytes (w.getD (n - 8) []) t], rc)) (w0, 0x01) |>.1

/-- The fifteen round keys of 16 bytes. -/
def aesKeys (key : List Byte) : List (List Byte) :=
  let w := aesWords key
  (List.range 15).map fun r => ((w.drop (4 * r)).take 4).flatten

/-- Byte i of the state takes the byte at the place that a row shift of `d` per row gives; the state lies by columns. -/
def shiftRows (s : List Byte) (inv : Bool) : List Byte :=
  (List.range 16).map fun i =>
    let r := i % 4
    let c := i / 4
    s.getD (4 * ((if inv then c + 4 - r else c + r) % 4) + r) 0

/-- Multiply every column by a circulant row. -/
def mixColumns (s : List Byte) (m : List Nat) : List Byte :=
  (List.range 16).map fun i =>
    (List.range 4).foldl (fun (a : Byte) k => a ^^^ gmul (s.getD (4 * (i / 4) + k) 0) (m.getD ((k + 4 - i % 4) % 4) 0)) 0

/-- Encrypt a block under round keys. -/
def aesEncrypt (keys : List (List Byte)) (b : List Byte) : List Byte :=
  let s := xorBytes b (keys.getD 0 [])
  let s := (List.range 13).foldl (fun s r => xorBytes (mixColumns (shiftRows (s.map sub8) false) [2, 3, 1, 1]) (keys.getD (r + 1) [])) s
  xorBytes (shiftRows (s.map sub8) false) (keys.getD 14 [])

/-- Decrypt a block under round keys. -/
def aesDecrypt (keys : List (List Byte)) (b : List Byte) : List Byte :=
  let s := (shiftRows (xorBytes b (keys.getD 14 [])) true).map invSub8
  let s := (List.range 13).foldl (fun s r => (shiftRows (mixColumns (xorBytes s (keys.getD (13 - r) [])) [14, 11, 13, 9]) true).map invSub8) s
  xorBytes s (keys.getD 0 [])

/-! ### RFC 3394 key unwrap -/

/-- Unwrap a 40-byte wrap of a 32-byte key; none when the integrity check fails. -/
def keyUnwrap (kek wrap : List Byte) : Option (List Byte) :=
  if wrap.length ≠ 40 then none
  else
    let keys := aesKeys kek
    let r0 := (List.range 4).map fun k => (wrap.drop (8 + 8 * k)).take 8
    let steps := (List.range 24).map fun k => 24 - k
    let res := steps.foldl (fun (a : List Byte × List (List Byte)) t =>
      let i := (t - 1) % 4
      let b := aesDecrypt keys (xorBytes a.1 (beBytes 8 t) ++ a.2.getD i [])
      (b.take 8, a.2.set i (b.drop 8))) (wrap.take 8, r0)
    if res.1 = List.replicate 8 0xA6 then some res.2.flatten else none

/-! ### AES-256-GCM (NIST SP 800-38D) -/

/-- Multiplication in GF(2¹²⁸), bit 0 the most significant. -/
def ghashMul (x y : Nat) : Nat :=
  ((List.range 128).foldl (fun (a : Nat × Nat) k =>
    let z := if x.testBit (127 - k) then a.1 ^^^ a.2 else a.1
    (z, if a.2 % 2 = 1 then (a.2 / 2) ^^^ (0xE1 * 2 ^ 120) else a.2 / 2)) (0, y)).1

def blocks16 (b : List Byte) : List (List Byte) :=
  (List.range (ceilDiv b.length 16)).map fun k =>
    let x := (b.drop (16 * k)).take 16
    x ++ List.replicate (16 - x.length) 0

def ghash (h : Nat) (aad ct : List Byte) : Nat :=
  (blocks16 aad ++ blocks16 ct ++ [beBytes 8 (8 * aad.length) ++ beBytes 8 (8 * ct.length)]).foldl
    (fun y b => ghashMul (y ^^^ beNat b) h) 0

/-- Decrypt and check a tag; none when the tag fails. -/
def gcmDecrypt (key iv aad ct tag : List Byte) : Option (List Byte) :=
  let keys := aesKeys key
  let h := beNat (aesEncrypt keys (List.replicate 16 0))
  let pad := fun (n : Nat) => aesEncrypt keys (iv.take 12 ++ beBytes 4 n)
  let t := xorBytes (beBytes 16 (ghash h aad ct)) (pad 1)
  if t ≠ tag then none
  else some ((blocks16 ct).zipIdx.flatMap fun (e : List Byte × Nat) => xorBytes e.1 (pad (e.2 + 2))) |>.map (List.take ct.length)

/-! ### Signatures (R82, R411, R522) -/

/-- An ECDSA P-384 signature with SHA-384 over a message. -/
def ecSig (key msg sig : List Byte) : SigCheck := { mldsa := false, key := key, message := sha384 msg, sig := sig }
/-- A pure ML-DSA-87 signature of a message, with a context string. -/
def mlSig (context : List Char) (key msg sig : List Byte) : SigCheck := { mldsa := true, key := key, context := ascii context, message := msg, sig := sig }

end Sys2Proof.Machine
end

