-- ==== Sys2Proof/Machine/Migration.lean ====
section
/-! DEFINITION. Backing and the migration engine (08_memory_tiers.md R215, R218–R220, R228). -/

namespace Sys2Proof.Machine

/-- HBM bandwidth of an assembly in bytes a tick (R24). -/
def hbmRate (assy : Nat) : Nat := if assy = 2 then 750 else if assy = 3 then 500 else 1000

/-- The length of an epoch in ticks (R234). -/
def Chip.epochTicks (c : Chip) : Nat := 125 * tUs * 2 ^ c.regField rMEM_MIGCFG 30 28

/-- The budget of an epoch (R219): PORT_SHARE percent of 100 GB/s a CXL port, HBM_SHARE percent of the HBM bandwidth; the lower binds. -/
def Chip.epochBudget (c : Chip) (assy : Nat) : Nat :=
  let ports := c.mem.sdgFrames.length
  min (c.regField rMEM_MIGCFG 7 0 * ports * c.epochTicks * 25 / 400) (c.regField rMEM_MIGCFG 15 8 * hbmRate assy * c.epochTicks / 100)

/-- Water levels in frames (R234). -/
def Chip.lowWater (c : Chip) : Nat := waterFrames c.mem.hbmFitted (c.regField rMEM_WATER 7 0)
def Chip.highWater (c : Chip) : Nat := waterFrames c.mem.hbmFitted (c.regField rMEM_WATER 15 8)

/-- The objects whose bytes live here, in table order (R94). -/
def Chip.heldObjs (c : Chip) : List ObjEntry := c.objs.filter fun o => o.heldBy c.pkg
/-- Every wagon of this package with its object, in table order. -/
def Chip.allWagons (c : Chip) : List (Nat × ObjEntry) := c.heldObjs.flatMap fun o => o.wagons.map fun w => (w, o)

def Mem.moving (m : Mem) (w : Nat) : Bool := m.moves.any fun v => v.wagon == w

/-- What a demotion costs (R219): an inclusive wagon pays for its dirty pages only. -/
def demoteCost (w : Wagon) : Nat := if w.second.isSome then max 4096 (4096 * popCount 16 w.dirty) else wagonBytes

/-- Start a move within the budget (R219, R220). -/
def Mem.startMove (m : Mem) (w : Nat) (dest : Loc) (cost now : Nat) : Mem :=
  if m.budget < cost ∨ m.moving w then m
  else { m with budget := m.budget - cost, moves := m.moves ++ [{ wagon := w, dest := dest, since := now }] }

/-- Where a demotion of a wagon goes: the sidings frame it kept, or a free one. -/
def Mem.demoteTo (m : Mem) (w : Wagon) : Option Nat := match w.second with | some p => some p | none => m.pickPort

def Mem.demote (m : Mem) (w now : Nat) : Mem :=
  match m.demoteTo (m.wagon w) with
  | some p => m.startMove w (.sidings p) (demoteCost (m.wagon w)) now
  | none => m
def Mem.promote (m : Mem) (w now : Nat) : Mem := if m.hbmFree = 0 then m else m.startMove w .hbm wagonBytes now

/-- Insert into a list kept in order of a key. -/
def insertBy (le : (Nat × Nat) → (Nat × Nat) → Bool) (x : Nat × Nat) : List (Nat × Nat) → List (Nat × Nat)
  | [] => [x]
  | y :: rest => if le x y then x :: y :: rest else y :: insertBy le x rest

def sortBy (le : (Nat × Nat) → (Nat × Nat) → Bool) (l : List (Nat × Nat)) : List (Nat × Nat) := l.foldr (insertBy le) []

/-- The wagons that may be demoted, coldest first, then the lower address (R218). -/
def Chip.coldWagons (c : Chip) (m : Mem) : List Nat :=
  let cold := c.regField rMEM_MIGCFG 27 24
  let l := c.allWagons.filterMap fun e =>
    let w := m.wagon e.1
    if (e.2.tier = 2 ∨ e.2.tier = 3) ∧ w.loc = .hbm ∧ cold ≤ w.cold ∧ !m.moving e.1 then some (w.heat, e.1) else none
  (sortBy (fun a b => decide (a.1 < b.1) || (a.1 == b.1 && decide (a.2 ≤ b.2))) l).map (·.2)

/-- The wagons that may be promoted, hottest first (R218). -/
def Chip.hotWagons (c : Chip) (m : Mem) : List Nat :=
  let hot := c.regField rMEM_MIGCFG 23 16
  let l := c.allWagons.filterMap fun e =>
    let w := m.wagon e.1
    let inSdg : Bool := match w.loc with | .sidings _ => true | _ => false
    if (e.2.tier = 2 ∨ e.2.tier = 3) ∧ inSdg ∧ hot ≤ w.heat ∧ !m.moving e.1 then some (w.heat, e.1) else none
  (sortBy (fun a b => decide (b.1 < a.1) || (a.1 == b.1 && decide (a.2 ≤ b.2))) l).map (·.2)

/-- Back one wagon, where its policy puts it (R214, R215); INIT_BLOB data only at start-up. -/
def Chip.backOne (c : Chip) (m : Mem) (e : Nat × ObjEntry) : Mem :=
  let o := e.2
  if (m.wagon e.1).loc ≠ .unbacked then m
  else
    let sdg := m.pickPort
    if o.tier = 1 then (if m.hbmFree = 0 then m else m.backHbm e.1)
    else if o.tier = 2 ∧ c.highWater < m.hbmFree then m.backHbm e.1
    else match sdg with
      | some p => m.backSdg e.1 p
      | none => if c.lowWater < m.hbmFree then m.backHbm e.1 else m

/-- An inclusive wagon that lost its sidings frame gains one, with every page dirty (R228). -/
def Chip.reSecond (m : Mem) (e : Nat × ObjEntry) : Mem :=
  let w := m.wagon e.1
  if e.2.inclusive ∧ w.loc = .hbm ∧ w.second = none ∧ !m.moving e.1 then
    match m.pickPort with
    | some p => m.setWagon e.1 fun w => { w with second := some p, dirty := 0xFFFF }
    | none => m
  else m

/-- Moves that an amendment or the turntable asked for (R218, R219). -/
def Mem.startForced (m : Mem) (now : Nat) : Mem :=
  m.forced.foldl (fun m (e : Nat × Loc) =>
    let n := m.moves.length
    let m' := if (m.wagon e.1).loc = e.2 then { m with forced := m.forced.erase e }
      else match e.2 with
        | .hbm => m.promote e.1 now
        | .sidings _ => m.demote e.1 now
        | .unbacked => m
    if n < m'.moves.length then { m' with forced := m'.forced.erase e } else m') m

/-- One epoch (R218): pressure, promotion, backing, cooling. -/
def Chip.epoch (c : Chip) (assy : Nat) : Mem :=
  let now := c.elapsed
  let m : Mem := { c.mem with budget := c.epochBudget assy }
  let m : Mem := { m with wagons := m.wagons.map fun e => (e.1, { e.2 with cold := if e.2.heat = 0 then min 255 (e.2.cold + 1) else 0 }) }
  let m := m.startForced now
  -- frames that demotions under way will free count towards the high-water level
  let leaving := fun (m : Mem) => (m.moves.filter fun v => match v.dest with | .sidings _ => true | _ => false).length
  let m := if m.hbmFree < c.lowWater then
      (c.coldWagons m).foldl (fun m w => if m.hbmFree + leaving m < c.highWater then m.demote w now else m) m
    else m
  let m := (c.hotWagons m).foldl (fun m w => if c.highWater < m.hbmFree then m.promote w now else m) m
  let m := c.allWagons.foldl (fun m e => Chip.reSecond (c.backOne m e) e) m
  { m with wagons := (m.wagons.map fun e => (e.1, { e.2 with heat := e.2.heat / 2 })).filter fun e => e.2 ≠ {}, epochAt := now }

/-- The end of a move (R220): the map entry switches, and the frames and dirty bits follow. -/
def Mem.finishMove (m : Mem) (v : Move) (inclusive : Bool) : Mem :=
  let m : Mem := { m with moves := m.moves.filter fun x => x.wagon != v.wagon }
  let old := m.wagon v.wagon
  match v.dest, old.loc with
  | .hbm, .sidings p =>
    { m.setWagon v.wagon fun w => if inclusive then { w with loc := .hbm, second := some p, dirty := 0 } else { w with loc := .hbm } with
      migUp := (m.migUp + 1) % 2 ^ 32 }
  | .sidings p, .hbm =>
    { m.setWagon v.wagon fun w => if w.second.isSome then { w with loc := .sidings p, second := none, dirty := 0 }
        else { w with loc := .sidings p } with
      migDn := (m.migDn + 1) % 2 ^ 32 }
  | _, _ => m

/-! ### Backing at start-up (R215) -/

/-- INIT_BLOB data of a wagon that was just backed. -/
def Chip.fillWagon (c : Chip) (m m' : Mem) (e : Nat × ObjEntry) : Mem :=
  if (m.wagon e.1).loc ≠ .unbacked ∨ (m'.wagon e.1).loc = .unbacked then m'
  else match c.im.blob? 2 e.2.initBlob with
    | some b => m'.initWagon e.2 b.data e.1
    | none => m'

/-- Step 12: HBM_PIN objects, then HBM_FIRST objects while the free frames stay above the high-water level. -/
def Chip.backStart (c : Chip) : Chip :=
  let first := c.allWagons.filter fun (e : Nat × ObjEntry) => e.2.tier == 1
  let second := c.allWagons.filter fun (e : Nat × ObjEntry) => e.2.tier == 2
  let m := first.foldl (fun m e => c.fillWagon m (c.backOne m e) e) c.mem
  { c with mem := second.foldl (fun m e => if c.highWater < m.hbmFree then c.fillWagon m (m.backHbm e.1) e else m) m }

/-- One notice for every object that holds an unbacked wagon (R217). -/
def Chip.unbackedNotices (c : Chip) : Chip :=
  (c.heldObjs.filter fun o => o.wagons.any fun w => decide ((c.mem.wagon w).loc = .unbacked)).foldl (fun c o => c.notice 217 o.id) c

/-- Step 15: the wagons that wait, in sidings, or in HBM down to the low-water level. -/
def Chip.backLate (c : Chip) : Chip :=
  ({ c with mem := { c.allWagons.foldl (fun m e => c.fillWagon m (c.backOne m e) e) c.mem with backed := true } } : Chip).unbackedNotices

/-- What an amendment or the turntable asked for starts at once, within the budget of the epoch (R218, R219). -/
def Chip.forceMoves (c : Chip) : Chip := { c with mem := c.mem.startForced c.elapsed }

end Sys2Proof.Machine
end

