-- ==== Sys2Proof/Machine/Net.lean ====
section
/-! DEFINITION. Routes, packets and flits of the Bilsal links (13_bilsal_links.md R336, R345–R359). -/

namespace Sys2Proof.Machine

/-! ### The plan of links (R97) -/

/-- The plan of a link of a package. -/
def Image.linkPlan (im : Image) (pkg l : Nat) : LinkPlan :=
  match im.roster.findIdx? (fun e => e.num == pkg) with
  | none => {}
  | some k => (im.links.getD k []).getD l {}

/-- The peer of a half of a link: its package and its link. -/
def LinkPlan.peer (p : LinkPlan) (h : Nat) : Nat × Nat := if h = 0 then (p.peerA, p.linkA) else (p.peerB, p.linkB)
/-- The halves of a link of a KIND. -/
def halvesOf (kind : Nat) : List Nat := if kind = 0 then [] else if kind = 3 then [0, 1] else [0]

def Chip.plan (c : Chip) (l : Nat) : LinkPlan := c.im.linkPlan c.pkg l

/-- The half of the peer's link that joins a half of a package's link. -/
def Image.farHalf (im : Image) (pkg l h : Nat) : Nat :=
  let (q, m) := (im.linkPlan pkg l).peer h
  if (im.linkPlan q m).peer 0 = (pkg, l) then 0 else 1

def Chip.link (c : Chip) (l : Nat) : Link := c.net.links.getD l {}
def Chip.half (c : Chip) (l h : Nat) : LinkHalf := (c.link l).halves.getD h {}
def Chip.setLink (c : Chip) (l : Nat) (f : Link → Link) : Chip :=
  { c with net := { c.net with links := setAt c.net.links l f } }
def Chip.setHalf (c : Chip) (l h : Nat) (f : LinkHalf → LinkHalf) : Chip :=
  c.setLink l fun x => { x with halves := setAt x.halves h f }

/-! ### The link-state map (R357) -/

def lsKey (e : LsEntry) (origin link half : Nat) : Bool := e.origin == origin && e.link == link && e.half == half
def Net.entry? (n : Net) (origin link half : Nat) : Option LsEntry := n.map.find? fun e => lsKey e origin link half

/-- An end counts as up: UP or WIDTHCHG, and CLOSED where `shut` asks for the routes that closed port dies take away (R357, R494). -/
def Net.endUp (n : Net) (shut : Bool) (origin link half : Nat) : Bool :=
  match n.entry? origin link half with
  | none => false
  | some e => e.st == 2 || e.st == 3 || (shut && e.st == 4)

/-- A half-link carries traffic when both of its ends say so. -/
def Chip.edgeUp (c : Chip) (shut : Bool) (pkg l h : Nat) : Bool :=
  let p := c.im.linkPlan pkg l
  let (q, m) := p.peer h
  (h ∈ halvesOf p.kind) && c.net.endUp shut pkg l h && c.net.endUp shut q m (c.im.farHalf pkg l h)

/-- Every half-link of the package numbered `pkg`, in link order. -/
def allHalves : List (Nat × Nat) := (List.range 24).flatMap fun l => [(l, 0), (l, 1)]

/-- The up half-links from a package straight to another. -/
def Chip.direct (c : Chip) (shut : Bool) (a b : Nat) : List (Nat × Nat) :=
  allHalves.filter fun (e : Nat × Nat) => ((c.im.linkPlan a e.1).peer e.2).1 == b && c.edgeUp shut a e.1 e.2

/-! ### Routes (R353–R355) -/

def yardOf (p : Nat) : Nat := p / 16

/-- The local rule: the next package on the way to `t` in the same yard. -/
def Chip.localHop (c : Chip) (shut : Bool) (cur t : Nat) : Option Nat :=
  if !(c.direct shut cur t).isEmpty then some t
  else
    ((List.range 15).map fun k => 16 * yardOf cur + (t + k + 1) % 16).find? fun m =>
      m != cur && !(c.direct shut cur m).isEmpty && !(c.direct shut m t).isEmpty

/-- The up global links from one yard to another, by package and link. -/
def Chip.globals (c : Chip) (shut : Bool) (y z : Nat) : List (Nat × Nat) :=
  (c.im.roster.filter fun e => yardOf e.num == y).flatMap fun e =>
    ((List.range 24).filter fun l =>
      let p := c.im.linkPlan e.num l
      p.kind == 2 && yardOf p.peerA == z && c.edgeUp shut e.num l 0).map fun l => (e.num, l)

/-- The yards of the roster, in ascending order. -/
def Image.yards (im : Image) : List Nat :=
  (List.range 256).filter fun y => im.roster.any fun e => yardOf e.num == y

/-- The waypoints that the origin sets. -/
def Chip.waypoints (c : Chip) (shut : Bool) (d : Nat) : Option (Nat × Nat) × Option (Nat × Nat) :=
  let s := c.pkg
  if yardOf s = yardOf d then (none, none)
  else
    let g := c.globals shut (yardOf s) (yardOf d)
    let pick := fun (l : List (Nat × Nat)) => l[(s + d) % max l.length 1]?
    if !g.isEmpty then (pick g, none)
    else
      let ys := c.im.yards
      let start := (yardOf s + yardOf d) % max ys.length 1
      match ((ys.filter fun y => decide (start ≤ y)) ++ ys.filter fun y => decide (y < start)).find? fun z =>
          !(c.globals shut (yardOf s) z).isEmpty && !(c.globals shut z (yardOf d)).isEmpty with
      | none => (none, none)
      | some z => (pick (c.globals shut (yardOf s) z), pick (c.globals shut z (yardOf d)))

/-- One hop of a packet at package `cur`: the next package, the half-link when it is a waypoint's, and the header after it. -/
def Chip.nextHop (c : Chip) (shut : Bool) (cur : Nat) (p : Packet) : Option (Nat × Option Nat × Packet) :=
  let toward := fun (t : Nat) => (c.localHop shut cur t).map fun n => (n, none, p)
  let via := fun (w : Nat × Nat) (p' : Packet) =>
    if cur ≠ w.1 then toward w.1
    else if c.edgeUp shut cur w.2 0 then some ((c.im.linkPlan cur w.2).peerA, some w.2, p') else none
  match p.way1, p.pass1, p.way2, p.pass2 with
  | some w, false, _, _ => via w { p with pass1 := true }
  | _, _, some w, false => via w { p with pass2 := true }
  | _, _, _, _ => if yardOf cur = yardOf p.dst then toward p.dst else none

/-- A packet's route from `cur` reaches its destination within so many hops. -/
def Chip.reaches (c : Chip) (shut : Bool) : Nat → Nat → Packet → Bool
  | 0, cur, p => cur == p.dst
  | n + 1, cur, p =>
    if cur = p.dst then true
    else match c.nextHop shut cur p with
      | none => false
      | some (q, _, p') => c.reaches shut n q p'

/-- A packet for `dst` from this package, its waypoints set. -/
def Chip.routed (c : Chip) (shut : Bool) (p : Packet) : Packet :=
  let w := c.waypoints shut p.dst
  { p with src := c.pkg, way1 := w.1, way2 := w.2, hops := 0, pass1 := false, pass2 := false }

/-- There is a route of at most 5 hops (R355). -/
def Chip.reachable (c : Chip) (shut : Bool) (d : Nat) : Bool :=
  c.reaches shut 5 c.pkg (c.routed shut { typ := 0, dst := d, src := c.pkg })

/-- Roster packages with no route (LNK_RTSTAT.UNREACH). -/
def Chip.unreachable (c : Chip) : Nat :=
  (c.im.roster.filter fun e => e.num != c.pkg && !c.reachable false e.num).length

/-! ### Packets (R350–R352) -/

def tREAD : Nat := 0x01
def tREADDATA : Nat := 0x02
def tWRITE : Nat := 0x03
def tWRITEACK : Nat := 0x04
def tATOMIC : Nat := 0x05
def tATOMICRESP : Nat := 0x06
def tRINGOP : Nat := 0x07
def tRINGRESP : Nat := 0x08
def tCLOSED : Nat := 0x09
def tBOUNCE : Nat := 0x0A
def tERROR : Nat := 0x0B
def tPIP : Nat := 0x10
def tSTREAM : Nat := 0x11
def tLSA : Nat := 0x20

/-- The traffic class of a type; none for a reserved one (R350, R352). -/
def pktClass (t : Nat) : Option Nat :=
  if t = tPIP then some 1
  else if t = tREAD ∨ t = tATOMIC ∨ t = tRINGOP then some 2
  else if t = tWRITE ∨ t = tSTREAM ∨ t = tBOUNCE then some 3
  else if t = tREADDATA ∨ t = tWRITEACK ∨ t = tATOMICRESP ∨ t = tRINGRESP ∨ t = tCLOSED ∨ t = tERROR then some 4
  else if t = tLSA then some 5
  else none

/-- The LEN that a type allows (R352). -/
def pktLenOk (t n : Nat) : Bool :=
  n % 32 == 0 && decide (n ≤ 576) &&
  (if t = tREAD ∨ t = tATOMIC ∨ t = tATOMICRESP ∨ t = tRINGRESP then n == 32
   else if t = tREADDATA then decide (96 ≤ n) && decide (n ≤ 544)
   else if t = tWRITE ∨ t = tBOUNCE then decide (64 ≤ n)
   else if t = tWRITEACK ∨ t = tCLOSED ∨ t = tERROR then n == 0
   else if t = tRINGOP then decide (32 ≤ n) && decide (n ≤ 544)
   else if t = tPIP then decide (32 ≤ n) && decide (n ≤ 256)
   else if t = tSTREAM then decide (32 ≤ n)
   else decide (32 ≤ n))

def wayBytes (w : Option (Nat × Nat)) : Nat × Nat := w.getD (0xFFFF, 0xFF)

/-- The 32-byte transport header (R351). -/
def Packet.header (p : Packet) : List Byte :=
  leBytes 1 p.typ ++ leBytes 1 (p.hops % 8 + 8 * bit p.pass1 + 16 * bit p.pass2) ++ leBytes 2 p.data.length ++ leBytes 2 p.dst ++
    leBytes 2 p.src ++ leBytes 2 (wayBytes p.way1).1 ++ leBytes 1 (wayBytes p.way1).2 ++ leBytes 1 (wayBytes p.way2).2 ++
    leBytes 2 (wayBytes p.way2).1 ++ leBytes 2 p.status ++ leBytes 4 p.tag ++ leBytes 4 0 ++ leBytes 8 p.addr

def wayOf (pkg link : Nat) : Option (Nat × Nat) := if pkg = 0xFFFF then none else some (pkg, link)

/-- The reserved bits of the fields that PIP and STREAM add to the header are 0 (R375, R378, R385, R352). -/
def leadOk (typ : Nat) (d : List Byte) : Bool :=
  let flags := fieldAt d 3 1
  let op := fieldAt d 1 1
  if typ = tPIP then
    decide (flags < 16) && zeroAt d 14 2 && zeroAt d 24 8 &&
      (if op = 0x10 then decide (fieldAt d 58 1 < 2) && zeroAt d 59 1 && zeroAt d 66 14
       else if op = 0x11 ∨ op = 0x12 then zeroAt d 43 5 else true)
  else if typ = tSTREAM then decide (flags < 16) && !flags.testBit 1 && zeroAt d 21 11
  else true

/-- Read one packet of a body; none where R352 discards it, or for a reserved operation of an ATOMIC or a RING_OP (R10, log entry 67).
The second part is the bytes it took. -/
def parsePacket (b : List Byte) : Option Packet × Nat :=
  let n := fieldAt b 2 2
  let typ := fieldAt b 0 1
  let route := fieldAt b 1 1
  let p : Packet :=
    { typ := typ, hops := route % 8, pass1 := route.testBit 3, pass2 := route.testBit 4, dst := fieldAt b 4 2, src := fieldAt b 6 2
      way1 := wayOf (fieldAt b 8 2) (fieldAt b 10 1), way2 := wayOf (fieldAt b 12 2) (fieldAt b 11 1), status := fieldAt b 14 2
      tag := fieldAt b 16 4, addr := fieldAt b 24 8, data := (b.drop 32).take n }
  let op := fieldAt b 32 1
  let opOk := if typ = tATOMIC then decide (op ≤ 3) else if typ = tRINGOP then decide (op ≤ 2) else true
  let ok := (pktClass typ).isSome && pktLenOk typ n && decide (route < 32) && zeroAt b 20 4 && opOk && leadOk typ (b.drop 32) && decide (32 + n ≤ b.length)
  (if ok then some p else none, 32 + n)

/-- The packets of a body: those kept, and how many were discarded. -/
def parseBody (b : List Byte) : Nat → List Packet × Nat
  | 0 => ([], 0)
  | k + 1 =>
    if b.length < 32 then ([], 0)
    else
      let (p, n) := parsePacket b
      let (ps, bad) := parseBody (b.drop n) k
      match p with
      | some p => (p :: ps, bad)
      | none => (ps, bad + 1)

/-! ### Flits sent (R345–R350) -/

def tokGet (t : List (Nat × Nat)) (k : Nat) : Nat := ((t.find? fun e => e.1 == k).map (·.2)).getD 0
def tokAdd (t : List (Nat × Nat)) (k n : Nat) : List (Nat × Nat) :=
  if t.any fun e => e.1 == k then t.map fun e => if e.1 = k then (k, e.2 + n) else e else t ++ [(k, n)]
def tokSub (t : List (Nat × Nat)) (k : Nat) : List (Nat × Nat) := t.map fun e => if e.1 = k then (k, e.2 - 1) else e

/-- The tokens that a receiver advertises at least (R349). -/
def tokensAdvertised : List (Nat × Nat) :=
  (([2, 3, 4] : List Nat).flatMap fun cl => (List.range 5).map fun st => (cl * 8 + st, 4)) ++ [(8, 32), (40, 8), (0x3F, 640)]

def LinkHalf.canSend (x : LinkHalf) (pair : Nat) : Bool := decide (0 < tokGet x.tok 0x3F) || decide (0 < tokGet x.tok pair)

/-- The send priority of a class; REQUEST and POSTED alternate (R350). -/
def sendRank (postedNext : Bool) (cl : Nat) : Nat :=
  if cl = 1 then 0 else if cl = 5 then 1 else if cl = 4 then 2
  else if (cl == 3) == postedNext then 3 else 4

/-- The first pair of a class that waits and may go. -/
def LinkHalf.waiting (x : LinkHalf) (cl : Nat) : Option Nat := (x.txq.find? fun e => e.1 / 8 == cl && x.canSend e.1).map (·.1)

/-- REQUEST and POSTED each get at least one flit in 16 while they may send (R350): after 14 flits of others one of theirs goes first. -/
def LinkHalf.overduePair (x : LinkHalf) : Option Nat :=
  match x.waiting 2, x.waiting 3 with
  | some p, some q => if 14 ≤ x.wait2 then some p else if 14 ≤ x.wait3 then some q else none
  | some p, none => if 14 ≤ x.wait2 then some p else none
  | none, some q => if 14 ≤ x.wait3 then some q else none
  | none, none => none

/-- The pair whose packets go next, if any may. -/
def LinkHalf.nextPair (x : LinkHalf) : Option Nat :=
  if x.overduePair.isSome then x.overduePair
  else (x.txq.foldl (fun (a : Option (Nat × Nat)) e =>
    if !x.canSend e.1 then a
    else
      let r := sendRank x.postedNext (e.1 / 8)
      match a with
      | none => some (r, e.1)
      | some (r0, _) => if r < r0 then some (r, e.1) else a) none).map (·.2)

/-- The stage of a packet at this hop (R355): the hops it has taken. A PIP travels at stage 0, a STREAM at stage 0 up its tree and 1 down (R372). -/
def Packet.stage (p : Packet) : Nat :=
  if p.typ = tPIP then 0 else if p.typ = tSTREAM then bit ((fieldAt p.data 3 1).testBit 0) else p.hops

/-- The room a packet needs in a flit: the first of two express packets needs room for both, which are 288 and 96 B (R375). -/
def Packet.room (p : Packet) : Nat :=
  if p.typ = tPIP ∧ 224 < fieldAt p.data 8 2 ∧ !(fieldAt p.data 3 1).testBit 1 ∧ p.data.length = 256 then 384 else 32 + p.data.length

/-- The packets of one pair that fill a flit, and what stays queued. -/
def fillFlit (pair : Nat) : Nat → Nat → List (Nat × Packet) → List Packet × List (Nat × Packet)
  | _, _, [] => ([], [])
  | room, slots, e :: rest =>
    if e.1 ≠ pair then
      let r := fillFlit pair room slots rest
      (r.1, e :: r.2)
    else if slots = 0 ∨ room < e.2.room then ([], e :: rest)
    else
      let r := fillFlit pair (room - (32 + e.2.data.length)) (slots - 1) rest
      (e.2 :: r.1, r.2)

/-- Put a flit on the lanes: it acknowledges what was accepted and gives tokens back (R346, R347, R349). -/
def LinkHalf.frame (x : LinkHalf) (ftype vc seq pkts : Nat) (body : List Byte) : LinkHalf :=
  let back := (x.ret.take 4).map fun e => (e.1, min e.2 1023)
  { x with
    ret := ((x.ret.take 4).map fun e => (e.1, e.2 - 1023)).filter (fun e => decide (0 < e.2)) ++ x.ret.drop 4
    ackOwed := false, cw := (x.cw + 1) % 65536
    out := ({ count := x.cw, lanes := x.txMask, ftype := ftype, vc := vc, seq := seq, ack := (x.rxSeq + 65535) % 65536, pkts := pkts
              tokret := back, body := body } :: x.out).take 64 }

/-- The body that packets make: each header and its data, with no gaps (R351). -/
def packBody (ps : List Packet) : List Byte := ps.flatMap fun p => p.header ++ p.data

/-- Put a DATA flit of the replay buffer on the lanes, the first time or in a replay. -/
def LinkHalf.putData (x : LinkHalf) (f : SentFlit) : LinkHalf :=
  x.frame 1 (f.pair / 8 + 8 * (f.pair % 8) + 64 * bit f.shared) f.seq f.pkts.length (packBody f.pkts)

/-- An IDLE, while an acknowledgement or tokens have still to go and there was nothing else to send (R347, R349). -/
def LinkHalf.idle (x : LinkHalf) : Nat → LinkHalf
  | 0 => x
  | fuel + 1 => if x.ackOwed || !x.ret.isEmpty then (x.frame 0 0 0 0 []).idle fuel else x

/-- Send one DATA flit (R347, R349). -/
def LinkHalf.sendOne (x : LinkHalf) (pair now : Nat) : LinkHalf :=
  let r := fillFlit pair 608 19 x.txq
  let shared := decide (0 < tokGet x.tok 0x3F)
  let f : SentFlit := { seq := x.txSeq, pair := pair, shared := shared, pkts := r.1 }
  let x := x.putData f
  { x with
    wait2 := if pair / 8 = 2 ∨ (x.waiting 2).isNone then 0 else x.wait2 + 1
    wait3 := if pair / 8 = 3 ∨ (x.waiting 3).isNone then 0 else x.wait3 + 1
    txq := r.2, tok := tokSub x.tok (if shared then 0x3F else pair), txSeq := (x.txSeq + 1) % 65536
    postedNext := if pair / 8 = 2 then true else if pair / 8 = 3 then false else x.postedNext
    ackAt := if x.sent.isEmpty then now else x.ackAt
    sent := x.sent ++ [f] }

/-- Send what an UP stream can: a token for each flit and room in the replay buffer of 512 flits. -/
def LinkHalf.pump (x : LinkHalf) (now : Nat) : Nat → LinkHalf
  | 0 => x
  | fuel + 1 =>
    if x.st ≠ .up ∨ 512 ≤ x.sent.length then x
    else match x.nextPair with
      | none => x
      | some p => (x.sendOne p now).pump now fuel

/-- All that a stream sends by itself: its DATA flits, and IDLEs for what is still owed. -/
def LinkHalf.pumpAll (x : LinkHalf) (now : Nat) : LinkHalf :=
  let x := x.pump now (x.txq.length + 1)
  if x.st = .up then x.idle 8 else x

def Chip.pump (c : Chip) (l h : Nat) : Chip := c.setHalf l h fun x => x.pumpAll c.elapsed

/-- The bulk stream that a STREAM packet belongs to: its tree and operation, its direction, its instance and its channel. -/
def Packet.stream (p : Packet) : Nat × Bool × Nat × Nat :=
  (fieldAt p.data 0 2, (fieldAt p.data 3 1).testBit 0, fieldAt p.data 4 4, fieldAt p.data 20 1)

/-- Queue a STREAM packet, `n` of whose stream wait already, so that the streams of a link send in turn (R379). `seen` are the streams of the packets
before. -/
def putInTurn (e : Nat × Packet) (n : Nat) (seen : List (Nat × Bool × Nat × Nat)) : List (Nat × Packet) → List (Nat × Packet)
  | [] => [e]
  | x :: rest =>
    if x.2.typ ≠ tSTREAM then x :: putInTurn e n seen rest
    else if x.1 = e.1 ∧ n < (seen.filter fun k => k == x.2.stream).length then e :: x :: rest
    else x :: putInTurn e n (x.2.stream :: seen) rest

/-- The output queue with one more packet. -/
def LinkHalf.queue (x : LinkHalf) (pair : Nat) (p : Packet) : List (Nat × Packet) :=
  if p.typ = tSTREAM then putInTurn (pair, p) (x.txq.filter fun e => e.2.typ == tSTREAM && e.2.stream == p.stream).length [] x.txq
  else x.txq ++ [(pair, p)]

/-- Put a packet into a stream's output queue. -/
def Chip.enq (c : Chip) (l h pair : Nat) (p : Packet) : Chip := (c.setHalf l h fun x => { x with txq := x.queue pair p }).pump l h

/-- The half of this package's link toward a package. -/
def Chip.toward (c : Chip) (q : Nat) (way : Option Nat) : Option (Nat × Nat) :=
  match way with
  | some l => some (l, 0)
  | none => (c.direct false c.pkg q)[0]?

/-- An answer that a packet's origin gets (R352): to this package itself, it waits with the other arrivals of its first link. -/
def Packet.answer (p : Packet) (typ status : Nat) (data : List Byte) : Packet :=
  { typ := typ, dst := p.src, src := p.dst, status := status, tag := p.tag, addr := if typ = tBOUNCE then p.addr else 0, data := data }

/-- Send a packet on along its route (R354, R355): discarded and counted when it would take a sixth hop or finds no link. -/
def Chip.hop (c : Chip) (p : Packet) : Option Chip :=
  if 5 ≤ p.hops then none
  else match c.nextHop false c.pkg p with
    | none => none
    | some (q, way, p') =>
      match c.toward q way with
      | none => none
      | some (l, h) => some (c.enq l h ((pktClass p.typ).getD 0 * 8 + p.stage) p')

/-- Send a packet of this package's own; none when its destination has no route. -/
def Chip.sendPkt (c : Chip) (p : Packet) : Option Chip :=
  if c.reachable false p.dst then c.hop (c.routed false p) else none

/-- Send an answer; one that finds no route is lost. -/
def Chip.answer (c : Chip) (p : Packet) : Chip := (c.sendPkt p).getD c

/-- A packet in transit: forwarded; answered CLOSED or bounced where only a closed port die bars its way (R492); or discarded with NOROUTE for a
request or a posted packet (R355). -/
def Chip.transit (c : Chip) (p : Packet) : Chip :=
  match c.hop { p with hops := p.hops + 1 } with
  | some c => c
  | none =>
    let cl := (pktClass p.typ).getD 0
    if (c.nextHop true c.pkg p).isSome ∧ (cl = 2 ∨ p.typ = tWRITE) then
      if cl = 2 then c.answer (p.answer tCLOSED 0 []) else c.answer (p.answer tBOUNCE 0 p.data)
    else
    let c := c.bump rLNK_NOROUTE
    if cl = 2 ∨ cl = 3 then c.answer (p.answer tERROR 5 []) else c

/-! ### Tree packets (14_collectives.md R372, R382) -/

/-- Send a packet over a tree edge to the neighbour behind one of this package's links: on the edge itself, or, when a local edge is down,
through the intermediate of the local rule. None when the edge is broken. `stage` 1 is a STREAM packet that travels down. -/
def Chip.sendEdge (c : Chip) (l : Nat) (peer : Nat) (stage : Nat) (p : Packet) : Option Chip :=
  let p := { p with dst := peer, src := c.pkg }
  let pair := (pktClass p.typ).getD 0 * 8 + stage
  match (halvesOf (c.plan l).kind).find? fun h => ((c.plan l).peer h).1 == peer && c.edgeUp false c.pkg l h with
  | some h => some (c.enq l h pair p)
  | none =>
    if yardOf peer ≠ yardOf c.pkg then none
    else match c.localHop false c.pkg peer with
      | none => none
      | some q => match c.toward q none with
        | none => none
        | some (m, h) => some (c.enq m h pair p)

end Sys2Proof.Machine
end

