-- ==== Sys2Proof/Machine/Remote.lean ====
section
/-! DEFINITION. Transfers and ring operations between packages: what the origin sends and what it does with answers, and what the home
package does with requests (13_bilsal_links.md R352; 19_power_states.md R492–R495). -/

namespace Sys2Proof.Machine

/-! ### Tags: a part number from 1, a cell, a thread and the thread's own tag (log entry 18). Tree packets have TAG 0 (R371). -/

def wireTag (part cell thread tag : Nat) : Nat := (part + 1) * 2 ^ 17 + cell * 2 ^ 11 + thread * 2 ^ 5 + tag
def tagPart (t : Nat) : Nat := t / 2 ^ 17 - 1
/-- The tag of a cell's request. -/
def tagOfCell (t : Nat) : Bool := decide (2 ^ 17 ≤ t)
def tagCell (t : Nat) : Nat := bitsOf t 16 11
def tagThread (t : Nat) : Nat := bitsOf t 10 5
def tagTag (t : Nat) : Nat := bitsOf t 4 0

/-- Bytes of a READ and of a WRITE. -/
def readPart : Nat := 4096
def writePart : Nat := 576

/-- Data padded to a multiple of 32 B. -/
def pad32 (b : List Byte) : List Byte := b ++ List.replicate (alignUp b.length 32 - b.length) 0

/-! ### The origin -/

/-- The packets of a request, in order. An RRES names no first word: bit 0 of that field carries its NW (log entry 64). -/
def RemoteReq.packets (q : RemoteReq) (src : Nat) : List Packet :=
  let mk := fun (typ part addr : Nat) (data : List Byte) =>
    ({ typ := typ, dst := q.pkg, src := src, tag := wireTag part q.cell q.thread q.tag, addr := addr, data := data } : Packet)
  let ringOp := fun (op n first sw : Nat) (words : List Byte) =>
    [mk tRINGOP 0 q.addr (leBytes 1 op ++ leBytes 1 n ++ leBytes 2 first ++ leBytes 4 0 ++ leBytes 8 sw ++ leBytes 16 0 ++ words)]
  match q.kind with
  | .read len => (List.range (ceilDiv len readPart)).map fun k =>
      mk tREAD k (q.addr + k * readPart) (pad32 (leBytes 4 (min readPart (len - k * readPart)) ++ leBytes 28 0))
  | .write data => (List.range (ceilDiv data.length writePart)).map fun k =>
      mk tWRITE k (q.addr + k * writePart) ((data.drop (k * writePart)).take writePart)
  | .atomic op b d => [mk tATOMIC 0 q.addr (leBytes 1 op ++ leBytes 7 0 ++ leBytes 8 b ++ leBytes 8 d ++ leBytes 8 0)]
  | .rres _ n nw => ringOp 0 n (bit nw) 0 []
  | .rwr _ seq word data => ringOp 1 (data.length / 64) word (statusWord seq 0 0 0).toNat data
  | .rcom _ seq => ringOp 2 0 0 (statusWord seq 0 0 0).toNat []

/-- A ring operation on another package ended: its thread goes on (R185, R188). -/
def Chip.ringAnswered (c : Chip) (q : RemoteReq) (v : Nat) : Chip :=
  let c : Chip := { c with net := { c.net with asked := c.net.asked.filter fun x => !(x.cell == q.cell && x.thread == q.thread) } }
  match c.thread? q.cell q.thread with
  | none => c
  | some t =>
    if t.st ≠ .waitRemote then c
    else
      let st := v % 256
      let seq := bitsOf v 63 32
      match q.kind with
      | .rres ring n _ =>
        if st = stOk then
          let h := (freeHandle t.resv).getD 0
          c.setThread q.cell q.thread fun t =>
            { ({ t with resv := t.resv.set h (some ⟨q.pkg, ring, seq, n⟩) }.setS (wD t.word) (statusWord seq n h stOk)).step with st := .run }
        else c.setThread q.cell q.thread fun t => { (t.setS (wD t.word) (BitVec.ofNat 64 v)).step with st := .run }
      | .rcom _ seq =>
        let v0 := t.sreg (wA t.word)
        c.setThread q.cell q.thread fun t =>
          { ({ t with resv := t.resv.set (handleOf v0) none }.setS (wD t.word)
              (statusWord seq (bitsOf v0.toNat 31 16) (handleOf v0) st)).step with st := .run }
      | _ => c.setThread q.cell q.thread fun t => { t.step with st := .run }

/-- A part of a transfer has been answered: what it brought, and the transfer's end once nothing is left (R181). -/
def Chip.partAnswered (c : Chip) (x : Xfer) (n : Nat) (f : Xfer → Xfer) : Chip :=
  let done := fun (y : Xfer) =>
    if y.left ≤ n then { y with left := 0, st := if y.fail = 0 then .answered y.data y.bad else .failed y.fail }
    else { y with left := y.left - n }
  { c with xfers := c.xfers.map fun y =>
      if y.cell = x.cell ∧ y.thread = x.thread ∧ y.tag = x.tag then done (f y) else y }

/-- The transfer over links that a tag names. -/
def Chip.awayXfer (c : Chip) (tag : Nat) : Option Xfer :=
  c.xfers.find? fun x => tagOfCell tag && x.cell == tagCell tag && x.thread == tagThread tag && x.tag == tagTag tag && x.st == .away

/-- The bytes, or the one write or atomic, that a part of a transfer stands for. -/
def Xfer.partSize (x : Xfer) (part : Nat) : Nat :=
  match x.kind with | .get => min readPart (x.len - part * readPart) | _ => 1

/-- The ring operation that a tag names. -/
def Chip.askedOp (c : Chip) (tag : Nat) : Option RemoteReq :=
  if tagOfCell tag ∧ tagTag tag = 17 then c.net.asked.find? fun q => q.cell == tagCell tag && q.thread == tagThread tag else none

/-- An ERROR for this package's own request (R352): a transfer fails with its cause, a ring operation's thread takes XFER. -/
def Chip.originError (c : Chip) (tag status : Nat) : Chip :=
  match c.askedOp tag with
  | some q =>
    let c : Chip := { c with net := { c.net with asked := c.net.asked.erase q } }
    (c.setThread q.cell q.thread fun t => { t with st := .run }).except q.cell q.thread excXfer status q.addr
  | none =>
    match c.awayXfer tag with
    | none => c
    | some x =>
      let cause := if status = 7 then 0x17 else status
      c.partAnswered x (x.partSize (tagPart tag)) fun y => { y with fail := if y.fail = 0 then cause else y.fail }

/-- The tag of the amendment handler's packets (log entry 18). -/
def relayTag : Nat := 30

/-- A relay of an envelope to a package fails: the package receives nothing more of it (R420). -/
def Chip.relayFail (c : Chip) (pkg : Nat) : Chip :=
  match c.amd.relays.find? fun r => r.pkg == pkg with
  | none => c
  | some r =>
    { c with amd := { c.amd with relays := c.amd.relays.erase r }
             net := { c.net with held := c.net.held.filter fun e => !(e.pkt.tag == relayTag && e.pkt.dst == pkg) } }

/-- A request of this package to another fails with a status: the handler's relay, or a thread's. -/
def Chip.requestFails (c : Chip) (pkg tag status : Nat) : Chip := if tag = relayTag then c.relayFail pkg else c.originError tag status

/-- Hold a packet until a route is open again (R492, R494). -/
def Chip.holdPkt (c : Chip) (p : Packet) (bounced : Bool) : Chip :=
  let first := match c.net.held.find? fun e => e.pkt.tag == p.tag && e.bounced == bounced && e.pkt.addr == p.addr with
    | some e => e.since
    | none => c.elapsed
  let c : Chip := { c with net := { c.net with held := c.net.held ++ [{ pkt := p, since := first, bounced := bounced }] } }
  match c.awayXfer p.tag with
  | none => c
  | some x => { c with xfers := c.xfers.map fun y =>
      if y = x ∧ !bounced then { y with closedSince := some (y.closedSince.getD c.elapsed) } else y }

/-- Send one packet of a request: an unreachable destination is closed when only closed links part it from this package, and fails at once
otherwise (R355, R494). Bounced writes before it hold it back (R493). -/
def Chip.sendOrHold (c : Chip) (p : Packet) : Chip :=
  let posted := p.typ == tWRITE
  if posted && c.net.held.any fun e => e.bounced && e.pkt.dst == p.dst then c.holdPkt p true
  else match c.sendPkt p with
    | some c => c
    | none =>
      if c.reachable true p.dst then
        let c := if posted then c.bump rPWR_BOUNCED else c.bump rPWR_CLOSEDRSP
        c.holdPkt p posted
      else c.requestFails p.dst p.tag 5

/-- Send a request to another package (R231, R352). -/
def Chip.sendRequest (c : Chip) (q : RemoteReq) : Chip :=
  let c : Chip := if q.tag = 17 then { c with net := { c.net with asked := c.net.asked ++ [{ q with since := c.elapsed }] } } else c
  let n := match q.kind with
    | .read len => len
    | .write data => ceilDiv data.length writePart
    | _ => 1
  let c : Chip := { c with xfers := c.xfers.map fun x =>
    if x.cell = q.cell ∧ x.thread = q.thread ∧ x.tag = q.tag ∧ x.st = .away then
      { x with left := n, data := match x.kind with | .get => List.replicate x.len 0 | _ => x.data } else x }
  (q.packets c.pkg).foldl Chip.sendOrHold c

/-- Send again what a route is open for, in the order it was held (R492–R494). -/
def Chip.replayHeld (c : Chip) : Chip :=
  let l := c.net.held
  l.foldl (fun c e => match c.sendPkt e.pkt with
    | some c => c
    | none => { c with net := { c.net with held := c.net.held ++ [e] } }) { c with net := { c.net with held := [] } }

/-! ### Fan-out of amendments (R420) -/

/-- A ring operation of the handler on another package's ring 0x0000. -/
def Chip.relayOp (c : Chip) (pkg op n sw : Nat) (words : List Byte) : Packet :=
  { typ := tRINGOP, dst := pkg, src := c.pkg, tag := relayTag, addr := 2 ^ 31 + pkg * 65536
    data := leBytes 1 op ++ leBytes 1 n ++ leBytes 6 0 ++ leBytes 8 sw ++ leBytes 16 0 ++ words }

/-- The writes are performed: reserve the record's word. -/
def Chip.relayReserve (c : Chip) (pkg : Nat) : Chip := c.sendOrHold (c.relayOp pkg 0 1 0 [])

/-- Begin to relay an envelope to a package: its bytes go to the same OFFSET there. -/
def Chip.relayTo (c : Chip) (pkg off : Nat) (env words : List Byte) : Chip :=
  let n := ceilDiv env.length writePart
  let c : Chip := { c with amd := { c.amd with relays := c.amd.relays ++ [{ pkg := pkg, left := n, words := words }] } }
  (List.range n).foldl (fun (c : Chip) k => c.sendOrHold
    { typ := tWRITE, dst := pkg, src := c.pkg, tag := relayTag, addr := globalAddr pkg (off + k * writePart)
      data := pad32 ((env.drop (k * writePart)).take writePart) }) c

/-- A write of a relay is performed there. -/
def Chip.relayAck (c : Chip) (pkg : Nat) : Chip :=
  match c.amd.relays.findIdx? fun r => r.pkg == pkg && decide (0 < r.left) with
  | none => c
  | some k =>
    let c : Chip := { c with amd := { c.amd with relays := setAt c.amd.relays k fun r => { r with left := r.left - 1 } } }
    if ((c.amd.relays[k]?).map (·.left)) = some 0 then c.relayReserve pkg else c

/-- The reservation is granted: the record is written and committed. Any other answer ends the relay. -/
def Chip.relayAnswer (c : Chip) (pkg v : Nat) : Chip :=
  match c.amd.relays.find? fun r => r.pkg == pkg && r.left == 0 with
  | none => c
  | some r =>
    let c : Chip := { c with amd := { c.amd with relays := c.amd.relays.erase r } }
    if v % 256 ≠ 0 then c
    else (c.sendOrHold (c.relayOp pkg 1 1 v r.words)).sendOrHold (c.relayOp pkg 2 0 v [])

/-- READ_DATA at the requester. -/
def Chip.gotReadData (c : Chip) (p : Packet) : Chip :=
  match c.awayXfer p.tag with
  | none => c
  | some x =>
    let off := tagPart p.tag * readPart + fieldAt p.data 0 4
    let bs := p.data.drop 32
    let bad := if (fieldAt p.data 4 1).testBit 0 then (List.range (bs.length / 64)).map (· + off / 64) else []
    c.partAnswered x bs.length fun y => { y with data := spliceBytes y.data off bs, bad := y.bad ++ bad }

/-- WRITE_ACK at the origin. -/
def Chip.gotWriteAck (c : Chip) (p : Packet) : Chip :=
  if p.tag = relayTag then c.relayAck p.src else
  match c.awayXfer p.tag with
  | none => c
  | some x => c.partAnswered x 1 id

/-- ATOMIC_RESP at the origin. -/
def Chip.gotAtomicResp (c : Chip) (p : Packet) : Chip :=
  match c.awayXfer p.tag with
  | none => c
  | some x => c.partAnswered x 1 fun y => { y with data := p.data.take 8 }

/-- RING_RESP at the origin. -/
def Chip.gotRingResp (c : Chip) (p : Packet) : Chip :=
  if p.tag = relayTag then c.relayAnswer p.src (fieldAt p.data 0 8) else
  match c.askedOp p.tag with
  | none => c
  | some q => c.ringAnswered q (fieldAt p.data 0 8)

/-- The packet that a CLOSED answer turned away, made again from what the origin still holds. -/
def Chip.askAgain (c : Chip) (tag : Nat) : Option Packet :=
  let q : Option RemoteReq := match c.askedOp tag with
    | some q => some q
    | none => (c.awayXfer tag).map fun (x : Xfer) =>
        { pkg := addrPkg x.addr, cell := x.cell, thread := x.thread, tag := x.tag, addr := x.addr
          kind := match x.kind with
            | .get => RemoteKind.read x.len
            | .put => .write x.data
            | .atom op b d => .atomic op b d }
  q.bind fun q => (q.packets c.pkg).find? fun p => p.tag == tag

/-- CLOSED at the origin (R492): the request is held and sent again later. -/
def Chip.gotClosed (c : Chip) (p : Packet) : Chip :=
  if p.tag = relayTag then (c.bump rPWR_CLOSEDRSP).holdPkt (c.relayOp p.src 0 1 0 []) false else
  match c.askAgain p.tag with
  | none => c
  | some q => (c.bump rPWR_CLOSEDRSP).holdPkt q false

/-- BOUNCE at the origin (R492): the write joins its return queue. -/
def Chip.gotBounce (c : Chip) (p : Packet) : Chip :=
  (c.bump rPWR_BOUNCED).holdPkt { typ := tWRITE, dst := addrPkg p.addr, src := c.pkg, tag := p.tag, addr := p.addr, data := p.data } true

/-- A bounced write reached PWR_BOUNCE.LIMIT (R495): its transfer fails with BOUNCE_EXPIRED. -/
def Chip.dropHeld (c : Chip) (e : HeldPacket) : Chip :=
  ({ c with net := { c.net with held := c.net.held.erase e } }).requestFails e.pkt.dst e.pkt.tag 8

/-! ### The home package -/

/-- The depot fabric and the memory serve object traffic (R492). -/
def Chip.memServes (c : Chip) : Bool := c.islOpen 10 && c.islOpen 11

/-- The pieces that READ_DATA carries: runs of 512 B, cut to 64 B where poison lies in a run. -/
def readPieces (n : Nat) (bad : List Nat) : List (Nat × Nat × Bool) :=
  (List.range (ceilDiv n 512)).flatMap fun k =>
    let len := min 512 (n - 512 * k)
    if bad.any fun u => decide (8 * k ≤ u) && decide (u < 8 * k + 8) then
      (List.range (ceilDiv len 64)).map fun j => (512 * k + 64 * j, 64, decide (8 * k + j ∈ bad))
    else [(512 * k, len, false)]

/-- A READ at its home (R352). `obs` and `line` say what the read meets in its ECC. -/
def Chip.serveRead (c : Chip) (p : Packet) (obs line : Nat) : Chip :=
  let n := fieldAt p.data 0 4
  let off := addrOff p.addr
  if !c.memServes then c.answer (p.answer tCLOSED 0 [])
  else if !(c.addrGood p.addr n) || addrPkg p.addr != c.pkg || n % 64 != 0 || n == 0 || decide (4096 < n) then
    c.answer (p.answer tERROR 1 [])
  else
    let unit := off / 64 * 64 + 64 * (line % max (ceilDiv n 64) 1)
    let c : Chip := if (c.mem.readFails off n).isNone then { c with mem := c.mem.readEcc obs unit } else c
    match c.homeRead off n with
    | (.inl e, c) => c.answer (p.answer tERROR e [])
    | (.inr (bs, bad), c) =>
      (readPieces n bad).foldl (fun c (e : Nat × Nat × Bool) => c.answer (p.answer tREADDATA 0
        (leBytes 4 e.1 ++ leBytes 1 (bit e.2.2) ++ leBytes 27 0 ++ (bs.drop e.1).take e.2.1))) c

/-- The 64-byte units of a page that a range covers whole. -/
def coverMask (page off n : Nat) : Nat :=
  maskOf ((List.range 64).filter fun k => decide (off ≤ page * 4096 + 64 * k) && decide (page * 4096 + 64 * k + 64 ≤ off + n))

/-- One page that a packet of another package's XPUT has written: once the XPUT covers it whole, its mark is cleared (R224). -/
def Chip.coverPage (c : Chip) (src tag off n : Nat) (page : Nat) : Chip :=
  let mine := fun (e : Cover) => e.src == src && e.tag == tag && e.page == page
  let m := (((c.net.covers.find? mine).map (·.mask)).getD 0) ||| coverMask page off n
  let l := c.net.covers.filter fun e => !mine e
  if m = 2 ^ 64 - 1 ∧ (c.mem.wagon (page / 16)).loc ≠ .unbacked then { c with mem := c.mem.clearPage page, net := { c.net with covers := l } }
  else { c with net := { c.net with covers := l ++ [{ src := src, tag := tag, page := page, mask := m }] } }

/-- A performed WRITE packet of an XPUT counts toward the pages that the XPUT covers (R224, log entry 18). Its first packet begins anew. -/
def Chip.coverWrite (c : Chip) (p : Packet) : Chip :=
  if p.tag = relayTag then c
  else
    let tag := p.tag % 2 ^ 17
    let c : Chip := if tagPart p.tag = 0 then { c with net := { c.net with covers := c.net.covers.filter fun e => !(e.src == p.src && e.tag == tag) } } else c
    (pagesOf (addrOff p.addr) p.data.length).foldl (fun c pg => c.coverPage p.src tag (addrOff p.addr) p.data.length pg) c

/-- A WRITE at its home (R352). -/
def Chip.serveWrite (c : Chip) (p : Packet) : Chip :=
  if !c.memServes then c.answer (p.answer tBOUNCE 0 p.data)
  else if !(c.addrGood p.addr p.data.length) || addrPkg p.addr != c.pkg then c.answer (p.answer tERROR 1 [])
  else match c.homeWrite (addrOff p.addr) p.data [] with
    | (some e, c) => c.answer (p.answer tERROR e [])
    | (none, c) => (c.coverWrite p).answer (p.answer tWRITEACK 0 [])

/-- An ATOMIC at its home (R182, R352). -/
def Chip.serveAtomic (c : Chip) (p : Packet) (obs : Nat) : Chip :=
  let off := addrOff p.addr
  if !c.memServes then c.answer (p.answer tCLOSED 0 [])
  else if !(c.addrGood p.addr 8) || addrPkg p.addr != c.pkg || off % 8 != 0 then c.answer (p.answer tERROR 1 [])
  else
    let c : Chip := if (c.mem.readFails off 8).isNone then { c with mem := c.mem.readEcc obs (off / 64 * 64) } else c
    match c.homeAtomic off (fieldAt p.data 0 1) (fieldAt p.data 8 8) (fieldAt p.data 16 8) with
    | (.inl e, c) => c.answer (p.answer tERROR e [])
    | (.inr old, c) => c.answer (p.answer tATOMICRESP 0 (leBytes 8 old ++ leBytes 24 0))

/-- Answer a ring operation of another package with a status word. -/
def Chip.ringReply (c : Chip) (pkg tag word : Nat) : Chip :=
  c.answer { typ := tRINGRESP, dst := pkg, src := c.pkg, tag := tag, data := leBytes 8 word ++ leBytes 24 0 }

/-- A status that names no item, its other bits a free value (log entry 15). -/
def Chip.ringReplyBare (c : Chip) (pkg tag st : Nat) : Chip :=
  let (v, c) := c.draw
  c.ringReply pkg tag ((v * 256 + st) % 2 ^ 64)

/-- A RING_OP at its home (R241–R243, R352). -/
def Chip.serveRing (c : Chip) (p : Packet) : Chip :=
  let r := refRing p.addr
  let op := fieldAt p.data 0 1
  let n := fieldAt p.data 1 1
  let seq := bitsOf (fieldAt p.data 8 8) 63 32
  let mine := fun (i : RItem) => match i.producer with | .remote pkg _ _ => pkg == p.src | _ => false
  if !c.islOpen 10 then c.answer (p.answer tCLOSED 0 [])
  else if !refOk p.addr || !(if p.tag = relayTag then r == 0 else decide (0x10 ≤ r) && (c.im.rings.any fun e => e.ring == r) && (c.ringProd r).testBit 1) ||
      (op == 0 && (n == 0 || decide (64 < n))) || decide (2 < op) then c.ringReplyBare p.src p.tag stDenied
  else if op = 0 then
    if (c.ring r).st = .closed then c.ringReplyBare p.src p.tag stClosed
    else if c.ringMaxWords r < n then c.ringReplyBare p.src p.tag stBadsize
    else if c.canGrant r n then
      let (it, c) := c.grant r n (.remote p.src 0 p.tag)
      c.ringReply p.src p.tag (statusWord it.seq n 0 stOk).toNat
    else if fieldAt p.data 2 2 = 1 then c.ringReplyBare p.src p.tag stFull
    else c.setRing r fun x => { x with waitRes := x.waitRes ++ [{ who := .remote p.src 0 p.tag, words := n }] }
  else
    match (c.ring r).item? seq with
    | none => if op = 1 then c.ringReply p.src p.tag (statusWord seq 0 0 stOk).toNat else c.ringReply p.src p.tag (statusWord seq 0 0 stVoid).toNat
    | some i =>
      let live := i.st == .reserved && mine i
      if op = 1 then
        let first := fieldAt p.data 2 2
        let bs := p.data.drop 32
        let c := if live && decide (first + bs.length / 64 ≤ i.words) then c.setRingWords r (i.idx + first) bs else c
        c.ringReply p.src p.tag (statusWord seq i.words 0 stOk).toNat
      else if live && hdrGood (c.ringWord r i.idx) then (c.commitItem r seq false).ringReply p.src p.tag (statusWord seq i.words 0 stOk).toNat
      else (if live then c.voidItem r seq else c).ringReply p.src p.tag (statusWord seq i.words 0 stVoid).toNat

end Sys2Proof.Machine
end

