-- ==== Sys2Proof/Machine/Departures.lean ====
section
/-! DEFINITION. Arming, cancelling and firing departures, and the departure log (04_islands_and_timetable.md R122–R131). -/

namespace Sys2Proof.Machine

/-- STATUS of a departure-log item (R131). -/
def depFired : Nat := 0x01
def depLate : Nat := 0x02
def depCancelled : Nat := 0x03
def depDropped : Nat := 0x04
def depDeferred : Nat := 0x05
def depTooLate : Nat := 0x06
def depFull : Nat := 0x07
def depClampedSt : Nat := 0x08
def depAbort : Nat := 0x09
def depInvalid : Nat := 0x0A

/-- Write a departure-log item, or count it lost (R131). -/
def Chip.logDep (c : Chip) (status time fired id : Nat) (d : Departure) : Chip :=
  let bytes := mkHeader 1 0x06 0 0 0 ++ leBytes 8 time ++ leBytes 8 fired ++ leBytes 2 d.action ++ leBytes 2 d.scope ++
    leBytes 2 d.order ++ leBytes 1 status ++ leBytes 1 0 ++ leBytes 4 id ++ leBytes 4 0 ++ leBytes 8 d.arg ++
    leBytes 8 c.tt.turnNum
  match c.enginePut 4 bytes with
  | some c => c
  | none => c.bump rTT_LOGLOST

/-- TIME of a departure for a cancel and the log: the tick of an absolute one, the next firing of a periodic one, in this turn while it is due
and else in the next turn that it belongs to (R121, R124). -/
def Chip.depTick (c : Chip) (d : Departure) : Nat :=
  match d.whenAt with
  | .once t => t
  | .periodic n phase =>
    if d.due then c.tt.boundary + min phase (c.tt.turnLen c.turnPeriod - 1)
    else
      let later := if n = 0 then 0 else n - c.tt.turnNum % n - 1
      c.tt.nextBoundary c.turnPeriod + later * c.turnPeriod + min phase (c.turnPeriod - 1)

/-- The image has an express tree 0 (R123). -/
def Chip.hasTree0 (c : Chip) : Bool := c.im.trees.any fun t => t.tree == 0

/-- A request to arm a departure (R122). -/
structure DepReq where
  whenAt : DepWhen
  action : Nat
  scope : Nat
  order : Nat
  arg : Nat
  log : Bool
  src : DepSource
  armedBy : Option (Nat × Nat) := none
  deriving DecidableEq, Repr

def DepReq.dep (q : DepReq) (id armNo : Nat) : Departure :=
  { id := id, whenAt := q.whenAt, action := q.action, scope := q.scope, order := q.order, arg := q.arg, log := q.log
    armNo := armNo, armedBy := q.armedBy }

/-- The first check of R123 that refuses a request: INVALID, TOO_LATE, then FULL; none when it may be armed (log entry 12). Before step 17 no departure
is armed (R64). -/
def Chip.armCheck (c : Chip) (q : DepReq) : Option Nat :=
  let codes := match actionScopes q.action q.scope with | some ok => ok && actionSource q.action q.src | none => false
  if !codes || (scopeWide q.scope && !c.hasTree0) || decide (c.boot.step < 17) then some depInvalid
  else
    let late := match q.whenAt with
      | .once t => decide (t < c.tt.counter + armLead q.scope)
      | .periodic _ _ => false
    if late then some depTooLate
    else if 4096 ≤ c.tt.deps.length then some depFull
    else none

/-- A refused request: counted and logged (R131, R137). -/
def Chip.refuseDep (c : Chip) (q : DepReq) (status : Nat) : Chip :=
  let c := if status = depTooLate then c.bumpField rTT_DEPREJ 15 0 1
    else if status = depFull then c.bumpField rTT_DEPREJ 31 16 1 else c
  let d := q.dep 0xFFFFFFFF 0
  c.logDep status (c.depTick d) 0 0xFFFFFFFF d

/-- Take a slot for a departure (R122, R137). -/
def Chip.addDep (c : Chip) (q : DepReq) (held : Bool) : Nat × Chip :=
  let id := c.tt.nextId
  let d := { q.dep id c.tt.armNo with held := held, due := match q.whenAt with | .once _ => true | .periodic _ _ => false }
  let c : Chip := { c with tt := { c.tt with
    deps := c.tt.deps ++ [d], spent := c.tt.spent.filter fun x => x.id != id, nextId := (id + 1) % 0xFFFFFFFF, armNo := c.tt.armNo + 1 } }
  (id, if c.reg rTT_DEP < c.tt.deps.length then c.setReg rTT_DEP c.tt.deps.length else c)

/-- Arm a departure of this package (R123): the status, or 0 with its identifier. -/
def Chip.armDep (c : Chip) (q : DepReq) : Nat × Nat × Chip :=
  match c.armCheck q with
  | some st => (st, 0xFFFFFFFF, c.refuseDep q st)
  | none =>
    let r := c.addDep q false
    (0, r.1, r.2)

/-- Cancel a departure while its time is at least the arming lead away (R124): true when cancelled. -/
def Chip.cancelDep (c : Chip) (id : Nat) : Bool × Chip :=
  match c.tt.deps.find? (fun d => d.id == id) with
  | none => (false, c)
  | some d =>
    let t := c.depTick d
    if c.tt.counter + armLead d.scope ≤ t then
      (true, ({ c with tt := c.tt.dropDep d }).logDep depCancelled t 0 id d)
    else (false, c.logDep depTooLate t 0 id d)

/-- A scope narrowed to one firing island (R130). -/
def scopeOn (s isl : Nat) : Nat := if isPlatScope s then 0x300 + 2 ^ (isl - 2) else s

/-- Take a departure out of its slot after a firing; a periodic one keeps it (R122). -/
def Timetable.spendDep (t : Timetable) (d : Departure) : Timetable :=
  match d.whenAt with
  | .periodic n _ =>
    if n = 0 then t.dropDep d
    else { t with deps := t.deps.map fun x => if x.id = d.id then { x with due := false } else x }
  | .once _ => t.dropDep d

/-- AMEND_COMMIT and WEIGHT_SWITCH wait for a closed island (R130). -/
def depDefers (a : Nat) : Bool := a == 0x0020 || a == 0x0030

/-- What waits for an open edge: an action of each island that is held; of a TASK_POST, which posts one task, the part that no unit took (R275). -/
def heldParts (d : Departure) (t : Nat) (ready held : List Nat) : List Departure :=
  if d.action ≠ 0x0050 ∨ !isPlatScope d.scope then held.map fun i => { d with scope := scopeOn d.scope i, whenAt := .once t }
  else if ready.isEmpty ∧ !held.isEmpty then [{ d with scope := 0x300 + maskOf (held.map fun i => i - 2), whenAt := .once t }]
  else []

/-- A departure that is out of its slot fires at its tick `t`: `eff` acts with the islands that are open to it
(every island for ISLAND_STATE); the others drop it, hold it, or, while OPENING, take it after their open edge (R128, R130).
`drops` is a further reason to drop it. -/
def Chip.fireOn (c : Chip) (d : Departure) (t : Nat) (late clamped : Bool) (eff : Departure → List Nat → Chip → Chip)
    (drops : Departure → Chip → Bool) : Chip :=
  let units := depIslands d
  let ready := if d.action = 0x0060 then units else units.filter c.islOpen
  let shut := if d.action = 0x0060 then [] else units.filter fun i => !c.islOpen i
  let held := shut.filter fun i => depDefers d.action || decide ((c.island i).st = .opening)
  let lost := shut.filter fun i => !(depDefers d.action || decide ((c.island i).st = .opening))
  let c : Chip := { c with tt := { c.tt with
    deferred := c.tt.deferred ++ heldParts d t ready held } }
  let c := if (held.any fun i => depDefers d.action && decide ((c.island i).st ≠ .opening)) = true
    then c.logDep depDeferred t 0 d.id d else c
  let c := if lost.isEmpty then c else c.logDep depDropped t 0 d.id d
  if ready.isEmpty then c
  else if drops d c then c.logDep depDropped t 0 d.id d
  else
    let c := if late then c.logDep depLate t c.tt.counter d.id d
      else if clamped then c.logDep depClampedSt t c.tt.counter d.id d
      else if d.log || d.action == 0x0001 then c.logDep depFired t c.tt.counter d.id d else c
    eff d ready c

/-- The package at the tick of a firing, with the departure out of its slot or, when periodic, not due in this turn any more (R122). -/
def Chip.atFiring (c : Chip) (d : Departure) (t : Nat) : Chip := { c.reachTick t with tt := (c.reachTick t).tt.spendDep d }

/-- Fire the next departure when it is the one a command stands for. -/
def Chip.fireDep (c : Chip) (isIt : Departure → Bool) (eff : Departure → List Nat → Chip → Chip)
    (drops : Departure → Chip → Bool := fun _ _ => false) : Chip :=
  match nextDep c.tt c.turnPeriod with
  | none => c
  | some d =>
    if !isIt d then c
    else
      let t := (depTime c.tt c.turnPeriod d).getD 0
      (c.atFiring d t).fireOn d t (decide (t < c.tt.counter)) (depClamped c.tt c.turnPeriod d) eff drops

/-- Arm the periodic departures that belong to the turn that begins (R99, R121). -/
def Timetable.dueAtBoundary (t : Timetable) (first : Bool) : Timetable :=
  { t with deps := t.deps.map fun d =>
      match d.whenAt with
      | .once _ => d
      | .periodic n _ => { d with due := if n = 0 then first || d.due else decide (t.turnNum % n = 0) } }

end Sys2Proof.Machine
end

