-- ==== Sys2Proof/Machine/TimeOps.lean ====
section
/-! DEFINITION. The parent, the root, lock, holdover and the turn grid (04_islands_and_timetable.md R111–R119; 02_start_up.md R64, R65). -/

namespace Sys2Proof.Machine

def Chip.setTt (c : Chip) (f : Timetable → Timetable) : Chip := { c with tt := f c.tt }

def halfKey (l h : Nat) : Nat := 2 * l + h

/-- This package's half-links in the routes (UP or WIDTHCHG). -/
def Chip.upHalves (c : Chip) : List (Nat × Nat) :=
  allHalves.filter fun (e : Nat × Nat) => (c.half e.1 e.2).st == .up || (c.half e.1 e.2).st == .widthchg

/-- The sync station that the roster names (R97). -/
def Image.syncStation (im : Image) : Option Nat := (im.roster.find? (·.sync)).map (·.num)

/-- The order of roots: the sync station, then the lower number (R113, R139). -/
def Image.rootRank (im : Image) (r : Nat) : Nat := if im.syncStation = some r then 0 else r + 1

def lexLt (a b : Nat × Nat × Nat) : Bool :=
  decide (a.1 < b.1) || (a.1 == b.1 && (decide (a.2.1 < b.2.1) || (a.2.1 == b.2.1 && decide (a.2.2 < b.2.2))))

/-- The best parent that the exchanges offer: the root's rank, the peer's depth and the half-link. -/
def Chip.bestOffer (c : Chip) : Option (Nat × Nat × Nat) :=
  c.tt.exch.foldl (fun (a : Option (Nat × Nat × Nat)) (e : Nat × Exchange) =>
    let up := c.upHalves.any fun (u : Nat × Nat) => halfKey u.1 u.2 == e.1
    if up ∧ e.2.ptime ∧ e.2.depth < 0xFF ∧ e.2.root ≠ 0xFFFF ∧ e.2.root ≠ c.pkg ∧ c.reachable false e.2.root then
      let k := (c.im.rootRank e.2.root, e.2.depth, e.1)
      match a with
      | none => some k
      | some b => if lexLt k b then some k else a
    else a) none

/-- This package stands before another as a root, or the other is not reachable (R113). -/
def Chip.before (c : Chip) (r : Nat) : Bool := r == c.pkg || !c.reachable false r || decide (c.im.rootRank c.pkg < c.im.rootRank r)

/-- No reachable package that is known to carry partition time, a neighbour or the root it names, stands before this one as a root (R113). -/
def Chip.mayRoot (c : Chip) : Bool :=
  !c.upHalves.isEmpty && c.upHalves.all fun (u : Nat × Nat) =>
    match c.tt.exch.find? fun e => e.1 == halfKey u.1 u.2 with
    | some e => !e.2.ptime || (c.before (c.half u.1 u.2).peerPkg && (e.2.root == 0xFFFF || c.before e.2.root))
    | none => true

/-- A package that carries partition time follows another root than before: the two sides of a split partition rejoin (R139). -/
def Timetable.newRoot (t : Timetable) (root : Nat) : Bool := t.carries && t.rootPkg.isSome && t.rootPkg != some root

/-- Set a half-link as the parent. After HOLDOVER or FREERUN, and on the losing side of a rejoined partition, the next exchange
decides the correction (R117, R139). -/
def Chip.takeParent (c : Chip) (key depth root : Nat) : Chip :=
  let c := c.setTt fun t => { t with
    rejoin := t.rejoin || t.newRoot root || t.st == .holdover || t.st == .freerun || t.st == .root, merge := t.merge || t.newRoot root }
  if c.tt.parent = some key then c.setTt fun t => { t with depth := depth, rootPkg := some root }
  else
    c.setTt fun t => { t with
      parent := some key, depth := depth, rootPkg := some root, lockRun := 0, outRun := 0, base := none
      st := match t.st with | .start => .acquire | .holdover => .acquire | .freerun => .acquire | .root => .acquire | x => x }

/-- Steer toward no parent any more. -/
def Chip.dropParent (c : Chip) : Chip :=
  c.setTt fun t => { t with parent := none, depth := 0, rootPkg := none, lockRun := 0, outRun := 0, base := none, slewing := false }

/-- No parent is usable, and the root is not this package's to take (R114, R116, R119): hold over; before first lock wait. -/
def Chip.holdOver (c : Chip) : Chip :=
  c.dropParent.setTt fun t => { t with st := if t.carries then .holdover else if t.running then .freerun else .start }

/-- No parent is left (R113, R116): take the root, or hold over. -/
def Chip.loseParent (c : Chip) : Chip :=
  if c.tt.carries ∧ c.mayRoot then c.dropParent.setTt fun t => { t with st := .root, rootPkg := some c.pkg } else c.holdOver

/-- Choose the parent again (R113, R114, R119, R139). -/
def Chip.chooseParent (c : Chip) : Chip :=
  let self := if c.tt.carries ∧ !c.upHalves.isEmpty ∧ (c.tt.st = .root ∨ c.im.syncStation = some c.pkg) then some (c.im.rootRank c.pkg) else none
  match c.bestOffer with
  | none => if c.tt.st = .root ∧ !c.upHalves.isEmpty then c else c.loseParent
  | some (rank, depth, key) =>
    let better := match self with | none => true | some r => decide (rank < r)
    if !better then
      c.setTt fun t => { t with parent := none, depth := 0, st := .root, rootPkg := some c.pkg }
    else
      match c.tt.exch.find? fun e => e.1 == key with
      | none => c
      | some e =>
        if e.2.turnPeriod ≠ c.turnPeriod then
          let c := if c.tt.gridMismatch then c else c.notice 119 0
          let c := c.setTt fun t => { t with gridMismatch := true }
          if c.tt.parent = some key ∨ c.tt.st = .acquire then c.holdOver else c
        else
          let c := c.setTt fun t => { t with gridMismatch := false }
          if 8 < depth + 1 then c.holdOver else c.takeParent key (depth + 1) e.2.root

/-! ### Lock and the grid -/

/-- The first turn boundary is the first of a grid at least 1 ms ahead (R64, R65): the current boundary is the one before it. -/
def Timetable.startGrid (t : Timetable) (period grid num : Nat) : Timetable :=
  let k := ceilDiv (t.counter + tMs - grid) (max period 1) - 1
  { t with boundary := grid + k * period, turnNum := num + k, shift := 0, running := true }

/-- Arm the seed departures, in section order, at step 17 (R99); a package that waited for lock no longer does (R65, R69), and one in start-up stop
arms nothing (R67). A wide one is armed here without an exchange (log entry 85). -/
def Chip.armSeeds (c : Chip) : Chip :=
  if c.boot.stopped then c
  else
  let c := c.im.seeds.foldl (fun c s =>
    if 4096 ≤ c.tt.deps.length then c
    else (c.addDep { whenAt := .periodic s.periodTurns s.phase, action := s.action, scope := s.scope, order := s.order, arg := s.arg
                     log := false, src := .seed } false).2) c
  { c with boot := { c.boot with step := 17, code := if c.boot.code = 3 then 0 else c.boot.code } }

/-- How far the grid stands from a boundary of the parent's, reduced into half a turn (R65, R134). -/
def gridOffset (boundary period : Nat) (e : Exchange) : Int :=
  let t : Int := (max period 1 : Nat)
  let r := ((e.grid : Int) - (boundary : Int)) % t
  if t < 2 * r then r - t else r

/-- At lock the turn number is the parent's for the nearest boundary of its grid (R118), and the grid moves there as sync moves it (R65). -/
def Chip.alignTo (c : Chip) (e : Exchange) : Chip :=
  let p := max c.turnPeriod 1
  c.setTt fun t => { t with
    align := true
    turnNum := (((e.turnNum : Int) + ((t.boundary : Int) + gridOffset t.boundary p e - (e.grid : Int)) / (p : Int)) % 2 ^ 64).toNat }

/-- The package takes partition time for the first time, with the grid it starts from. -/
def Chip.enterTime (c : Chip) (st : TtSt) (grid num : Nat) : Chip :=
  let period := c.turnPeriod
  let fresh := !c.tt.running
  let c : Chip := if c.tt.lockedOnce then c else { c with amd := { c.amd with since := c.tt.counter } }
  let c := c.setTt fun t => { t with st := st, carries := true, lockedOnce := true, lockRun := 0, outRun := 0, base := none }
  if fresh then (c.setTt fun t => t.startGrid period grid num).armSeeds else c

/-! ### Steering (R115, R117) -/

def nominalRate : Nat := 0x1000000000
/-- 200 ppm and 100 ppm of the nominal rate word. -/
def trimMax : Nat := 13743895
def trimSlew : Nat := 6871947

/-- Where the loop sets the rate word within its range is a free value (log entry 20). -/
def Chip.steerFree (c : Chip) : Chip :=
  let (v, c) := c.draw
  c.setTt fun t => { t with rate := nominalRate - trimMax + v % (2 * trimMax + 1) }

/-- Move the counter by a signed number of ticks; it counts modulo 2⁶⁴ (R7). -/
def Timetable.jump (t : Timetable) (d : Int) : Timetable := { t with counter := (((t.counter : Int) + d) % 2 ^ 64).toNat }

/-- An offset in sixteenths of a tick, to the nearest tick. -/
def toTicks (d : Int) : Int := (d + 8) / 16

/-- 0.5 ns, 1 ns and 10 µs in sixteenths of a tick. -/
def offHalfNs : Int := 128
def offOneNs : Int := 256
def offTenUs : Int := 2560000

/-- The decision of R117 on the first offset to a new parent; a package of a rejoined partition logs its correction (R139). -/
def Chip.rejoinBy (c : Chip) (d : Int) : Chip :=
  let merge := c.tt.merge
  let c := c.setTt fun t => { t with rejoin := false, merge := false }
  if -offTenUs ≤ d ∧ d ≤ offTenUs then
    let slew := decide (offHalfNs < d ∨ d < -offHalfNs)
    let c := c.setTt fun t => { t with slewing := slew }
    if merge && slew then c.notice 139 0 else c
  else if 0 < d then (c.setTt fun t => { t with stepBy := (toTicks d).toNat }).notice 117 0
  else (c.setTt fun t => { t with hold := (toTicks (-d)).toNat }).notice 117 0

/-- The parent's offset steers the counter, and decides lock (R115, R117). -/
def Chip.steer (c : Chip) (d : Int) (e : Exchange) : Chip :=
  let ticks := max (-(2 ^ 31)) (min (toTicks d) (2 ^ 31 - 1))
  let c := c.setReg rTT_OFFSET (ticks % 2 ^ 32).toNat
  if !c.tt.lockedOnce && !c.tt.running then
    let near := match c.tt.base with | none => false | some b => decide (-offHalfNs ≤ d - b ∧ d - b ≤ offHalfNs)
    let c := c.setTt fun t => { t with base := if near then t.base else some d, lockRun := if near then t.lockRun + 1 else 1 }
    let c := c.steerFree
    if 16 ≤ c.tt.lockRun ∧ c.tt.st = .acquire ∧ c.boot.step = 16 then
      (c.setTt fun t => t.jump (toTicks d)).enterTime .locked e.grid e.turnNum
    else c
  else
    let c := if c.tt.rejoin then c.rejoinBy d else c
    let near := decide (-offHalfNs ≤ d ∧ d ≤ offHalfNs)
    let far := decide (d < -offOneNs ∨ offOneNs < d)
    let c := if c.tt.slewing && !near then
        c.setTt fun t => { t with rate := if 0 < d then nominalRate + trimSlew else nominalRate - trimSlew }
      else (c.setTt fun t => { t with slewing := false }).steerFree
    let c := c.setTt fun t => { t with lockRun := if near then t.lockRun + 1 else 0, outRun := if far then t.outRun + 1 else 0 }
    if c.tt.st = .acquire ∧ 16 ≤ c.tt.lockRun then
      (if c.tt.lockedOnce then c.setTt fun t => { t with st := .locked, carries := true } else c.enterTime .locked e.grid e.turnNum).alignTo e
    else if c.tt.st = .locked ∧ 16 ≤ c.tt.outRun then c.setTt fun t => { t with st := .acquire, outRun := 0, lockRun := 0 }
    else c

/-- How far the grid stands from the parent's, reduced into half a turn and clipped to the sync window (R65, R134). -/
def Chip.gridShift (c : Chip) : Int :=
  match c.tt.parent.bind fun k => (c.tt.exch.find? fun e => e.1 == k).map (·.2) with
  | none => 0
  | some e =>
    let t : Int := (max c.turnPeriod 1 : Nat)
    max (-(t / 8)) (min (gridOffset c.tt.boundary c.turnPeriod e) (t / 8))

end Sys2Proof.Machine
end

