-- ==== Sys2Proof/Machine/Trees.lean ====
section
/-! DEFINITION. Express trees and the two-phase arming of yard and partition departures (14_collectives.md R369, R372, R382, R385; 04 R129). -/

namespace Sys2Proof.Machine

/-! ### Trees (R98, R372) -/

def Image.treeEntry (im : Image) (t pkg : Nat) : Option TreeEntry := im.trees.find? fun e => e.tree == t && e.pkg == pkg

/-- The parent of a package on a tree: its link there, and the package behind it. -/
def Image.treeParent (im : Image) (t pkg : Nat) : Option (Nat × Nat) :=
  match im.treeEntry t pkg with
  | none => none
  | some e =>
    if e.parent = 0xFF then none
    else
      let p := im.linkPlan pkg e.parent
      let far := (halvesOf p.kind).find? fun h =>
        let (q, m) := p.peer h
        match im.treeEntry t q with | some f => f.childMask.testBit m | none => false
      far.map fun h => (e.parent, (p.peer h).1)

/-- The children of a package on a tree, in ascending link number. -/
def Image.treeChildren (im : Image) (t pkg : Nat) : List (Nat × Nat) :=
  match im.treeEntry t pkg with
  | none => []
  | some e => (maskList 24 e.childMask).flatMap fun l =>
      let p := im.linkPlan pkg l
      ((halvesOf p.kind).filter fun h =>
        let (q, m) := p.peer h
        match im.treeEntry t q with | some f => f.parent == m | none => false).map fun h => (l, (p.peer h).1)

/-- The members of a span: the whole roster, or a yard (R369). -/
def Image.members (im : Image) (yard : Option Nat) : List Nat :=
  (im.roster.map (·.num)).filter fun p => match yard with | none => true | some y => yardOf p == y

def inSpan (yard : Option Nat) (p : Nat) : Bool := match yard with | none => true | some y => yardOf p == y

/-- The parent and the children of a package inside a span. -/
def Image.spanParent (im : Image) (t pkg : Nat) (yard : Option Nat) : Option (Nat × Nat) :=
  (im.treeParent t pkg).filter fun e => inSpan yard e.2
def Image.spanChildren (im : Image) (t pkg : Nat) (yard : Option Nat) : List (Nat × Nat) :=
  (im.treeChildren t pkg).filter fun e => inSpan yard e.2

/-- The depth of a package on a tree (R372), with fuel for its longest path. -/
def Image.treeDepth (im : Image) (t : Nat) : Nat → Nat → Nat
  | 0, _ => 0
  | n + 1, pkg => match im.treeParent t pkg with | none => 0 | some (_, q) => im.treeDepth t n q + 1

/-- The top of a package's path inside a span. -/
def Image.spanTop (im : Image) (t : Nat) (yard : Option Nat) : Nat → Nat → Nat
  | 0, pkg => pkg
  | n + 1, pkg => match im.spanParent t pkg yard with | none => pkg | some (_, q) => im.spanTop t yard n q

/-- The tree's edges inside a span connect all of its packages: all reach one top. -/
def Image.spanWhole (im : Image) (t : Nat) (yard : Option Nat) : Bool :=
  match im.members yard with
  | [] => false
  | p :: rest =>
    let top := im.spanTop t yard 16 p
    rest.all fun q => im.spanTop t yard 16 q == top

/-- The state of a tree edge of a package (R382): 1 intact, 2 detoured, 3 broken. -/
def Chip.edgeState (c : Chip) (pkg l peer : Nat) : Nat :=
  let p := c.im.linkPlan pkg l
  if (halvesOf p.kind).any fun h => (p.peer h).1 == peer && c.edgeUp false pkg l h then 1
  else if yardOf peer ≠ yardOf pkg then 3
  else if (c.localHop false pkg peer).isSome then 2 else 3

/-- STATE of a tree over a span: 0 absent, else the worst of its edges (R382, R386). -/
def Chip.treeState (c : Chip) (t : Nat) (yard : Option Nat) : Nat :=
  if !c.im.trees.any fun e => e.tree == t then 0
  else (c.im.members yard).foldl (fun a p => match c.im.spanParent t p yard with
    | none => a
    | some (l, q) => max a (c.edgeState p l q)) 1

/-! ### PIP packets (R375) -/

/-- The 32-byte lead of an express packet. -/
def pipLead (tree op dtype flags inst bytes edge status origin launch : Nat) : List Byte :=
  leBytes 1 tree ++ leBytes 1 op ++ leBytes 1 dtype ++ leBytes 1 flags ++ leBytes 4 inst ++ leBytes 2 bytes ++ leBytes 1 edge ++
    leBytes 1 status ++ leBytes 2 origin ++ leBytes 2 0 ++ leBytes 8 launch ++ leBytes 8 0

/-- The link number at its parent of a package's edge (EDGE of R375). -/
def Chip.edgeAtParent (c : Chip) (t : Nat) (yard : Option Nat) : Nat :=
  match c.im.spanParent t c.pkg yard with
  | none => 0xFF
  | some (_, q) => (((c.im.treeChildren t q).find? fun e => e.2 == c.pkg).map (·.1)).getD 0xFF

/-- Send a packet to the parent; none at the top or where the edge is broken. -/
def Chip.toParent (c : Chip) (t : Nat) (yard : Option Nat) (p : Packet) : Option Chip :=
  match c.im.spanParent t c.pkg yard with
  | none => none
  | some (l, q) => c.sendEdge l q 0 p
/-- Send a packet to every child that an edge reaches. -/
def Chip.toChildren (c : Chip) (t : Nat) (yard : Option Nat) (stage : Nat) (p : Packet) : Chip :=
  (c.im.spanChildren t c.pkg yard).foldl (fun c (e : Nat × Nat) => (c.sendEdge e.1 e.2 stage p).getD c) c

/-! ### Two-phase arming (R129, R385) -/

def pipArm : Nat := 0x10
def pipAck : Nat := 0x11
def pipCancel : Nat := 0x12

def ArmRec.span (a : ArmRec) : Option Nat := if a.yard then some (yardOf a.pkg) else none

/-- A PIP packet of the arming protocol. -/
def Chip.armPacket (c : Chip) (a : ArmRec) (op : Nat) (down : Bool) (payload : List Byte) : Packet :=
  { typ := tPIP, dst := 0, src := c.pkg
    data := pipLead 0 op 0 (bit down + 8 * bit a.yard) a.dep (if op = pipArm then 48 else 16)
      (if down then 0xFF else c.edgeAtParent 0 none) 0 0 a.launch ++ pad32 payload }

def ArmRec.armBytes (a : ArmRec) : List Byte :=
  leBytes 8 a.time ++ leBytes 8 a.arg ++ leBytes 4 a.period ++ leBytes 2 a.action ++ leBytes 2 a.scope ++ leBytes 2 a.order ++
    leBytes 1 (bit a.log) ++ leBytes 1 0 ++ leBytes 4 a.dep ++ leBytes 2 a.pkg ++ leBytes 14 0

def ArmRec.ackBytes (a : ArmRec) (armed refused status : Nat) : List Byte :=
  leBytes 4 a.dep ++ leBytes 2 a.pkg ++ leBytes 2 armed ++ leBytes 2 refused ++ leBytes 1 status ++ leBytes 5 0

/-- Read an ARM payload (R385). -/
def parseArm (d : List Byte) : ArmRec :=
  let b := d.drop 32
  { pkg := fieldAt b 32 2, dep := fieldAt b 28 4, yard := (fieldAt d 3 1).testBit 3, launch := fieldAt d 16 8, time := fieldAt b 0 8
    period := fieldAt b 16 4, action := fieldAt b 20 2, scope := fieldAt b 22 2, order := fieldAt b 24 2, arg := fieldAt b 8 8
    log := (fieldAt b 26 1).testBit 0 }

def Chip.armRec? (c : Chip) (pkg dep : Nat) : Option ArmRec := c.arms.find? fun a => a.pkg == pkg && a.dep == dep
def Chip.setArm (c : Chip) (pkg dep : Nat) (f : ArmRec → ArmRec) : Chip :=
  { c with arms := c.arms.map fun a => if a.pkg = pkg ∧ a.dep = dep then f a else a }
def Chip.dropArm (c : Chip) (pkg dep : Nat) : Chip := { c with arms := c.arms.filter fun a => !(a.pkg == pkg && a.dep == dep) }

/-- The source class under which a member checks a record: the arming package has checked its own (R126). -/
def armSource (a : Nat) : DepSource :=
  if a = 0x0010 then .syncStation else if a = 0x0011 ∨ a = 0x0020 then .amendA else .seed

def ArmRec.req (a : ArmRec) : DepReq :=
  { whenAt := if a.period = 0 then .once a.time else .periodic a.period a.time, action := a.action, scope := a.scope, order := a.order
    arg := a.arg, log := a.log, src := armSource a.action }

/-- This package arms a record that it holds, or finds it refused (R123, R385). -/
def Chip.holdRecord (c : Chip) (a : ArmRec) : Chip :=
  let a := { a with askedAt := c.elapsed }
  if (c.armRec? a.pkg a.dep).isSome then c
  else if !(inSpan a.span c.pkg) then { c with arms := c.arms ++ [a] }
  else
    match c.armCheck a.req with
    | some st => { (c.refuseDep a.req st) with arms := c.arms ++ [{ a with refused := st }] }
    | none =>
      let (id, c) := c.addDep a.req false
      { c with arms := c.arms ++ [{ a with localDep := some id }] }

/-- A departure is taken away before it fires (R129), with the status and the identifier that its log item gives (R131). -/
def Chip.unarm (c : Chip) (id status logId : Nat) : Chip :=
  match c.tt.deps.find? fun d => d.id == id with
  | none => c
  | some d => ({ c with tt := { c.tt with deps := c.tt.deps.filter fun x => x.id != id } }).logDep status (c.depTick d) 0 logId d

/-- The arming request of this package ends (R129): it stands, or it returns PARTITION_ABORT. -/
def Chip.armResult (c : Chip) (a : ArmRec) (good : Bool) : Chip :=
  let c := c.dropArm a.pkg a.dep
  let c := if good then c else match a.localDep with | some id => c.unarm id depAbort 0xFFFFFFFF | none => c
  match a.asker with
  | some (.thread cell thread) =>
    c.setThread cell thread fun t =>
      if t.st = .waitArm then
        { (t.setS (wD t.word) (BitVec.ofNat 64 (if good then a.dep * 2 ^ 32 else 0xFFFFFFFF * 2 ^ 32 + depAbort))).step with st := .run }
      else t
  | _ => c

/-- Send ARM_CANCEL as ARM travels, up to the root and then down (R385). -/
def Chip.sendCancel (c : Chip) (a : ArmRec) : Chip :=
  match c.im.spanParent 0 c.pkg a.span with
  | none => c.toChildren 0 a.span 0 (c.armPacket a pipCancel true (a.ackBytes 0 0 0))
  | some _ => (c.toParent 0 a.span (c.armPacket a pipCancel false (a.ackBytes 0 0 0))).getD c

def Chip.cancelArm (c : Chip) (a : ArmRec) : Chip := (c.sendCancel a).armResult a false

/-- Totals of a subtree: armed, refused, first status. -/
def ArmRec.totals (a : ArmRec) (self : Nat) : Nat × Nat × Nat :=
  let mine := if inSpan a.span self then (if a.localDep.isSome then (1, 0, 0) else (0, 1, a.refused)) else (0, 0, 0)
  a.acks.foldl (fun (x : Nat × Nat × Nat) k => (x.1 + k.2.1, x.2.1 + k.2.2.1, if x.2.2 = 0 then k.2.2.2 else x.2.2)) mine

/-- The root's totals reach a package (R385): the arming package learns the outcome; others keep the record for an ARM_CANCEL. -/
def Chip.armTotals (c : Chip) (a : ArmRec) (armed refused : Nat) : Chip :=
  if a.pkg ≠ c.pkg ∨ a.asker = none then c
  else if refused = 0 ∧ armed = (c.im.members a.span).length ∧ c.elapsed ≤ a.askedAt + 10 * tUs then c.armResult a true
  else c.cancelArm a

/-- Acknowledge upward once this package and every child have answered; the root sends the totals down. -/
def Chip.ackUp (c : Chip) (pkg dep : Nat) : Chip :=
  match c.armRec? pkg dep with
  | none => c
  | some a =>
    let kids := c.im.spanChildren 0 c.pkg a.span
    if a.acked || !a.downSeen || !(kids.all fun k => a.acks.any fun x => x.1 == k.2) then c
    else
      let (armed, refused, status) := a.totals c.pkg
      let c := c.setArm pkg dep fun a => { a with acked := true }
      match c.im.spanParent 0 c.pkg a.span with
      | some _ => (c.toParent 0 a.span (c.armPacket a pipAck false (a.ackBytes armed refused status))).getD c
      | none =>
        let c := c.toChildren 0 a.span 0 (c.armPacket a pipAck true (a.ackBytes armed refused status))
        match c.armRec? pkg dep with
        | some a => c.armTotals a armed refused
        | none => c

/-- Forget the records of other packages that no ARM_CANCEL can follow: their departure is gone, or they armed none and the arming package's time is
over. -/
def Chip.armPrune (c : Chip) : Chip :=
  { c with arms := c.arms.filter fun a =>
      a.asker.isSome || !a.acked || (match a.localDep with
        | some id => c.tt.deps.any fun d => d.id == id
        | none => decide (c.elapsed ≤ a.askedAt + 20 * tUs)) }

/-- A record goes on from this package: up toward the root, or from the root down. -/
def Chip.armOn (c : Chip) (a : ArmRec) : Chip :=
  match c.im.spanParent 0 c.pkg a.span with
  | some _ => (c.toParent 0 a.span (c.armPacket a pipArm false a.armBytes)).getD c
  | none =>
    let c := c.setArm a.pkg a.dep fun a => { a with downSeen := true }
    (c.toChildren 0 a.span 0 (c.armPacket a pipArm true a.armBytes)).ackUp a.pkg a.dep

/-- Arm a yard or partition departure of this package (R129): a status of R123, or none when it now waits for the tree. -/
def Chip.armWide (c : Chip) (q : DepReq) (asker : ArmAsker) : Option Nat × Chip :=
  let yard := q.scope == 0x401
  let bad := yard && !(c.im.spanWhole 0 (some (yardOf c.pkg)))
  match if bad then some depInvalid else c.armCheck q with
  | some st => (some st, c.refuseDep q st)
  | none =>
    let (id, c) := c.addDep q false
    let (time, period) := match q.whenAt with | .once t => (t, 0) | .periodic n ph => (ph, n)
    let a : ArmRec :=
      { pkg := c.pkg, dep := id, yard := yard, launch := c.tt.counter, time := time, period := period, action := q.action, scope := q.scope
        order := q.order, arg := q.arg, log := q.log, localDep := some id, asker := some asker, askedAt := c.elapsed }
    let c : Chip := { c with arms := c.arms ++ [a] }
    (none, c.armOn a)

/-- Arm any departure: a wide one by an engine of the package goes over the tree. -/
def Chip.armAny (c : Chip) (q : DepReq) : Chip :=
  if scopeWide q.scope then (c.armWide q .engine).2 else (c.armDep q).2.2

end Sys2Proof.Machine
end

