-- ==== Sys2Proof/Machine/TrnPlan.lean ====
section
/-! DEFINITION. The turntable's plan and channels, and what a lost path does to a publish (12_generate_and_learn.md R309, R320, R330, R331). -/

namespace Sys2Proof.Machine

/-! ### The plan (R330, R331) -/

def trnPlanBlob : Nat := 0xFFFF0001

def parseTrnChan (b : List Byte) : TrnChan :=
  { model := fieldAt b 0 1, tree := fieldAt b 1 1, srcPkg := fieldAt b 2 2, srcObj := fieldAt b 4 4, bank0 := fieldAt b 8 4
    bank1 := fieldAt b 12 4, bytes := fieldAt b 16 8, policy := fieldAt b 24 1, initVersion := fieldAt b 28 4
    rings := ((List.range 4).map fun k => fieldAt b (32 + 2 * k) 2).filter (· != 0), members := bytesAt b 64 304 }

def parseTrnPlan (b : List Byte) : TrnPlan :=
  { chans := (List.range (fieldAt b 4 1)).map fun k => parseTrnChan (b.drop (64 + 368 * k)), vmap := fieldAt b 8 4
    readyMs := fieldAt b 12 4, doneMs := fieldAt b 16 4 }

def Image.trnPlan (im : Image) : Option TrnPlan := (im.plan? trnPlanBlob).map parseTrnPlan

/-- A member of a channel. -/
def TrnChan.member (ch : TrnChan) (pkg : Nat) : Bool := (ch.members.getD (pkg / 8) 0).getLsbD (pkg % 8)
def TrnChan.bankObj (ch : TrnChan) (b : Nat) : Nat := if b = 0 then ch.bank0 else ch.bank1

def Chip.trnChan (c : Chip) (n : Nat) : Option TrnChan := c.im.trnPlan.bind fun p => p.chans[n]?
def Chip.trnCh (c : Chip) (n : Nat) : TrnCh := c.trn.getD n {}
def Chip.setTrn (c : Chip) (n : Nat) (f : TrnCh → TrnCh) : Chip := { c with trn := setAt c.trn n f }
def trnReg (r n : Nat) : Nat := r + 32 * n

/-- The channel that a sequence model uses on this package. -/
def Chip.modelChan (c : Chip) (model : Nat) : Option Nat :=
  match c.im.trnPlan with
  | none => none
  | some p => (List.range p.chans.length).find? fun n => match p.chans[n]? with
      | some ch => ch.model == model && ch.member c.pkg
      | none => false

/-! ### Lost paths (R320) -/

/-- A member that waits for the stream, or receives it, and has lost its path to the root: it has missed a unit, and OTHER is 0. -/
def Chip.losesStream (c : Chip) (n : Nat) : Bool :=
  let x := c.trnCh n
  (x.st == .ready || x.st == .streaming) &&
    (match c.trnChan n with | some ch => ch.srcPkg != c.pkg && !c.reachable false ch.srcPkg | none => false)

def Chip.streamPaths (c : Chip) : Chip :=
  ((List.range 16).filter c.losesStream).foldl (fun c n => c.setTrn n fun x => { x with missed := true, other := 0 }) c

end Sys2Proof.Machine
end

