-- ==== Sys2Proof/Machine/TrnOps.lean ====
section
/-! DEFINITION. The turntable: plan, version map, release, publish, forced rolls and COMMIT (12_generate_and_learn.md R309–R333). -/

namespace Sys2Proof.Machine

/-- The base of an object. -/
def Chip.objBase (c : Chip) (id : Nat) : Nat := ((c.im.obj? id).map (·.base)).getD 0
def Chip.objSize (c : Chip) (id : Nat) : Nat := ((c.im.obj? id).map (·.size)).getD 0

/-- An engine's write into an object of this package: no single transfer of R224. -/
def Chip.engineWrite (c : Chip) (off : Nat) (bs : List Byte) : Chip :=
  { c with mem := c.mem.write (c.depotMode off) off bs false }

/-! ### The version map (R312, R313) -/

def Chip.vmapBase (c : Chip) : Option Nat := c.im.trnPlan.map fun p => c.objBase p.vmap

/-- Write a slot's entry; POLICY is the program's, and an admission sets it. -/
def Chip.putSlot (c : Chip) (s : Seq) (policy : Option Nat) : Chip :=
  match c.vmapBase, s.channel with
  | some b, some n =>
    let a := b + 8 * s.slot
    let c := c.engineWrite a (leBytes 4 s.version ++ leBytes 1 s.bank)
    let c := match policy with | some p => c.engineWrite (a + 5) (leBytes 1 p) | none => c
    c.engineWrite (a + 6) (leBytes 1 s.vflags ++ leBytes 1 n)
  | _, _ => c

/-- A retired slot's VERSION reads 0 (R315). -/
def Chip.clearSlot (c : Chip) (s : Seq) : Chip :=
  match c.vmapBase, s.channel with
  | some b, some _ => c.engineWrite (b + 8 * s.slot) (leBytes 4 0)
  | _, _ => c

/-- STATE as the registers and the map show it: the root's own where it leads. -/
def TrnCh.shown (x : TrnCh) : TrnSt := if x.rootSt = .idle then x.st else x.rootSt
def TrnCh.shownStage (x : TrnCh) : Nat := if x.stage = 0 then x.rootStage else x.stage

/-- Write a channel's status entry. -/
def Chip.putChanEntry (c : Chip) (n : Nat) : Chip :=
  match c.vmapBase with
  | none => c
  | some b =>
    let x := c.trnCh n
    c.engineWrite (b + 524288 + 64 * n)
      (leBytes 4 x.current ++ leBytes 4 x.other ++ leBytes 4 x.shownStage ++ leBytes 1 x.curBank ++ leBytes 1 x.shown.code ++
        leBytes 1 x.lastFail ++ leBytes 1 0 ++ leBytes 8 x.commitTurn)

def Chip.setSeq (c : Chip) (slot : Nat) (f : Seq → Seq) : Chip :=
  { c with seq := { c.seq with live := c.seq.live.map fun s => if s.slot = slot then f s else s } }

/-! ### Release (R310, R319) -/

def TrnCh.target (x : TrnCh) : Nat := if x.current = 0 then 0 else 1 - x.curBank

/-- Live slots that map to a bank. -/
def Chip.mapped (c : Chip) (n bank : Nat) : List Seq :=
  c.seq.live.filter fun s => s.channel == some n && s.version != 0 && s.bank == bank

/-- Task items taken from a channel's rings and not yet complete. -/
def Chip.chanTasks (c : Chip) (n : Nat) : List (Nat × Nat) :=
  match c.trnChan n with
  | none => []
  | some ch => (c.disp.tasks.filter fun t => t.taken && !t.posted && decide (t.ring ∈ ch.rings)).map fun t => (t.ring, t.seq)

/-- At a boundary: a bank in use takes the tasks under way as those its release waits for (R310). -/
def Chip.noteUsers (c : Chip) (n : Nat) : Chip :=
  let x := c.trnCh n
  let used := fun (b : Nat) => (x.current != 0 && x.curBank == b) || !(c.mapped n b).isEmpty
  let l := c.chanTasks n
  c.setTrn n fun x => { x with users0 := if used 0 then l else x.users0, users1 := if used 1 then l else x.users1 }

def Chip.released (c : Chip) (n bank : Nat) : Bool :=
  let x := c.trnCh n
  (c.mapped n bank).isEmpty && (if bank = 0 then x.users0 else x.users1).all fun u => (c.disp.task? u.1 u.2).isNone

/-- Wagons of a bank that have been demoted (R319). -/
def Chip.demoted (c : Chip) (ch : TrnChan) (bank : Nat) : List Nat :=
  match c.im.obj? (ch.bankObj bank) with
  | none => []
  | some o => if o.tier = 2 then (o.wagons.take (ch.bytes / wagonBytes)).filter fun w => match (c.mem.wagon w).loc with
      | .sidings _ => true
      | _ => false else []

/-- Ask for the promotion of demoted wagons of the target bank (R218, R319). -/
def Chip.askPromote (c : Chip) (ch : TrnChan) (bank : Nat) : Chip :=
  ((c.demoted ch bank).foldl (fun (c : Chip) w => if c.mem.forced.any fun e => e.1 == w && e.2 == .hbm then c
    else { c with mem := { c.mem with forced := c.mem.forced ++ [(w, .hbm)] } }) c).forceMoves

/-! ### The root (R316–R321) -/

def TrnChan.memberList (ch : TrnChan) (im : Image) : List Nat := (im.members none).filter ch.member

/-- The last READY, or READY_TIMEOUT: set-up begins, and the rest are excluded. -/
def Chip.beginSetup (c : Chip) (n : Nat) : Chip := c.setTrn n fun x => { x with rootSt := .ready, streamAt := c.elapsed }

def Chip.rootReady (c : Chip) (n pkg : Nat) : Chip :=
  match c.trnChan n with
  | none => c
  | some ch =>
    let x := c.trnCh n
    if x.rootSt ≠ .release ∨ pkg ∈ x.ready ∨ !ch.member pkg then c
    else
      let c := c.setTrn n fun x => { x with ready := x.ready ++ [pkg] }
      if (ch.memberList c.im).all fun p => p ∈ (c.trnCh n).ready then c.beginSetup n else c

/-- The first turn boundary at least so many ticks ahead. -/
def Chip.boundaryAfter (c : Chip) (d : Nat) : Nat :=
  let b := c.tt.nextBoundary c.turnPeriod
  b + ceilDiv (c.tt.counter + d - b) (max c.turnPeriod 1) * c.turnPeriod

/-- The root arms the COMMIT (R320, R321), or records DONE_TIMEOUT when every member is excluded. -/
def Chip.armCommit (c : Chip) (n : Nat) : Chip :=
  match c.trnChan n with
  | none => c
  | some ch =>
    let x := c.trnCh n
    let total := (ch.memberList c.im).length
    let c := c.setReg (trnReg rTRN_CH_EXCL n) (total - x.done.length)
    if x.done.isEmpty then c.setTrn n fun x => { x with rootSt := .idle, rootStage := 0, lastFail := 5 }
    else
      let c := c.setTrn n fun x => { x with rootSt := .commitArmed }
      c.armAny { whenAt := .once (c.boundaryAfter (30 * tUs)), action := 0x0030, scope := 0x0400, order := 0x7000
                 arg := x.rootStage * 2 ^ 32 + n * 16 + 2, log := true, src := .seed }

def Chip.rootDone (c : Chip) (n pkg : Nat) : Chip :=
  let x := c.trnCh n
  if x.rootSt ≠ .streaming ∨ pkg ∈ x.done ∨ pkg ∉ x.ready then c
  else
    let c := c.setTrn n fun x => { x with done := x.done ++ [pkg] }
    if x.ready.all fun p => p ∈ (c.trnCh n).done then c.armCommit n else c

/-! ### Members -/

/-- A member whose target bank is released and in HBM reports READY (R316, R319). -/
def Chip.tryReady (c : Chip) (n : Nat) : Chip :=
  match c.trnChan n with
  | none => c
  | some ch =>
    let x := c.trnCh n
    if x.st ≠ .release ∨ !c.released n x.target ∨ !(c.demoted ch x.target).isEmpty then c
    else
      let c := c.setTrn n fun x => { x with st := .ready }
      if c.pkg = ch.srcPkg then c.rootReady n c.pkg else c

/-- A reason to refuse a STAGE (R317): BUSY, STALE or INVALID. -/
def TrnCh.refuseStage (x : TrnCh) (busy : Bool) (version scope : Nat) : Option Nat :=
  if busy then some 1
  else if version ≤ x.current ∨ version ≤ x.other then some 2
  else if scope ≠ 0 ∧ scope ≠ 0x400 ∧ scope ≠ 0x401 then some 3
  else none

/-- A STAGE edge at this package: the root and every member check it (R317). -/
def Chip.stageEdge (c : Chip) (n version scope : Nat) : Chip :=
  match c.trnChan n with
  | none => c
  | some ch =>
    let isRoot := c.pkg == ch.srcPkg
    let isMember := ch.member c.pkg
    if !isRoot && !isMember then c
    else
      let x := c.trnCh n
      match x.refuseStage ((isRoot && x.rootSt != .idle) || (isMember && x.st != .idle)) version scope with
      | some f => c.setTrn n fun x => { x with lastFail := f }
      | none =>
        let c := c.setTrn n fun x => { x with
          lastFail := 0, stagedAt := c.elapsed, rootSt := if isRoot then .release else .idle, rootStage := if isRoot then version else 0
          ready := [], done := [] }
        if !isMember then c
        else
          let c := c.setTrn n fun x => { x with
            st := .release, stage := version, got := 0, missed := false, forced := !(c.mapped n x.target).isEmpty }
          (c.askPromote ch x.target).tryReady n

/-- A publish stops at this package (R319, R322). -/
def Chip.stopPublish (c : Chip) (n fail : Nat) (dropOther : Bool) : Chip :=
  c.setTrn n fun x => { x with
    st := .idle, stage := 0, rootSt := .idle, rootStage := 0, lastFail := fail, other := if dropOther then 0 else x.other, forced := false
    commit := none }

/-- An ABORT edge (R322). -/
def Chip.abortEdge (c : Chip) (n version : Nat) : Chip :=
  let x := c.trnCh n
  if version ≠ 0 ∧ (x.stage = version ∨ x.rootStage = version) then c.stopPublish n 7 true else c

/-- A slot whose version does not change at this boundary has SWITCHED clear (R312). -/
def Chip.clearSwitched (c : Chip) (s : Seq) : Chip :=
  if s.vflags.testBit 1 then
    let c := c.setSeq s.slot fun s => { s with vflags := s.vflags % 2 }
    match c.seq.live.find? fun t => t.slot == s.slot with | some t => c.putSlot t none | none => c
  else c

/-- What a COMMIT does to live slots (R315): one whose POLICY is roll switches, and no other slot's version changed at this boundary (R312). -/
def Chip.commitSlots (c : Chip) (n version bank : Nat) : Chip :=
  match c.vmapBase with
  | none => c
  | some b =>
    (c.seq.live.filter fun s => s.channel == some n).foldl (fun c s =>
      if c.peekNat (b + 8 * s.slot + 5) 1 = 1 then
        let c := c.setSeq s.slot fun s => { s with version := version, bank := bank, vflags := s.vflags ||| 2 }
        match c.seq.live.find? fun t => t.slot == s.slot with | some t => c.putSlot t none | none => c
      else c.clearSwitched s) c

/-- A COMMIT applied at a boundary (R318, R321); `turn` is the turn that begins there. -/
def Chip.commitAt (c : Chip) (n version turn : Nat) : Chip :=
  match c.trnChan n with
  | none => c
  | some ch =>
    let x := c.trnCh n
    let c := c.setTrn n fun x => if x.rootSt = .commitArmed ∧ x.rootStage = version then { x with rootSt := .idle, rootStage := 0 } else x
    if !ch.member c.pkg then c
    else if x.st = .staged ∧ x.stage = version then
      let c := c.noteUsers n
      let t := x.target
      let c := c.setTrn n fun x => { x with
        curBank := t, other := x.current, current := version, st := .idle, stage := 0, commitTurn := turn, forced := false }
      let c := (c.bumpWrap (trnReg rTRN_CH_COMMITS n)).commitSlots n version t
      c.putChanEntry n
    else if x.current < version then
      let c := c.setTrn n fun x => { x with lastFail := 8 }
      ((c.bump (trnReg rTRN_CH_BEHIND n)).notice 318 (n + version * 2 ^ 32))
    else c

/-- A COMMIT edge: at a boundary's tick it applies at once, else at the next boundary (R313, R316, log entry 21). -/
def Chip.commitEdge (c : Chip) (n version : Nat) : Chip :=
  if c.tt.running ∧ c.tt.counter = c.tt.nextBoundary c.turnPeriod then c.commitAt n version (c.tt.turnNum + 1)
  else c.setTrn n fun x => { x with commit := some version }

/-- A forced roll (R316): every slot on the target bank takes CURRENT with FORCED and SWITCHED, and OTHER becomes 0. -/
def Chip.forceRoll (c : Chip) (n : Nat) : Chip :=
  let x := c.trnCh n
  if !x.forced then c
  else
    let l := c.mapped n x.target
    let c := l.foldl (fun c s =>
      let c := c.setSeq s.slot fun s => { s with version := x.current, bank := x.curBank, vflags := 3 }
      match c.seq.live.find? fun t => t.slot == s.slot with | some t => c.putSlot t none | none => c) c
    let c := c.setReg (trnReg rTRN_CH_FORCED n) (c.reg (trnReg rTRN_CH_FORCED n) + l.length)
    c.setTrn n fun x => { x with forced := false, other := 0 }

/-- The turntable's part of a boundary, before the snapshot (R313, R316): SWITCHED of the last turn ends, COMMITs that waited apply, rolls are
forced, and every status entry is brought up to date. -/
def Chip.trnBoundary (c : Chip) (turn : Nat) : Chip :=
  match c.im.trnPlan with
  | none => c
  | some p =>
    (List.range p.chans.length).foldl (fun c n =>
      let keep := (c.trnCh n).commitTurn == turn
      let c := if keep then c else
        (c.seq.live.filter fun s => s.channel == some n).foldl (fun c s => c.clearSwitched s) c
      let c := match (c.trnCh n).commit with
        | some v => (c.setTrn n fun x => { x with commit := none }).commitAt n v turn
        | none => c
      ((c.noteUsers n).forceRoll n).putChanEntry n) c

/-! ### The stream (R319, R320) -/

/-- The 32-byte lead of a STREAM packet (R378). -/
def streamLead (tree op dtype flags inst off edge status origin chan : Nat) : List Byte :=
  leBytes 1 tree ++ leBytes 1 op ++ leBytes 1 dtype ++ leBytes 1 flags ++ leBytes 4 inst ++ leBytes 8 off ++ leBytes 1 edge ++
    leBytes 1 status ++ leBytes 2 origin ++ leBytes 1 chan ++ leBytes 11 0

def opTurntable : Nat := 0x20

/-- A unit of the stream at this package's member (R320). -/
def Chip.takeUnit (c : Chip) (n version off : Nat) (bs : List Byte) : Chip :=
  match c.trnChan n with
  | none => c
  | some ch =>
    let x := c.trnCh n
    if !(x.st = .ready ∨ x.st = .streaming) ∨ x.stage ≠ version then c
    else
      let c := c.setTrn n fun x => { x with st := .streaming, other := 0 }
      if x.missed ∨ off ≠ x.got then c.setTrn n fun x => { x with missed := true }
      else
        let c := c.engineWrite (c.objBase (ch.bankObj x.target) + off) bs
        let c := c.setTrn n fun x => { x with got := x.got + bs.length }
        if x.got + bs.length < ch.bytes then c
        else
          let c := c.setTrn n fun x => { x with st := .staged }
          if c.pkg = ch.srcPkg then c.rootDone n c.pkg else c

/-- News that the stream was stopped at its source (R319): LAST_FAIL reads SRC_UNCERTAIN on every package of the tree, and a publish of that
version ends here. -/
def Chip.sourceStopped (c : Chip) (n version : Nat) : Chip :=
  let x := c.trnCh n
  if version ≠ 0 ∧ (x.stage = version ∨ x.rootStage = version) then c.stopPublish n 6 (decide (0 < x.got))
  else c.setTrn n fun x => { x with lastFail := 6 }

/-- The root stops the stream, and sends the news down the tree (R319). -/
def Chip.sourceAbort (c : Chip) (n version : Nat) : Chip :=
  match c.trnChan n with
  | none => c
  | some ch =>
    let c := c.toChildren ch.tree none 1
      { typ := tSTREAM, dst := 0, src := c.pkg
        data := streamLead ch.tree opTurntable 0 5 version 0 0xFF 4 ch.srcPkg n ++ List.replicate 512 0 }
    c.sourceStopped n version

/-- The root streams the source object, 512 B a packet, until it meets a unit of 64 KiB that it may not send. -/
def Chip.streamUnits (c : Chip) (n : Nat) (ch : TrnChan) (version base : Nat) : Nat → Nat → Chip
  | 0, _ => c
  | k + 1, unit =>
    let off := unit * wagonBytes
    let a := base + off
    if c.mem.anyUnbacked a wagonBytes || c.mem.anyUncertain a wagonBytes || !(c.mem.badUnits a wagonBytes).isEmpty then c.sourceAbort n version
    else
      let c := (List.range 128).foldl (fun c j =>
        let o := off + 512 * j
        let bs := c.peek (base + o) 512
        let c := (c.touch (base + o) 512).toChildren ch.tree none 1
          { typ := tSTREAM, dst := 0, src := c.pkg, data := streamLead ch.tree opTurntable 0 1 version o 0xFF 0 0 n ++ bs }
        c.takeUnit n version o bs) c
      c.streamUnits n ch version base k (unit + 1)

end Sys2Proof.Machine
end

