-- ==== Sys2Proof/Machine/ColOps.lean ====
section
/-! DEFINITION. The collective engine: descriptors, adders, instances and their failures (14_collectives.md R367–R384). -/

namespace Sys2Proof.Machine

/-! ### Descriptors (R367–R369) -/

def ColDesc.yard (d : ColDesc) (pkg : Nat) : Option Nat := if d.span = 1 then some (yardOf pkg) else none
def ColDesc.bulk (d : ColDesc) : Bool := d.mode == 1
def ColDesc.treeList (d : ColDesc) : List Nat := maskList 64 d.trees
/-- Bytes of a slice: each tree carries an equal part (R369). -/
def ColDesc.sliceLen (d : ColDesc) : Nat := d.bytes / max d.treeList.length 1
/-- Bytes of an element (R367). -/
def elemBytes (dtype : Nat) : Nat := if dtype % 16 = 1 then 2 else if dtype % 16 = 3 then 8 else 4
/-- Whether partials travel up, and whether a result travels down. -/
def ColDesc.goesUp (d : ColDesc) : Bool := d.op == 2 || d.op == 3 || d.op == 4 || d.op == 6
def ColDesc.goesDown (d : ColDesc) : Bool := d.op == 1 || d.op == 3 || d.op == 5 || d.op == 6

/-- Bytes of this member's DST. -/
def Chip.dstLen (c : Chip) (d : ColDesc) : Nat := if d.op = 5 then d.bytes * (c.im.members (d.yard c.pkg)).length else d.bytes

/-- The fields of a descriptor agree with R367 and R369. -/
def ColDesc.shape (d : ColDesc) : Bool :=
  let n := d.treeList.length
  let reduces := d.op == 2 || d.op == 3 || d.op == 4
  let typed := if reduces then decide (d.dtype % 16 ≤ 3) && decide (d.dtype / 16 ≤ 2) else d.dtype == 0
  let modes := if d.mode = 0 then d.op == 1 || d.op == 2 || d.op == 3 || d.op == 6
    else d.mode == 1 && decide (1 ≤ d.op) && decide (d.op ≤ 5)
  let trees := if d.mode = 0 ∨ d.op = 5 then n == 1 else decide (1 ≤ n)
  let size := if d.op = 6 then d.bytes == 0
    else if d.mode = 0 then decide (1 ≤ d.bytes) && decide (d.bytes ≤ 256) && (!reduces || d.bytes % elemBytes d.dtype == 0)
    else decide (0 < d.bytes) && decide (d.bytes ≤ 2 ^ 36) && d.bytes % (512 * max n 1) == 0
  typed && modes && trees && size && decide (d.span ≤ 1) && d.inst != 0

/-- A global address of this package in one of its objects (R368). -/
def Chip.ownAddr (c : Chip) (a n : Nat) : Bool := addrPkg a == c.pkg && c.addrGood a (max n 1)

/-- Read and check a descriptor (R368); one whose page cannot be read is no good one (R223). -/
def Chip.readDesc (c : Chip) (arg : Nat) : ColDesc :=
  let off := arg / 2 ^ 20 * 64
  let b := c.peek off 64
  let d : ColDesc :=
    { op := fieldAt b 0 1, dtype := fieldAt b 1 1, mode := fieldAt b 2 1, span := fieldAt b 3 1, inst := fieldAt b 4 4
      trees := fieldAt b 8 8, bytes := fieldAt b 16 8, src := fieldAt b 24 8, dst := fieldAt b 32 8, compl := fieldAt b 40 8 }
  let complOk := d.compl % 8 == 0 && c.ownAddr d.compl 8
  let held := inObject c.objs c.pkg off 64 && ((c.objAt off).map (·.heldBy c.pkg)).getD false && (c.mem.readFails off 64).isNone &&
    (c.mem.badUnits off 64).isEmpty
  let good := held && d.shape && zeroAt b 48 16 && complOk && c.ownAddr d.src d.bytes && c.ownAddr d.dst (c.dstLen d) &&
    (d.treeList.all fun t => c.im.trees.any fun e => e.tree == t) &&
    (d.span == 0 || d.treeList.all fun t => c.im.spanWhole t (d.yard c.pkg))
  { d with bad := !good, complOk := held && complOk }

/-- Check the descriptors of departures newly armed, and forget those of departures gone (R368, R376). -/
def Chip.colArm (c : Chip) : Chip :=
  let deps := c.tt.deps.filter fun d => d.action == 0x0040
  let kept := c.col.armed.filter fun e => deps.any fun d => d.id == e.1
  deps.foldl (fun c d =>
    if c.col.armed.any fun e => e.1 == d.id then c
    else
      let x := c.readDesc d.arg
      let c := c.touch (d.arg / 2 ^ 20 * 64) 64
      let held := !x.bulk && !x.bad &&
        decide ((c.col.armed.filter (·.2.2)).length + (c.col.launches.filter (·.held)).length < 64)
      { c with col := { c.col with armed := c.col.armed ++ [(d.id, x, held)] } }) { c with col := { c.col with armed := kept } }

/-! ### The adders (R373, R374) -/

/-- Combine two elements of the working form: FP32 words for FP32 and BF16, and integers. -/
def reduceOne (dtype : Nat) (a b : Nat) : Nat :=
  let t := dtype % 16
  let r := dtype / 16
  if t ≤ 1 then
    let x := BitVec.ofNat 32 a
    let y := BitVec.ofNat 32 b
    (if r = 0 then (fpAdd x y).bits else if r = 1 then fpMax x y else fpMin x y).toNat
  else
    let w := 8 * elemBytes dtype
    if r = 0 then (a + b) % 2 ^ w
    else if r = 1 then (if signed w a < signed w b then b else a)
    else (if signed w a ≤ signed w b then a else b)

/-- An element from its wire form, and to it with the node's one rounding. -/
def widenElem (dtype x : Nat) : Nat := if dtype % 16 = 1 then x * 65536 else x
def wireElem (dtype x : Nat) : Nat := if dtype % 16 = 1 then (convPlain .bf16 .nearest (BitVec.ofNat 32 x)).bits else x

def elemsOf (dtype : Nat) (b : List Byte) : List Nat :=
  (List.range (b.length / elemBytes dtype)).map fun k => widenElem dtype (fieldAt b (k * elemBytes dtype) (elemBytes dtype))

/-- A node's partial: its own contribution, then its children's in ascending link number. -/
def reduceAll (dtype : Nat) (own : List Byte) (kids : List (List Byte)) : List Byte :=
  let sum := kids.foldl (fun (a : List Nat) k => List.zipWith (reduceOne dtype) a (elemsOf dtype k)) (elemsOf dtype own)
  sum.flatMap fun x => leBytes (elemBytes dtype) (wireElem dtype x)

/-! ### Instances (R381) -/

def Chip.colInst? (c : Chip) (tree inst : Nat) : Option ColInst := c.col.insts.find? fun i => i.tree == tree && i.inst == inst
def Chip.setInst (c : Chip) (tree inst : Nat) (f : ColInst → ColInst) : Chip :=
  { c with col := { c.col with insts := c.col.insts.map fun i => if i.tree = tree ∧ i.inst = inst then f i else i } }
def Chip.dropInst (c : Chip) (tree inst : Nat) : Chip :=
  { c with col := { c.col with insts := c.col.insts.filter fun i => !(i.tree == tree && i.inst == inst) } }

def Chip.expTimeout (c : Chip) : Nat := c.regField rCOL_CFG 15 0 * tUs
def Chip.bulkTimeout (c : Chip) : Nat := c.regField rCOL_CFG 31 16 * tMs

def ColInst.yardOf (i : ColInst) (pkg : Nat) : Option Nat := if i.yard then some (Sys2Proof.Machine.yardOf pkg) else none

def Chip.putCompl (c : Chip) (d : ColDesc) (status origin : Nat) : Chip :=
  if d.complOk then c.engineWrite (addrOff d.compl) (leBytes 8 (d.inst * 2 ^ 32 + origin * 2 ^ 16 + status)) else c

/-- Count a completion (R386). -/
def Chip.countCol (c : Chip) (status origin tree : Nat) : Chip :=
  if status = 1 then c.bumpWrap rCOL_DONE
  else (c.bump rCOL_FAIL).setReg rCOL_LASTFAIL (status * 2 ^ 24 + origin % 4096 * 2 ^ 12 + tree % 64 * 64)

/-- A launch that never became an instance (R368, R381, R382). -/
def Chip.endAtOnce (c : Chip) (d : ColDesc) (status origin : Nat) : Chip :=
  (c.putCompl d status origin).countCol status origin (d.treeList.headD 0)

/-- End this member's launch of an instance (R371, R383, R384). -/
def Chip.endLaunch (c : Chip) (tree inst status origin : Nat) : Chip :=
  match c.col.launches.find? fun l => l.desc.inst == inst && l.desc.trees.testBit tree with
  | none => c.setInst tree inst fun i => { i with finished := true, inbox := [] }
  | some l =>
    let d := l.desc
    let mine := fun (i : ColInst) => i.inst == inst && d.trees.testBit i.tree
    let wrote := c.col.insts.any fun i => mine i && i.wrote
    let c := if status ≠ 1 ∧ d.bulk ∧ wrote then
        (pagesOf (addrOff d.dst) (c.dstLen d)).foldl (fun c p => { c with mem := c.mem.markPage p }) c else c
    let c := (c.putCompl d status origin).countCol status origin tree
    let old := fun (i : ColInst) => i.finished && decide (i.since + c.bulkTimeout < c.elapsed)
    { c with col := { c.col with
        launches := c.col.launches.filter fun x => !(x.desc.inst == inst && x.desc.trees.testBit tree)
        insts := (c.col.insts.map fun i => if mine i then
            { i with finished := true, inbox := [], failed := if status = 1 then none else some (status, origin) } else i).filter fun i => !old i } }

/-- A slice of a launch is done; the last one completes it. -/
def Chip.endSlice (c : Chip) (tree inst : Nat) : Chip :=
  let c : Chip := { c with col := { c.col with
    launches := c.col.launches.map fun l =>
      if l.desc.inst = inst ∧ l.desc.trees.testBit tree then { l with left := l.left.filter (· != tree) } else l } }
  if c.col.launches.any fun l => l.desc.inst == inst && l.desc.trees.testBit tree && l.left.isEmpty then c.endLaunch tree inst 1 0
  else c.setInst tree inst fun i => { i with finished := true, inbox := [] }

/-! ### Packets (R375, R378) -/

/-- The packets that carry a unit. -/
def Chip.unitPackets (c : Chip) (i : ColInst) (down fail : Bool) (off : Nat) (data : List Byte) (status origin : Nat) : List Packet :=
  let yard := i.yardOf c.pkg
  let edge := if down then 0xFF else c.edgeAtParent i.tree yard
  let flags := bit down + 4 * bit fail + 8 * bit i.yard
  if i.bulk then
    [{ typ := tSTREAM, dst := 0, src := c.pkg
       data := streamLead i.tree i.op i.dtype flags i.inst off edge status origin 0 ++ bytesAt data 0 512 }]
  else
    let part := fun (f : Nat) (bs : List Byte) =>
      ({ typ := tPIP, dst := 0, src := c.pkg
         data := pipLead i.tree i.op i.dtype f i.inst (if fail then 0 else i.bytes) edge status origin i.tick ++ pad32 bs } : Packet)
    if 224 < data.length then [part flags (data.take 224), part (flags + 2) (data.drop 224)] else [part flags data]

/-- Send a unit to the parent; none where the edge is broken. -/
def Chip.unitUp (c : Chip) (i : ColInst) (off : Nat) (data : List Byte) : Option Chip :=
  (c.unitPackets i false false off data 0 0).foldl (fun (a : Option Chip) p => a.bind fun c => c.toParent i.tree (i.yardOf c.pkg) p) (some c)

def Chip.unitDown (c : Chip) (i : ColInst) (off : Nat) (data : List Byte) : Chip :=
  (c.unitPackets i true false off data 0 0).foldl (fun c p => c.toChildren i.tree (i.yardOf c.pkg) (bit i.bulk) p) c

/-- An instance fails here (R383): the news goes to the parent and the children, but not back to the one that it came from. -/
def Chip.colFail (c : Chip) (tree inst status origin : Nat) (came : Option Nat) : Chip :=
  match c.colInst? tree inst with
  | none => c
  | some i =>
    if i.finished ∨ i.failed.isSome then c
    else
      let yard := i.yardOf c.pkg
      let send := fun (c : Chip) (down : Bool) (e : Nat × Nat) =>
        if came = some e.2 then c
        else (c.unitPackets i down true 0 [] status origin).foldl (fun c p => (c.sendEdge e.1 e.2 (bit (down && i.bulk)) p).getD c) c
      let c := match c.im.spanParent tree c.pkg yard with | some e => send c false e | none => c
      let c := (c.im.spanChildren tree c.pkg yard).foldl (fun c e => send c true e) c
      let c := c.setInst tree inst fun i => { i with failed := some (status, origin), inbox := [] }
      if i.desc.isSome then c.endLaunch tree inst status origin else c

/-! ### Progress (R370, R374, R379) -/

/-- Bytes from a source range, or none where a unit is unbacked, uncertain or poisoned (SRC_FAIL). -/
def Chip.colSource (c : Chip) (off n : Nat) : Option (List Byte) :=
  if c.mem.anyUnbacked off n || c.mem.anyUncertain off n || !(c.mem.badUnits off n).isEmpty then none else some (c.peek off n)

/-- A unit that a neighbour sent, whole. -/
def ColInst.unit (i : ColInst) (peer : Nat) (down : Bool) (off : Nat) : Option (List Byte) :=
  let get := fun (o : Nat) => (i.inbox.find? fun u => u.peer == peer && u.down == down && u.off == o).map (·.data)
  if i.bulk then get off
  else if i.bytes ≤ 224 then (get 0).map (·.take i.bytes)
  else match get 0, get 224 with
    | some a, some b => some ((a ++ b).take i.bytes)
    | _, _ => none

def ColInst.unitBytes (i : ColInst) : Nat := if i.bulk then 512 else i.bytes
/-- Units of a slice. -/
def ColInst.total (i : ColInst) (d : ColDesc) : Nat := if i.bulk then d.sliceLen / 512 else 1
/-- The slice's start in the collective buffer. -/
def ColInst.base (i : ColInst) (d : ColDesc) : Nat := i.slice * d.sliceLen

def ColInst.drop (i : ColInst) (down : Bool) (off : Nat) : ColInst :=
  { i with inbox := i.inbox.filter fun u => !(u.down == down && (!i.bulk || u.off == off)) }

/-- Write a unit of the result into DST; none where it is unbacked (DEST_FAIL). -/
def Chip.colWrite (c : Chip) (i : ColInst) (d : ColDesc) (off : Nat) (data : List Byte) : Option Chip :=
  if data.isEmpty then some c
  else
    let a := addrOff d.dst + off
    if c.mem.anyUnbacked a data.length then none
    else some ((c.engineWrite a data).setInst i.tree i.inst fun i => { i with wrote := true })

/-- The top of a tree finishes a unit: into its own DST and down the tree, as the operation says. -/
def Chip.topUnit (c : Chip) (i : ColInst) (d : ColDesc) (off : Nat) (data : List Byte) : Chip :=
  let c := if d.goesDown then (c.unitDown i off data).setInst i.tree i.inst fun i => { i with down := i.down + 1 } else c
  match c.colWrite i d off data with
  | some c => c
  | none => c.colFail i.tree i.inst 8 c.pkg none

/-- This member's own contribution to a unit. -/
def Chip.ownUnit (c : Chip) (i : ColInst) (d : ColDesc) (off : Nat) : Option (List Byte) :=
  if i.bulk then c.colSource (addrOff d.src + off) 512 else some i.own

/-- Take the next unit upward when every child has sent its own. -/
def Chip.stepUp (c : Chip) (i : ColInst) (d : ColDesc) : Option Chip :=
  let yard := i.yardOf c.pkg
  let off := i.base d + i.up * i.unitBytes
  let kids := (c.im.spanChildren i.tree c.pkg yard).map fun e => i.unit e.2 false off
  if !d.goesUp || decide (i.total d ≤ i.up) || kids.any (·.isNone) then none
  else
    match c.ownUnit i d off with
    | none => some (c.colFail i.tree i.inst 4 c.pkg none)
    | some own =>
      let c := if i.bulk then c.touch (addrOff d.src + off) 512 else c
      let data := if d.op = 6 then [] else reduceAll d.dtype own (kids.filterMap id)
      let c := c.setInst i.tree i.inst fun i => { (i.drop false off) with up := i.up + 1 }
      match c.im.spanParent i.tree c.pkg yard with
      | none => some (c.topUnit i d off data)
      | some _ =>
        match c.unitUp i off data with
        | some c => some c
        | none => some (c.colFail i.tree i.inst 3 c.pkg none)

/-- The top of a BROADCAST sends its source down. -/
def Chip.stepCast (c : Chip) (i : ColInst) (d : ColDesc) : Option Chip :=
  let off := i.base d + i.down * i.unitBytes
  if d.op ≠ 1 ∨ (c.im.spanParent i.tree c.pkg (i.yardOf c.pkg)).isSome ∨ i.total d ≤ i.down then none
  else
    match c.ownUnit i d off with
    | none => some (c.colFail i.tree i.inst 4 c.pkg none)
    | some own => some ((if i.bulk then c.touch (addrOff d.src + off) 512 else c).topUnit i d off own)

/-- Take a unit of the result from the parent: on to the children, and into DST. -/
def Chip.stepDown (c : Chip) (i : ColInst) (d : ColDesc) : Option Chip :=
  match c.im.spanParent i.tree c.pkg (i.yardOf c.pkg) with
  | none => none
  | some e =>
    let off := if d.op = 5 then ((i.inbox.find? fun u => u.down).map (·.off)).getD 0 else i.base d + i.down * i.unitBytes
    match i.unit e.2 true off with
    | none => none
    | some data =>
      let c := c.setInst i.tree i.inst fun i => { (i.drop true off) with down := i.down + 1 }
      let c := c.unitDown i off data
      match c.colWrite i d off data with
      | some c => some c
      | none => some (c.colFail i.tree i.inst 8 c.pkg none)

/-- ALLGATHER: this member's next unit, or one of its children's, goes up; the top turns it down. -/
def Chip.stepGather (c : Chip) (i : ColInst) (d : ColDesc) : Option Chip :=
  if d.op ≠ 5 then none
  else
    let yard := i.yardOf c.pkg
    let rank := (c.im.members yard).filter fun p => decide (p < c.pkg)
    let send := fun (c : Chip) (off : Nat) (data : List Byte) =>
      match c.im.spanParent i.tree c.pkg yard with
      | none => c.topUnit i d off data
      | some _ => (c.unitUp i off data).getD (c.colFail i.tree i.inst 3 c.pkg none)
    if i.up < d.bytes / 512 then
      match c.colSource (addrOff d.src + i.up * 512) 512 with
      | none => some (c.colFail i.tree i.inst 4 c.pkg none)
      | some own => some (send ((c.touch (addrOff d.src + i.up * 512) 512).setInst i.tree i.inst fun i => { i with up := i.up + 1 }) (rank.length * d.bytes + i.up * 512) own)
    else
      match i.inbox.find? fun u => !u.down with
      | none => none
      | some u => some (send (c.setInst i.tree i.inst fun i => { i with inbox := i.inbox.erase u }) u.off u.data)

/-- Units of the result that a member takes. -/
def Chip.downTotal (c : Chip) (i : ColInst) (d : ColDesc) : Nat := if d.op = 5 then c.dstLen d / 512 else i.total d

/-- A packet of an instance to the parent that is not yet acknowledged (R371). -/
def Chip.colUnacked (c : Chip) (i : ColInst) : Bool :=
  let mine := fun (p : Packet) => (p.typ == tPIP || p.typ == tSTREAM) && p.src == c.pkg && fieldAt p.data 0 1 == i.tree &&
    fieldAt p.data 4 4 == i.inst && !(fieldAt p.data 3 1).testBit 0 && decide (fieldAt p.data 1 1 ≤ 6)
  c.net.links.any fun l => l.halves.any fun h => (h.txq.any fun e => mine e.2) || h.sent.any fun f => f.pkts.any mine

/-- Whether this member's part of a slice is done (R371). -/
def Chip.sliceDone (c : Chip) (i : ColInst) (d : ColDesc) : Bool :=
  (!d.goesUp || decide (i.total d ≤ i.up)) && (!d.goesDown || decide (c.downTotal i d ≤ i.down)) &&
    (d.op != 5 || decide (d.bytes / 512 ≤ i.up)) &&
    ((d.op != 2 && d.op != 4) || (c.im.spanParent i.tree c.pkg (i.yardOf c.pkg)).isNone || !c.colUnacked i)

/-- Move an instance on as far as its units allow. -/
def Chip.colRun (c : Chip) (tree inst : Nat) : Nat → Chip
  | 0 => c
  | fuel + 1 =>
    match c.colInst? tree inst with
    | none => c
    | some i =>
      match i.desc with
      | none => c
      | some d =>
        if i.finished || i.failed.isSome then c
        else
          match ((c.stepUp i d).or (c.stepCast i d)).or ((c.stepDown i d).or (c.stepGather i d)) with
          | some c => c.colRun tree inst fuel
          | none => if c.sliceDone i d then c.endSlice tree inst else c

def ColInst.fuel (i : ColInst) (members : Nat) : Nat :=
  match i.desc with
  | none => 1
  | some d => (2 * i.total d + 4) * (members + 2) + i.inbox.length + 4

def Chip.colGo (c : Chip) (tree inst : Nat) : Chip :=
  match c.colInst? tree inst with
  | none => c
  | some i => c.colRun tree inst (i.fuel c.im.roster.length)

/-- Look at every open instance again: acknowledgements may have come (R371). -/
def Chip.colSweep (c : Chip) : Chip :=
  (c.col.insts.filter fun i => !i.finished && i.desc.isSome).foldl (fun c i => c.colGo i.tree i.inst) c

/-! ### Launch (R380–R382) -/

/-- The facts of an instance agree with a launch (R381). -/
def ColInst.agrees (i : ColInst) (d : ColDesc) : Bool :=
  i.op == d.op && i.dtype == d.dtype && i.yard == (d.span == 1) && i.bulk == d.bulk && (i.bulk || i.bytes == d.bytes)

/-- Join or make the instance of one slice. -/
def Chip.launchSlice (c : Chip) (d : ColDesc) (tree slice : Nat) (own : List Byte) : Chip :=
  let fresh : ColInst :=
    { tree := tree, inst := d.inst, desc := some d, slice := slice, since := c.elapsed, op := d.op, dtype := d.dtype, bytes := d.bytes
      yard := d.span == 1, bulk := d.bulk, own := own, tick := c.tt.counter }
  match (c.colInst? tree d.inst).filter fun i => !i.finished with
  | none =>
    let c := c.dropInst tree d.inst
    { c with col := { c.col with insts := c.col.insts ++ [fresh] } }
  | some i =>
    let agrees := i.agrees d
    let c := c.setInst tree d.inst fun i => { fresh with inbox := i.inbox, failed := i.failed }
    match i.failed with
    | some (st, org) => c.endLaunch tree d.inst st org
    | none => if agrees then c else c.colFail tree d.inst 5 c.pkg none

/-- A collective is launched on this member (R368, R371, R380–R382). -/
def Chip.launch (c : Chip) (d : ColDesc) (held : Bool) : Chip :=
  let yard := d.yard c.pkg
  if d.bad then (c.endAtOnce d 7 c.pkg).notice 368 d.inst
  else if d.treeList.any fun t => decide (8 ≤ (c.col.insts.filter fun i => i.tree == t && i.desc.isSome && !i.finished).length) then
    c.endAtOnce d 6 c.pkg
  else if d.treeList.any fun t => c.treeState t yard == 3 then c.endAtOnce d 3 c.pkg
  else
    let c := c.putCompl d 0 0
    let c : Chip := { c with col := { c.col with launches := c.col.launches ++ [{ desc := d, left := d.treeList, held := held }] } }
    let isTop := (c.im.spanParent (d.treeList.headD 0) c.pkg yard).isNone
    let needsOwn := !d.bulk && (d.goesUp && d.op != 6 || (d.op == 1 && isTop))
    let own := if needsOwn then c.colSource (addrOff d.src) d.bytes else some []
    let c := if needsOwn then c.touch (addrOff d.src) d.bytes else c
    let c := d.treeList.zipIdx.foldl (fun c (e : Nat × Nat) => c.launchSlice d e.1 e.2 (own.getD [])) c
    if own.isNone then c.colFail (d.treeList.headD 0) d.inst 4 c.pkg none
    else d.treeList.foldl (fun c t => c.colGo t d.inst) c

/-! ### Arrival (R381, R383) and lost edges (R382) -/

/-- An instance over, whose INSTANCE may come again (R381): it completed, or it failed so long ago that nothing of it is on its way. -/
def ColInst.over (i : ColInst) (limit now : Nat) : Bool := i.finished && (i.failed.isNone || decide (i.since + limit < now))

/-- Hold what comes before this member's own launch (R381). -/
def Chip.holdInst (c : Chip) (facts : ColInst) : Chip :=
  { c with col := { c.col with insts := c.col.insts ++ [{ facts with since := c.elapsed }] } }

/-- A unit or a failure arrives over a tree edge. `facts` are the instance as the packet tells it. -/
def Chip.colArrive (c : Chip) (facts : ColInst) (peer : Nat) (down : Bool) (fail : Option (Nat × Nat)) (off : Nat) (data : List Byte) : Chip :=
  let yard := facts.yardOf c.pkg
  let parent := (c.im.spanParent facts.tree c.pkg yard).map (·.2)
  let known := if down then parent == some peer else (c.im.spanChildren facts.tree c.pkg yard).any fun e => e.2 == peer
  if !known && fail.isNone then c
  else
    let c := match c.colInst? facts.tree facts.inst with
      | some i => if fail.isNone && i.over c.bulkTimeout c.elapsed then (c.dropInst facts.tree facts.inst).holdInst facts else c
      | none => c.holdInst facts
    match c.colInst? facts.tree facts.inst with
    | none => c
    | some i =>
      if i.finished then c
      else
        match fail with
        | some (st, org) => c.colFail facts.tree facts.inst st org (some peer)
        | none =>
          let c := c.setInst facts.tree facts.inst fun i => { i with
            since := c.elapsed, inbox := i.inbox ++ [{ peer := peer, down := down, off := off, data := data }] }
          match i.desc with
          | none => c
          | some d =>
            if facts.agrees d then c.colGo facts.tree facts.inst
            else c.colFail facts.tree facts.inst 5 c.pkg none

/-- A half-link goes down (R382): the instances that have a packet under way or expected on an edge over it fail with BROKEN. -/
def Chip.colEdgeDown (c : Chip) (l h : Nat) : Chip :=
  let peer := ((c.plan l).peer h).1
  (c.col.insts.filter fun i => !i.finished && i.failed.isNone).foldl (fun c i =>
    let yard := i.yardOf c.pkg
    let up := c.im.spanParent i.tree c.pkg yard == some (l, peer)
    let kid := (c.im.spanChildren i.tree c.pkg yard).any fun e => e == (l, peer)
    let later := match i.desc with
      | some d => d.goesDown || (d.goesUp && decide (i.up + (i.inbox.filter fun u => u.peer == peer && !u.down).length < i.total d))
      | none => true
    if up || (kid && later) then c.colFail i.tree i.inst 3 c.pkg none else c) c

end Sys2Proof.Machine
end

