-- ==== Sys2Proof/Machine/LinkOps.lean ====
section
/-! DEFINITION. Link-state entries, training, width changes, replay and the loss of a link (13_bilsal_links.md R337–R349, R357–R359). -/

namespace Sys2Proof.Machine

/-! ### Link-state entries (R357) -/

def lsaBytes (e : LsEntry) : List Byte :=
  leBytes 2 e.origin ++ leBytes 1 e.link ++ leBytes 1 e.st ++ leBytes 1 e.wtx ++ leBytes 1 e.wrx ++ leBytes 1 e.half ++ leBytes 1 0 ++
    leBytes 2 e.seq ++ leBytes 2 e.boot ++ leBytes 20 0

/-- Read an entry; none where a reserved STATE or byte discards it. -/
def parseLsa (b : List Byte) : Option LsEntry :=
  let st := fieldAt b 3 1
  let link := fieldAt b 2 1
  if (st ≤ 5 ∨ (st = 0x80 ∧ link = 0xFF)) ∧ zeroAt b 7 1 ∧ zeroAt b 12 20 then
    some { origin := fieldAt b 0 2, link := link, half := fieldAt b 6 1, st := st, wtx := fieldAt b 4 1, wrx := fieldAt b 5 1
           seq := fieldAt b 8 2, boot := fieldAt b 10 2 }
  else none

/-- A received entry is newer than the one held. -/
def Net.newer (n : Net) (e : LsEntry) : Bool :=
  match n.entry? e.origin e.link e.half with
  | none => true
  | some old => old.boot != e.boot || (decide (1 ≤ (e.seq + 65536 - old.seq) % 65536) && decide ((e.seq + 65536 - old.seq) % 65536 ≤ 32767))

def Net.putEntry (n : Net) (e : LsEntry) : Net :=
  { n with map := n.map.filter (fun x => !lsKey x e.origin e.link e.half) ++ [e] }

/-- Send entries on every half-link in the routes but one, at most 18 a packet. -/
def Chip.sendLsa (c : Chip) (es : List LsEntry) (skip : Option (Nat × Nat)) : Chip :=
  c.upHalves.foldl (fun c (u : Nat × Nat) =>
    if some u = skip then c
    else (List.range (ceilDiv es.length 18)).foldl (fun c k => c.enq u.1 u.2 40
      { typ := tLSA, dst := (c.half u.1 u.2).peerPkg, src := c.pkg, data := ((es.drop (18 * k)).take 18).flatMap lsaBytes }) c) c

/-- The map changed: routes and the parent are found again, and what waited for a route goes (R113, R357, R492). -/
def Chip.mapChanged (c : Chip) : Chip :=
  let c : Chip := { c with net := { c.net with mapSince := c.elapsed } }
  ((c.bumpWrap rLNK_RTGEN).chooseParent).streamPaths.replayHeld

/-- STATE of an own half-link in its entry; DOWN while a class-C procedure runs on the link (R425). -/
def Chip.lsState (c : Chip) (l h : Nat) : Nat :=
  let i := c.island (linkIsland l)
  let asleep := c.pwr.st == .retained || (c.pwr.st == .entering && (List.range 8).all fun p => decide ((c.island (platIsland p)).st = .closed))
  if i.st ≠ .opened ∨ i.prepare ∨ asleep then 4
  else if c.amd.procs.any fun p => p.scope == 0x200 + l then 0
  else match (c.half l h).st with
    | .disabled => 5 | .down => 0 | .training => 1 | .up => 2 | .widthchg => 3

/-- Originate entries for own half-links: each takes the next SEQ. -/
def Chip.originate (c : Chip) (halves : List (Nat × Nat)) : Chip :=
  let r := halves.foldl (fun (a : Chip × List LsEntry) (u : Nat × Nat) =>
    let x := a.1.half u.1 u.2
    let e : LsEntry := { origin := c.pkg, link := u.1, half := u.2, st := a.1.lsState u.1 u.2, wtx := popCount 4 x.txMask, wrx := popCount 4 x.rxMask
                         seq := a.1.net.lsaSeq, boot := a.1.net.boot }
    ({ a.1 with net := { a.1.net.putEntry e with lsaSeq := (a.1.net.lsaSeq + 1) % 65536 } }, a.2 ++ [e])) (c, [])
  (r.1.sendLsa r.2 none).mapChanged

/-- Planned half-links of this package. -/
def Chip.plannedHalves (c : Chip) : List (Nat × Nat) :=
  (List.range 24).flatMap fun l => (halvesOf (c.plan l).kind).map fun h => (l, h)

/-- Take received entries (R357, R545). -/
def Chip.takeLsas (c : Chip) (es : List (List Byte)) (from' : Nat × Nat) : Chip :=
  let r := es.foldl (fun (a : Chip × List LsEntry) b =>
    match parseLsa b with
    | none => (a.1.bump rLNK_BADPKT, a.2)
    | some e =>
      if !a.1.net.newer e || e.origin == c.pkg then a
      else
        let c1 : Chip := { a.1 with net := a.1.net.putEntry e }
        (if e.st = 0x80 then c1.signal (.partitionStop e.origin) else c1, a.2 ++ [e])) (c, [])
  if r.2.isEmpty then r.1 else (r.1.sendLsa r.2 (some from')).mapChanged

/-! ### Replay (R347) -/

/-- The flits that an ACK leaves unacknowledged. -/
def ackDrop (sent : List SentFlit) (ack : Nat) : List SentFlit :=
  sent.filter fun f => decide (32768 ≤ (ack + 65536 - f.seq) % 65536)

/-- An ACK of the highest SEQ accepted in order. -/
def LinkHalf.gotAck (x : LinkHalf) (ack now : Nat) : LinkHalf :=
  let s := ackDrop x.sent ack
  if s.length < x.sent.length then { x with sent := s, ackAt := now } else x

/-- Token returns of a flit header: four entries of a pair code and a count. -/
def LinkHalf.gotTokens (x : LinkHalf) (flit : List Byte) : LinkHalf :=
  (List.range 4).foldl (fun x k =>
    let w := fieldAt flit (8 + 2 * k) 2
    let n := bitsOf w 9 0
    if n = 0 then x else { x with tok := tokAdd x.tok (bitsOf w 15 10) n }) x

/-! ### Loss of a link (R344, R358) -/

/-- Packets of a lost link: unacknowledged requests and posted packets are answered LINK_LOST, responses and tree packets go, and what was
still queued is routed again. -/
def Chip.loseSent (c : Chip) (p : Packet) : Chip :=
  let cl := (pktClass p.typ).getD 0
  if (cl = 2 ∨ cl = 3) ∧ p.typ ≠ tSTREAM then
    let c := c.bump rLNK_LINKLOST
    if p.src = c.pkg then c.requestFails p.dst p.tag 6 else c.answer (p.answer tERROR 6 [])
  else c

def Chip.requeue (c : Chip) (l : Nat) (p : Packet) : Chip :=
  if p.typ = tLSA then c
  else
    let p := { p with pass1 := p.pass1 && p.way1 != some (c.pkg, l), pass2 := p.pass2 && p.way2 != some (c.pkg, l) }
    match c.hop p with
    | some c => c
    | none =>
      let c := c.bump rLNK_NOROUTE
      let cl := (pktClass p.typ).getD 0
      if cl = 2 ∨ cl = 3 then if p.src = c.pkg then c.requestFails p.dst p.tag 5 else c.answer (p.answer tERROR 5 []) else c

/-- The training block that a transmit lane sends (R338): GOOD_RX names the peer's lanes that this end receives well. -/
def Chip.trainBlock (c : Chip) (l k phase : Nat) : List Byte :=
  let good := if phase = 0 then 0 else maskOf (((c.link l).rx.filter fun a => a.status == 0).map (·.logical)).eraseDups
  let b := leBytes 2 0x7E5B ++ leBytes 2 c.pkg ++ leBytes 1 l ++ leBytes 1 k ++ leBytes 1 phase ++ leBytes 1 good ++ leBytes 1 (phase / 2) ++ leBytes 5 0
  b ++ leBytes 2 (crc16 b)

/-- What the transmit lanes send from now on: the blocks of a phase on every lane that is neither shorted nor parked, the lanes of the other half
apart; or no more blocks. -/
def Chip.sendBlocks (c : Chip) (l h : Nat) (phase : Option Nat) : Chip :=
  let other := (c.half l (1 - h)).txMask
  let send := fun (y : Link) (k : Nat) =>
    if other.testBit k then y.blocks.getD k []
    else match phase with
      | some p => if (y.tx.getD k {}).status = 1 ∨ (y.tx.getD k {}).status = 7 then [] else c.trainBlock l k p
      | none => []
  c.setLink l fun y => { y with blocks := (List.range 4).map (send y) }

/-- A half-link leaves the routes for a state, with a LAST_FAIL. -/
def Chip.linkDown (c : Chip) (l h : Nat) (st : LkSt) (code : Nat) : Chip :=
  let x := c.half l h
  let was := x.st == .up || x.st == .widthchg
  let c := (c.sendBlocks l h none).setHalf l h fun y =>
    { st := st, since := c.elapsed, peerPkg := y.peerPkg, peerLink := y.peerLink, mismatch := y.mismatch && !was
      lastFail := if code = 0 then y.lastFail else code, tseq := y.tseq }
  let c := c.setTt fun t => { t with exch := t.exch.filter (fun e => e.1 != halfKey l h), clearRun := t.clearRun.filter fun e => e.1 != halfKey l h }
  if !was then c
  else
    let c := (c.signal (.edgeDown l h)).originate [(l, h)]
    let c := x.sent.foldl (fun c f => f.pkts.foldl Chip.loseSent c) c
    x.txq.foldl (fun c e => c.requeue l e.2) c

/-- The first phase of an attempt (R337). -/
def Chip.startTraining (c : Chip) (l h : Nat) : Chip :=
  c.setHalf l h fun x => { x with st := .training, phase := 0, since := c.elapsed, mismatch := false }

/-- A full retrain (R344): the half-link goes DOWN and a new attempt starts. -/
def Chip.retrain (c : Chip) (l h code : Nat) : Chip := (c.linkDown l h .down code).startTraining l h

/-- A failed attempt (R342). -/
def Chip.trainFail (c : Chip) (l h code : Nat) : Chip :=
  (c.linkDown l h .down code).bumpField (rLNK_TRAINS + l * 0x800) 31 16 1

/-- LNK_CTL.EN and LNK_LANEMAP of a link. -/
def Chip.linkEn (c : Chip) (l : Nat) : Bool := (c.reg (rLNK_CTL + l * 0x800)).testBit 0
def Chip.rxExcl (c : Chip) (l lane : Nat) : Bool := (c.reg (rLNK_LANEMAP + l * 0x800)).testBit (4 + lane)
def Chip.txExcl (c : Chip) (l lane : Nat) : Bool := (c.reg (rLNK_LANEMAP + l * 0x800)).testBit lane

/-- Put the flits of the replay buffer from a SEQ on the lanes again. -/
def LinkHalf.resend (x : LinkHalf) (seq : Nat) : LinkHalf :=
  (x.sent.filter fun f => decide ((f.seq + 65536 - seq) % 65536 < 32768)).foldl LinkHalf.putData x

/-- Send again from a SEQ: the flits stay in the replay buffer, and 16 replays of one SEQ retrain the link (R344, R347). -/
def Chip.replayFrom (c : Chip) (l h seq : Nat) : Chip :=
  let c := c.bump (rLNK_REPLAY + l * 0x800)
  let c := c.setHalf l h fun x =>
    ({ x with replays := if x.replaySeq = seq then x.replays + 1 else 1, replaySeq := seq, ackAt := c.elapsed } : LinkHalf).resend seq
  if 16 ≤ (c.half l h).replays then c.retrain l h 6 else c

/-! ### Training (R337–R341) -/

/-- A training block as a lane reads it: its inversion and the block the right way round; none without a good CRC. -/
def parseBlock (b : List Byte) : Option (Bool × List Byte) :=
  if b.length ≠ 16 then none
  else
    let inv := fieldAt b 0 2 == 0x81A4
    let b := if inv then b.map fun x => ~~~x else b
    if fieldAt b 0 2 = 0x7E5B ∧ crc16 (b.take 14) = fieldAt b 14 2 then some (inv, b) else none

/-- DETECT's result for a transmit lane (R340). -/
def Chip.detectLane (c : Chip) (l : Nat) (o : TrainObs) (k : Nat) : Lane :=
  { status := if c.txExcl l k then 7 else if o.shorts.getLsbD k then 1 else if o.opens.getLsbD k then 2 else 0, logical := k }

/-- The package and link that a block names. -/
def blockName (b : List Byte) : Nat × Nat := (fieldAt b 2 2, fieldAt b 4 1)

/-- The peer that the blocks of most lanes name (R339); where no name has most of them there is none. -/
def agreedPeer (names : List (Nat × Nat)) : Option (Nat × Nat) := names.find? fun n => decide (names.length < 2 * (names.filter (· == n)).length)

/-- The end of ID (R339): the receive lanes of a stream, and the peer it sees. A half of a split link looks at the blocks that do not name the other
half's peer. Where the blocks do not agree it sees the peer of its lowest lane, and no lane is GOOD (log entry 72). -/
def Chip.classify (c : Chip) (l h : Nat) (o : TrainObs) : List Lane × Option (Nat × Nat) × Bool :=
  let blocks := (List.range 4).map fun k => parseBlock (o.blocks.getD k [])
  let plan := c.plan l
  let split := plan.kind == 3
  let want := plan.peer h
  let other := plan.peer (1 - h)
  let names := (blocks.filterMap fun b => b.map fun x => blockName x.2).filter fun n => !split || n != other
  let agreed := if split && names.contains want then some want else agreedPeer names
  let lanes := (List.range 4).map fun k =>
    let old := (c.link l).rx.getD k {}
    match blocks.getD k none with
    | none => if split && (old.status == 0) && (c.link l).rx.length == 4 && (c.half l (1 - h)).rxPhys.testBit k then old
        else { status := if c.rxExcl l k then 7 else 3, logical := k }
    | some (inv, b) =>
      let name := blockName b
      let st := if c.rxExcl l k then 7 else if some name = agreed ∨ (split ∧ name = other) then 0 else 4
      { status := st, inverted := inv, logical := fieldAt b 5 1 % 4 }
  (lanes, if agreed.isSome then agreed else names.head?, agreed.isSome)

/-- The receive lanes that carry a stream: on a split link those whose blocks name this half's peer. -/
def streamLanes (c : Chip) (l h : Nat) (o : TrainObs) (lanes : List Lane) : List Nat :=
  (List.range 4).filter fun k =>
    (lanes.getD k {}).status == 0 && ((c.plan l).kind != 3 ||
      match parseBlock (o.blocks.getD k []) with
      | some (_, b) => blockName b == (c.plan l).peer h
      | none => false)

/-- The most lanes that a stream of a KIND takes (R341). -/
def maxLanes (kind : Nat) : Nat := if kind = 3 ∨ kind = 4 then 2 else 4

/-- Step 15 ends when every planned link is up (R46); one that changes its width is up. -/
def Chip.endStep15 (c : Chip) : Chip :=
  if c.boot.step = 15 ∧ !c.boot.stopped ∧ (c.plannedHalves.all fun u => (c.half u.1 u.2).st == .up || (c.half u.1 u.2).st == .widthchg) = true then
    { c with boot := { c.boot with step := 16, lockAt := c.elapsed } }
  else c

/-- The stream is UP (R337): SEQ 0, tokens as advertised, and its entry to the map. -/
def Chip.linkUp (c : Chip) (l h : Nat) (o : TrainObs) : Chip :=
  let tok := tokensAdvertised.map fun (e : Nat × Nat) => (e.1, max e.2 (tokGet o.tokens e.1))
  let c := c.setHalf l h fun x => { x with
    st := .up, phase := 0, since := c.elapsed, lastFail := 0, txSeq := 0, rxSeq := 0, naked := false, ackAt := c.elapsed, replays := 0
    ackOwed := false, crcAt := [], wait2 := 0, wait3 := 0, tok := tok, txq := [], sent := [], recv := [], mask := none }
  let c := (c.originate [(l, h)]).takeLsas o.lsas (l, h)
  let map := c.net.map
  let c := (List.range (ceilDiv map.length 18)).foldl (fun c k => c.enq l h 40
    { typ := tLSA, dst := (c.half l h).peerPkg, src := c.pkg, data := ((map.drop (18 * k)).take 18).flatMap lsaBytes }) c
  c.endStep15


/-- The blocks of the stream's peer that are seen at the end of a phase (R338). -/
def Chip.peerBlocks (c : Chip) (l h : Nat) (o : TrainObs) : List (List Byte) :=
  (o.blocks.filterMap fun b => (parseBlock b).map (·.2)).filter fun b => blockName b == (c.plan l).peer h

/-- The peer says that its equalisation has finished. -/
def Chip.peerEqDone (c : Chip) (l h : Nat) (o : TrainObs) : Bool := (c.peerBlocks l h o).any fun b => (fieldAt b 8 1).testBit 0

/-- The lanes that the peer receives well, from its blocks of WIDTH. -/
def Chip.peerGoodRx (c : Chip) (l h : Nat) (o : TrainObs) : Nat :=
  (((c.peerBlocks l h o).find? fun b => fieldAt b 6 1 == 2).map fun b => fieldAt b 7 1).getD 0

/-- This end advertises its receiver's tokens at INIT (R349): IDLEs carry the counts. -/
def LinkHalf.advertise (x : LinkHalf) : LinkHalf := ({ x with txSeq := 0, rxSeq := 0, ret := tokensAdvertised } : LinkHalf).idle 8

/-- A phase ends (R337, R339–R342). -/
def Chip.phaseEnd (c : Chip) (l h : Nat) (o : TrainObs) : Chip :=
  let x := c.half l h
  let next := fun (c : Chip) => c.setHalf l h fun y => { y with phase := y.phase + 1 }
  match x.phase with
  | 0 =>
    let c := c.passTo (x.since + tMs)
    let other := (c.half l (1 - h)).txMask
    let lane := fun (y : Link) (k : Nat) => if other.testBit k then y.tx.getD k {} else c.detectLane l o k
    next ((c.setLink l fun y => { y with tx := (List.range 4).map (lane y) }).sendBlocks l h (some 0))
  | 1 =>
    let (lanes, seen, agreed) := c.classify l h o
    let c := c.setLink l fun y => { y with rx := lanes }
    match seen with
    | none => next (c.sendBlocks l h (some 1))
    | some (p, m) =>
      let c := c.setHalf l h fun y => { y with peerPkg := p, peerLink := m }
      if agreed ∧ (c.plan l).peer h = (p, m) then next (c.sendBlocks l h (some 1))
      else
        let c := (c.trainFail l h 2).notice 339 (p + m * 65536)
        c.setHalf l h fun y => { y with mismatch := true }
  | 2 =>
    if !o.good || !c.peerEqDone l h o then c.trainFail l h 3
    else
      let rx := fun (y : Link) (k : Nat) =>
        let a := y.rx.getD k {}
        { a with lat := o.rxLat.getD k 0, status := if a.status = 0 ∧ o.eqFail.getLsbD k = true then 5 else a.status }
      let c := c.setLink l fun y => { y with
        tx := (List.range 4).map (fun k => { y.tx.getD k {} with lat := o.txLat.getD k 0 }), rx := (List.range 4).map (rx y) }
      next ((c.setReg (rLNK_EYE + l * 0x800) o.eyes.toNat).sendBlocks l h (some 2))
  | 3 =>
    let kind := (c.plan l).kind
    let peerGood := c.peerGoodRx l h o
    let c := c.sendBlocks l h none
    let rxs := streamLanes c l h o (c.link l).rx
    let txs := (List.range 4).filter fun k =>
      ((c.link l).tx.getD k {}).status == 0 && peerGood.testBit k && !(c.half l (1 - h)).txMask.testBit k
    let rx := rxs.take (maxLanes kind)
    let tx := txs.take (maxLanes kind)
    if rx.isEmpty ∨ tx.isEmpty then c.trainFail l h 1
    else
      let park := fun (ls : List Lane) (kept : List Nat) => (List.range 4).map fun k =>
        let a := ls.getD k {}
        if kind = 4 ∧ k ∉ kept then { a with status := 7 } else a
      let c := c.setLink l fun y => { y with tx := park y.tx tx, rx := park y.rx rx }
      next (c.setHalf l h fun y => { y with
        txMask := maskOf tx, rxPhys := maskOf rx, rxMask := maskOf (rx.map fun k => ((c.link l).rx.getD k {}).logical) })
  | 4 => if o.good then (next c).setHalf l h fun y => y.advertise else c.trainFail l h 4
  | _ => if o.good then c.linkUp l h o else c.trainFail l h 5

/-! ### The receiver (R345–R349) -/

/-- A flit that passes its CRC. -/
def flitGood (f : List Byte) : Bool := f.length == 640 && crc64 (f.take 632) == fieldAt f 632 8

/-- What the decoder met in a codeword (R335): it corrects up to 15 symbol errors. -/
def fecCorrects (errs : Nat) : Bool := decide (errs ≤ 15)

/-- A flit is discarded, and one NAK names the SEQ that the stream expects (R347). -/
def Chip.sendNak (c : Chip) (l h : Nat) : Chip :=
  c.setHalf l h fun x => if x.naked then x else { x.frame 3 0 0 0 (leBytes 2 x.rxSeq) with naked := true }

/-- A flit that fails its CRC (R345): counted, and a retrain when more than 64 fail within any 1 ms (R344). -/
def Chip.crcFailed (c : Chip) (l h : Nat) : Chip :=
  let c := c.bump (rLNK_CRCERR + l * 0x800)
  let c := c.setHalf l h fun x => { x with crcAt := (c.elapsed :: x.crcAt.filter fun t => decide (c.elapsed < t + tMs)).take 65 }
  if 64 < (c.half l h).crcAt.length then c.retrain l h 7 else c.sendNak l h

/-- One notice a turn for discarded packets (R352). -/
def Chip.badPackets (c : Chip) (n : Nat) : Chip :=
  if n = 0 then c
  else
    let c := c.bumpBy rLNK_BADPKT n
    if c.net.badNoted then c else ({ c with net := { c.net with badNoted := true } } : Chip).notice 352 0

/-- A flit's fixed fields (R346): no reserved FTYPE, class or bit, at most 19 packets, and SEQ, VC and PKTS 0 unless DATA. -/
def flitShape (f : List Byte) : Bool :=
  let ty := fieldAt f 0 1
  let vc := fieldAt f 1 1
  decide (ty ≤ 4) && zeroAt f 7 1 && zeroAt f 16 8 && decide (fieldAt f 6 1 ≤ 19) &&
    (if ty = 1 then decide (vc < 128) && decide (1 ≤ vc % 8) && decide (vc % 8 ≤ 5) && decide (bitsOf vc 5 3 ≤ 4) else zeroAt f 1 3 && zeroAt f 6 1) &&
    (if ty = 3 then zeroAt f 26 606 else if ty = 4 then zeroAt f 25 1 && zeroAt f 28 604 && decide (fieldAt f 24 1 < 16) else true)

/-- A flit reached a stream in the routes: its ACK and its tokens count (R347, R349). -/
def Chip.flitHeader (c : Chip) (l h : Nat) (f : List Byte) : Chip :=
  (c.setHalf l h fun x => (x.gotAck (fieldAt f 4 2) c.elapsed).gotTokens f).pump l h

/-- A stream takes flits: UP, or a sender whose peer asked for a width change (R343). -/
def Chip.listening (c : Chip) (l h : Nat) : Bool :=
  let x := c.half l h
  (x.st == .up || (x.st == .widthchg && x.mask.isNone)) && c.islOpen (linkIsland l)

/-- A stream takes TIME flits: it listens, or it is at INIT (R337). -/
def Chip.hearsTime (c : Chip) (l h : Nat) : Bool :=
  c.listening l h || ((c.half l h).st == .training && (c.half l h).phase == 5 && c.islOpen (linkIsland l))

/-- What a codeword brings to a stream (R335, R345, R347): a flit of an FTYPE that is whole has its effect. A codeword that could not be corrected, or a
flit whose CRC fails, is counted and discarded with a NAK. One that breaks the table of R346 is counted with the bad packets and has no other
effect (R10, log entry 73). `errs` are the symbol errors of the codeword. -/
def Chip.onFlit (c : Chip) (hears : Bool) (l h : Nat) (f : List Byte) (errs ftype : Nat) (eff : Chip → Chip) : Chip :=
  if !hears then c
  else if !fecCorrects errs then (c.bump (rLNK_FECUNC + l * 0x800)).sendNak l h
  else
    let c := if errs = 0 then c else c.bump (rLNK_FECCORR + l * 0x800)
    if !flitGood f then c.crcFailed l h
    else if !flitShape f then c.badPackets 1
    else if fieldAt f 0 1 ≠ ftype then c
    else eff c

/-- A buffer is free: its token goes back (R349). -/
def LinkHalf.free (x : LinkHalf) (code : Nat) : LinkHalf := { x with ret := tokAdd x.ret code 1 }

/-- A DATA flit (R347): accepted in SEQ order, or discarded with one NAK. -/
def Chip.dataFlit (c : Chip) (l h : Nat) (f : List Byte) (errs : Nat) : Chip :=
  c.onFlit (c.listening l h) l h f errs 1 fun c =>
    let c := c.flitHeader l h f
    if fieldAt f 2 2 ≠ (c.half l h).rxSeq then c.sendNak l h
    else
      let vc := fieldAt f 1 1
      let (ps, badn) := parseBody ((f.drop 24).take 608) (fieldAt f 6 1)
      let c := c.badPackets badn
      let code := if vc.testBit 6 then 0x3F else vc % 8 * 8 + bitsOf vc 5 3
      (c.setHalf l h fun x =>
        let x := { x with rxSeq := (x.rxSeq + 1) % 65536, naked := false, ackOwed := true }
        if ps.isEmpty then x.free code else { x with recv := x.recv ++ [{ code := code, pkts := ps }] }).pump l h

/-- Take the next packet of a type off a stream: none unless it is the first of its class that waits (R356). -/
def takePacket (typ : Nat) : List RecvFlit → Option (Packet × List RecvFlit)
  | [] => none
  | f :: rest =>
    match f.pkts.find? fun p => pktClass p.typ == pktClass typ with
    | some p => if p.typ ≠ typ then none else some (p, { f with pkts := f.pkts.erase p } :: rest)
    | none => (takePacket typ rest).map fun r => (r.1, f :: r.2)

/-- A stream keeps these buffers; those that are empty are freed, and their tokens go back at once (R349). -/
def Chip.keepBuffers (c : Chip) (l h : Nat) (rest : List RecvFlit) : Chip :=
  (c.setHalf l h fun x =>
    (rest.filter fun f => f.pkts.isEmpty).foldl (fun x f => x.free f.code) { x with recv := rest.filter fun f => !f.pkts.isEmpty }).pump l h

/-- The effect of a packet of a type that a stream holds: its own package's, or one in transit. -/
def Chip.onPacket (c : Chip) (l h typ : Nat) (eff : Packet → Chip → Chip) : Chip :=
  match takePacket typ (c.half l h).recv with
  | none => c
  | some (p, rest) =>
    let c := c.keepBuffers l h rest
    if p.dst = c.pkg then eff p c else c.transit p

end Sys2Proof.Machine
end

