-- ==== Sys2Proof/Machine/PortOps.lean ====
section
/-! DEFINITION. The port plan, and what the rest of the package does to a port: its links, MSI-X, sidings loss and queue pairs
(15_host_and_memory_ports.md R387–R406; 08_memory_tiers.md R228). -/

namespace Sys2Proof.Machine

/-! ### The port plan (R387, R405) -/

def Image.portPlan (im : Image) : Option (List Byte) := im.plan? 0xFFFF0002

/-- FX_MODE, FX_WIDTH, WIN_BASE and WIN_LOG2 of a flex port; without a plan an endpoint with BAR0 only. -/
def Image.fxMode (im : Image) (n : Nat) : Nat := match im.portPlan with | none => 1 | some b => fieldAt b (4 + n) 1
def Image.fxWidth (im : Image) (n : Nat) : Nat := match im.portPlan with | none => 16 | some b => fieldAt b (6 + n) 1
def Image.winBase (im : Image) (n : Nat) : Nat := match im.portPlan with | none => 0 | some b => fieldAt b (8 + 8 * n) 8
def Image.winLog2 (im : Image) (n : Nat) : Nat := match im.portPlan with | none => 0 | some b => fieldAt b (24 + n) 1

/-- An Ethernet entry of the plan. -/
def Image.ethEntry (im : Image) (n : Nat) : List Byte := match im.portPlan with | none => [] | some b => (b.drop (64 + 64 * n)).take 64
def Image.ethEn (im : Image) (n : Nat) : Bool := fieldAt (im.ethEntry n) 0 1 == 1
def Image.ethKey (im : Image) (n : Nat) : Nat := fieldAt (im.ethEntry n) 32 4
def Image.ethPmtu (im : Image) (n : Nat) : Nat := fieldAt (im.ethEntry n) 36 2

/-- The queue-pair entries of the plan. -/
def Image.qpEntries (im : Image) : List (List Byte) :=
  match im.portPlan with
  | none => []
  | some b => (List.range (fieldAt b 26 2)).map fun k => (b.drop (192 + 32 * k)).take 32

def qpPort (e : List Byte) : Nat := fieldAt e 0 1
def qpFlags (e : List Byte) : Nat := fieldAt e 1 1
def qpRing (e : List Byte) : Nat := fieldAt e 2 2
def qpNum (e : List Byte) : Nat := fieldAt e 4 4
def qpTimer (e : List Byte) : Nat := bitsOf (fieldAt e 8 4) 28 24
def qpPsn (e : List Byte) : Nat := fieldAt e 28 4 % 2 ^ 24

def Image.qpEntry (im : Image) (port qpn : Nat) : Option (List Byte) :=
  im.qpEntries.find? fun e => qpPort e == port && qpNum e == qpn

/-! ### State -/

def Chip.setPorts (c : Chip) (f : Ports → Ports) : Chip := { c with ports := f c.ports }
def Chip.fx (c : Chip) (n : Nat) : FxPort := c.ports.fx.getD n {}
def Chip.setFx (c : Chip) (n : Nat) (f : FxPort → FxPort) : Chip := c.setPorts fun p => { p with fx := setAt p.fx n f }
def Chip.eth (c : Chip) (n : Nat) : EthPort := c.ports.eth.getD n {}
def Chip.setEth (c : Chip) (n : Nat) (f : EthPort → EthPort) : Chip := c.setPorts fun p => { p with eth := setAt p.eth n f }

/-- A queue pair as its entry leaves it (R400). -/
def freshQp (e : List Byte) : QueuePair := { port := qpPort e, qpn := qpNum e, epsn := qpPsn e, spsn := qpPsn e }

/-- A queue pair of the plan: its state, or the fresh one. -/
def Chip.qp (c : Chip) (e : List Byte) : QueuePair :=
  (c.ports.qps.find? fun q => q.port == qpPort e && q.qpn == qpNum e).getD (freshQp e)
def Chip.setQp (c : Chip) (e : List Byte) (f : QueuePair → QueuePair) : Chip :=
  let q := f (c.qp e)
  c.setPorts fun p => { p with qps := p.qps.filter (fun x => !(x.port == q.port && x.qpn == q.qpn)) ++ if q = freshQp e then [] else [q] }

/-- The port die of a flex or Ethernet port (R22). -/
def portIsland (n : Nat) : Nat := 12 + n

/-- A port answers its host: an endpoint whose link is up, its function set up and its die open. -/
def Chip.fxLive (c : Chip) (n : Nat) : Bool :=
  c.im.fxMode n == 1 && (c.fx n).link == 2 && (c.fx n).ready && c.islOpen (portIsland n)

/-- Count a discarded write, or a correctable error (R394, R406). -/
def Chip.fxUncorr (c : Chip) (n : Nat) : Chip := c.bumpField (rPORT_FX_ERR + 0x40 * n) 15 0 1
def Chip.fxCorr (c : Chip) (n : Nat) : Chip := c.bumpField (rPORT_FX_ERR + 0x40 * n) 31 16 1

/-! ### MSI-X (R395) -/

/-- A byte of the MSI-X table: at reset every vector is masked. -/
def FxPort.msixByte (x : FxPort) (k : Nat) : Byte :=
  match x.msix.find? fun e => e.1 == k with
  | some e => e.2
  | none => if k % 16 = 12 then 1 else 0
def FxPort.msixField (x : FxPort) (k n : Nat) : Nat := leNat ((List.range n).map fun i => x.msixByte (k + i))

/-- A vector fires: its message goes out, or its pending bit is set while it is masked or the function is in D3hot; nothing while MSI-X is off. -/
def FxPort.fire (x : FxPort) (v : Nat) : FxPort :=
  if !x.msixCtl.testBit 15 then x
  else if x.d3 || x.msixCtl.testBit 14 || (x.msixByte (16 * v + 12)).getLsbD 0 then { x with pba := x.pba ||| 2 ^ v }
  else { x with sent := x.sent ++ [(x.msixField (16 * v) 8, x.msixField (16 * v + 8) 4)], pba := if x.pba.testBit v then x.pba - 2 ^ v else x.pba }

def Chip.msix (c : Chip) (n v : Nat) : Chip := if c.fxLive n then c.setFx n fun x => x.fire v else c
/-- A vector of every endpoint. -/
def Chip.msixAll (c : Chip) (v : Nat) : Chip := (c.msix 0 v).msix 1 v

/-! ### Sidings loss (R228, R398) -/

/-- Every wagon whose only frame was on a port is uncertain and unbacked; wagons in HBM lose their sidings frame. -/
def Mem.losePort (m : Mem) (port : Nat) : Mem :=
  let lost := fun (w : Wagon) => if w.loc = .sidings port then { w with loc := .unbacked, second := none, unc := 0xFFFF }
    else if w.second = some port then { w with second := none } else w
  let gone := fun (v : Move) => decide (v.dest = .sidings port) || decide ((m.wagon v.wagon).loc = .sidings port)
  { m with moves := m.moves.filter fun v => !gone v
           wagons := (m.wagons.map fun (e : Nat × Wagon) => (e.1, lost e.2)).filter fun e => e.2 ≠ {}
           sdgFrames := m.sdgFrames.filter fun e => e.1 != port }

def Chip.losePort (c : Chip) (n : Nat) : Chip :=
  if c.mem.sdgFrames.any (fun e => e.1 == n) then ({ c with mem := c.mem.losePort n }).notice 228 n else c

/-! ### Links of the ports -/

/-- The flex port's link goes down for a LINK code: CXL loses its sidings, an endpoint its MSI-X and BAR settings when `reset` says so. -/
def Chip.fxDown (c : Chip) (n link : Nat) (reset : Bool) : Chip :=
  let c := if c.im.fxMode n = 2 then c.losePort n else c
  c.setFx n fun x =>
    let y : FxPort := { x with link := link, speed := 0, width := 0, since := c.elapsed }
    if reset then { y with ready := false, mps := 128, cfg := [], d3 := false, msixCtl := 0, msix := [], pba := 0 } else y

/-- A link begins to train (R389, R397): its die is open and an endpoint's FXn_PERST_N is high. -/
def Chip.fxTrain (c : Chip) (n : Nat) : Chip :=
  let x := c.fx n
  let mode := c.im.fxMode n
  if !c.islOpen (portIsland n) || x.link != 0 || mode == 0 || (mode == 1 && x.perst) || (mode == 2 && decide (c.boot.step < 15)) then c
  else c.setFx n fun x => { x with link := 1, since := c.elapsed }

/-- PORT_FXn_CTL.RETRAIN (R398): the link goes down and trains again. -/
def Chip.fxRetrain (c : Chip) (n : Nat) : Chip := if c.islOpen (portIsland n) then (c.fxDown n 0 false).fxTrain n else c

/-- An egress SEND that the port has not had acknowledged goes again (R403). -/
def QueuePair.stall (q : QueuePair) : QueuePair := { q with item := q.item.map fun e => (e.1, false) }

/-- An Ethernet link goes down. -/
def Chip.ethDown (c : Chip) (n : Nat) : Chip :=
  (c.setEth n fun x => { x with up := false, ptpSeen := false, ptpLocked := false }).setPorts fun p =>
    { p with qps := p.qps.map fun q => if q.port = n then q.stall else q }

/-- A port die closes (R488, R490): it holds no Ethernet or flex-port state. The egress items that were taken stay taken. -/
def Chip.portsClosed (c : Chip) (n : Nat) : Chip :=
  let c := (c.fxDown n 0 true).ethDown n
  let c := c.setFx n fun x => { perst := x.perst }
  let c := c.setEth n fun _ => {}
  c.setPorts fun p => { p with qps := p.qps.filterMap fun q =>
    (if q.port ≠ n then some q
    else match q.item, c.im.qpEntry q.port q.qpn with
      | some i, some e => some { freshQp e with item := some i }
      | _, _ => none) }

/-- PORT_QPRESET (R400): the queue pair is ready to send again, from its plan's starting PSN. -/
def Chip.qpReset (c : Chip) (port qpn : Nat) : Chip :=
  match c.im.qpEntry port qpn with
  | none => c
  | some e => c.setQp e fun q => { freshQp e with item := q.stall.item }

/-- An up CXL host port with a backed sidings frame holds its die (R487, R496). -/
def Chip.sidingsHold (c : Chip) (n : Nat) : Bool :=
  c.im.fxMode n == 2 && (c.fx n).link == 2 && decide (0 < c.mem.sdgUsed n)

/-! ### Writes of a port (R393–R395, R401, R493) -/

/-- A doorbell's OFFSET in the network's addresses is this base plus its BAR0 offset (R401); a host's doorbells are queued under it too. -/
def dbBase : Nat := 2 ^ 63

/-- What the ports' memory traffic meets open: the depot fabric and the HBM. -/
def Chip.memOpen (c : Chip) : Bool := c.islOpen 10 && c.islOpen 11

def Chip.ethSend (c : Chip) (n : Nat) (m : EthOut) : Chip := c.setEth n fun x => { x with sent := x.sent ++ [m] }

/-- Advance TAKE item by item to a target, completing each with DONE (R392). -/
def Chip.consumeWalk (c : Chip) (r start dist : Nat) : Nat → Chip
  | 0 => c
  | fuel + 1 =>
    let c := c.clearHead r
    if dist ≤ idxDist start (c.ring r).take then c
    else match c.takeItem r .host with
      | none => c
      | some (i, c) => (c.completeItem r i.seq 0x00 0).consumeWalk r start dist fuel

/-- The items between TAKE and an index, when the index is an item boundary up to CMT. -/
def Ring.passed (x : Ring) (target : Nat) : Option (List RItem) :=
  let d := idxDist x.take target
  let among := x.items.filter fun i => decide (idxDist x.take i.idx < idxDist x.take x.cmt)
  if decide (d ≤ idxDist x.take x.cmt) && (d == 0 || target == x.cmt || among.any fun i => i.idx == target) then
    some (among.filter fun i => decide (idxDist x.take i.idx < d))
  else none

/-- A consume doorbell (R392): accepted when it answers true. A ring that is not OPEN refuses it (R259, R262). -/
def Chip.consumeDoorbell (c : Chip) (w : List Byte) : Chip × Bool :=
  let r := fieldAt w 0 2
  if 0x3FFF < r then (c, false)
  else
    let x := c.ring r
    let target := fieldAt w 4 4
    match x.passed target with
    | none => (c.refuseDb r, false)
    | some l =>
      let need := (l.filter fun i => decide (i.st = .committed) && c.wantsCompl r i).length
      let cr := c.ringCompl r
      if c.ringCons r == 2 && w.length == 16 && fieldAt w 2 2 == c.ringKey r && decide (x.st = .opened) &&
          (need == 0 || (decide ((c.ring cr).st = .opened) && decide (need ≤ c.ringFree cr))) then
        (c.consumeWalk r x.take (idxDist x.take target) (l.length + 1), true)
      else (c.refuseDb r, false)

/-- A doorbell of a window: 1 item, 2 tail, 3 consume (R390, R392). -/
def Chip.ring3 (c : Chip) (network : Bool) (window : Nat) (w : List Byte) : Chip × Bool :=
  match window with
  | 1 => c.itemDoorbell network w
  | 2 => if w.length = 16 then c.tailDoorbell network w else if 0x3FFF < fieldAt w 0 2 then (c, false) else (c.refuseDb (fieldAt w 0 2), false)
  | _ => c.consumeDoorbell w

/-- The share of a range that this package's objects hold, as (OFFSET, length) pairs. -/
def Chip.insideOf (c : Chip) (off n : Nat) : List (Nat × Nat) :=
  c.objs.filterMap fun e =>
    let lo := max off e.base
    let hi := min (off + n) (e.base + e.size)
    if e.heldBy c.pkg && decide (lo < hi) then some (lo, hi - lo) else none

/-- Every byte of a range lies in some object. -/
def Chip.covered (c : Chip) (off n : Nat) : Bool := ((c.insideOf off n).map (·.2)).sum == n

/-- Store the bytes of a write that lie in objects and in backed wagons; the second part says that some were discarded (R217, R394). -/
def Chip.writeInside (c : Chip) (off : Nat) (data : List Byte) : Chip × Bool :=
  let l := c.insideOf off data.length
  (l.foldl (fun (c : Chip) (e : Nat × Nat) => c.memWrite e.1 ((data.drop (e.1 - off)).take e.2)) c,
    !c.covered off data.length || l.any fun e => c.mem.anyUnbacked e.1 e.2)

/-- A memory write of a flex port's host, with its error count (R394). -/
def Chip.hostWrite (c : Chip) (n off : Nat) (data : List Byte) : Chip :=
  let r := c.writeInside off data
  if r.2 then r.1.fxUncorr n else r.1

/-- Perform a write of a port. Paths 0 and 1 are the hosts' of the flex ports; 2 + n + 4 × QPN is a queue pair's of Ethernet port n. A refused
doorbell fires vector 1 of its own function (R395); a network write is acknowledged once performed (R401). -/
def Chip.portPerform (c : Chip) (w : PortWrite) : Chip :=
  let n := w.path % 2
  let net := decide (2 ≤ w.path % 4)
  if w.off < dbBase then
    if net then
      let r := c.writeInside w.off w.data
      r.1.ethSend n (if r.2 then .access (w.path / 4) else .ack (w.path / 4))
    else c.hostWrite n w.off w.data
  else
    let r := c.ring3 net ((w.off - dbBase) / 65536) w.data
    if net then r.1.ethSend n (.ack (w.path / 4)) else if r.2 then r.1 else r.1.msix n 1

/-- A write leaves a port: it is performed, or it waits in its path's return queue of 256 while its island is closed or an earlier write
of the path waits (R493). A full return queue issues none. -/
def Chip.portWrite (c : Chip) (path off : Nat) (data : List Byte) : Chip :=
  let mine := c.ports.held.filter fun w => w.path % 4 == path % 4
  let w : PortWrite := { path := path, off := off, data := data, since := c.elapsed }
  if c.memOpen && mine.isEmpty then c.portPerform w
  else if 256 ≤ mine.length then c
  else (c.setPorts fun p => { p with held := p.held ++ [w] }).bump rPWR_BOUNCED

/-- Replay the writes that a closed island bounced back to the ports, in order (R493). -/
def Chip.portReplay (c : Chip) : Chip :=
  if !c.memOpen then c
  else c.ports.held.foldl Chip.portPerform (c.setPorts fun p => { p with held := [] })

end Sys2Proof.Machine
end

