-- ==== Sys2Proof/Machine/LedgerOps.lean ====
section
/-! DEFINITION. The fault ledger: records, the retention ledger and the mirror (21_faults.md R547, R549, R550; 18_service_pins_and_lamp_port.md R461). -/

namespace Sys2Proof.Machine

/-- KIND of a record (R547). -/
def kFAULT : Nat := 0x01
def kRAISE : Nat := 0x02
def kEND : Nat := 0x03
def kITEMS : Nat := 0x04
def kBOOT : Nat := 0x10
def kSTANDBY : Nat := 0x11
def kLIFECYCLE : Nat := 0x12
def kDEBUG : Nat := 0x13
def kLATCH : Nat := 0x14
def kLOST : Nat := 0x15

/-- SCOPE_KIND of R547. -/
def Scope.kind : Scope → Nat
  | .none => 0 | .task _ _ => 1 | .item _ _ => 2 | .cell _ => 3 | .island _ => 4 | .package => 5 | .partition => 6

/-- SCOPE_ID of R547; a partition has no number (log entry 22). -/
def Scope.id (pkg : Nat) : Scope → Nat
  | .none => 0 | .task r _ => r | .item r _ => r | .cell n => n | .island n => n | .package => pkg | .partition => 0

def Scope.seq : Scope → Nat
  | .task _ s => s | .item _ s => s | _ => 0

/-- The fields of a ledger record (R547). -/
structure LedgerRec where
  kind : Nat
  sev : Nat := 0
  scope : Scope := .none
  source : Nat := 0
  cause : Nat := 0
  state : Nat := 0
  depth : Nat := 0
  affected : Nat := 0
  related : Nat := 0
  items : List AbortedItem := []
  addr : Nat := 0
  unitWord : Nat := 0x00FFFFFF
  blob : Nat := 0xFFFFFFFF
  pc : Nat := 0
  subcause : Nat := 0
  arg : Nat := 0
  deriving DecidableEq, Repr

/-- An entry of ITEMS. -/
def itemEntry (i : AbortedItem) : List Byte := leBytes 2 i.1 ++ leBytes 2 0 ++ leBytes 4 i.2.1

/-- Entries padded with zeros to a field of `n` bytes. -/
def itemField (n : Nat) (l : List AbortedItem) : List Byte :=
  let b := (l.flatMap itemEntry).take n
  b ++ List.replicate (n - b.length) 0

/-- The header of a record that the FLT unit produces (R239, R241). -/
def ledgerHeader (seq : Nat) : List Byte :=
  leBytes 1 2 ++ leBytes 1 0x04 ++ leBytes 2 0 ++ leBytes 4 seq ++ leBytes 4 0 ++ leBytes 2 0 ++ leBytes 2 0x3000

/-- The bytes of a record after its header. -/
def Chip.ledgerBody (c : Chip) (no : Nat) (r : LedgerRec) : List Byte :=
  let tail := if r.kind = kITEMS then itemField 64 r.items
    else itemField 32 r.items ++ leBytes 8 r.addr ++ leBytes 4 r.unitWord ++ leBytes 4 r.blob ++ leBytes 4 r.pc ++
      leBytes 2 ((r.items.head?.map fun i => i.2.2).getD 0) ++ leBytes 2 r.subcause
  leBytes 4 no ++ leBytes 1 r.kind ++ leBytes 1 r.sev ++ leBytes 1 r.scope.kind ++ leBytes 1 r.source ++ leBytes 2 (r.scope.id c.pkg) ++
    leBytes 2 r.cause ++ leBytes 1 r.state ++ leBytes 1 r.depth ++ leBytes 2 (min r.affected 0xFFFF) ++ leBytes 8 c.tt.counter ++
    leBytes 8 c.tt.turnNum ++ leBytes 4 r.related ++ leBytes 4 r.scope.seq ++ tail ++
    (if r.kind = kITEMS then [] else leBytes 8 r.arg) ++ leBytes 8 0

/-- Write a record to the retention ledger, unless it is frozen (R546, R549). -/
def Chip.retain (c : Chip) (bytes : List Byte) : Chip :=
  if c.flt.frozen then c
  else { c with flt := { c.flt with ret := c.flt.ret.set c.flt.retNext bytes, retNext := (c.flt.retNext + 1) % 64 } }

/-- Append a record to the mirror (R461): a sector is erased before its first record is programmed. -/
def Chip.mirrorPut (c : Chip) (bytes : List Byte) : Chip :=
  let m := c.mirror
  if !m.on || m.size = 0 || !c.islOpen 1 then c
  else
    let a := m.next * 128 % m.size
    let (old, n) := if a % 4096 = 0 then (m.data.filter fun (e : Nat × Byte) => decide (e.1 < a) || decide (a + 4096 ≤ e.1), m.erases + 1)
      else (m.data, m.erases)
    let data := (List.range bytes.length).foldl (fun d k => sput 0xFF d (a + k) (bytes.getD k 0)) old
    { c with mirror := { m with data := data, next := m.next + 1, erases := n } }

/-- Records that go to the retention ledger (R549). -/
def LedgerRec.kept (r : LedgerRec) : Bool :=
  ((r.kind == kFAULT || r.kind == kRAISE || r.kind == kEND) && decide (3 ≤ r.sev)) || r.cause == 0x30 || r.cause == 0x31 ||
    decide (0x10 ≤ r.kind)

/-- Ring 0x0002 takes a record: it is open, and the ring engine runs. -/
def Chip.ledgerRing (c : Chip) : Bool := c.islOpen 10 && decide ((c.ring 2).st = .opened)

/-- Commit a record to ring 0x0002 where it has room, keep it where R549 says, and count it lost otherwise (R547, R549, R550). -/
def Chip.putRecord (c : Chip) (no : Nat) (r : LedgerRec) (toRing : Bool) : Chip :=
  let body := c.ledgerBody no r
  let seq := (c.ring 2).nextSeq
  let put := if toRing && c.ledgerRing then c.enginePut 2 (ledgerHeader 0 ++ body) else none
  let (bytes, c) := match put with
    | some c => (ledgerHeader seq ++ body, c)
    | none =>
      let c := if !toRing || !c.ledgerRing || r.kind == kLOST then c
        else
          let c := c.bumpField rFLT_LOST 15 0 1
          { c with flt := { c.flt with lostSince := c.flt.lostSince + 1 } }
      (ledgerHeader 0xFFFFFFFF ++ body, c)
  let c := if put.isSome || r.kept then c.mirrorPut bytes else c
  if r.kept then c.retain bytes else c

/-- Write a record with the next RECORD_NO (R547). -/
def Chip.ledger (c : Chip) (r : LedgerRec) (toRing : Bool) : Nat × Chip :=
  let no := c.flt.recNo + 1
  let c : Chip := { c with flt := { c.flt with recNo := no } }
  (no, c.putRecord no r toRing)

/-- A notice: written while ring 0x0002 has at least 1,024 free words, counted otherwise; an unwritten notice takes no number (R550; log entry 22). -/
def Chip.ledgerNotice (c : Chip) (r : LedgerRec) : Chip :=
  if !c.ledgerRing then c
  else if 1024 ≤ c.ringFree 2 then (c.ledger r true).2
  else c.bumpField rFLT_LOST 31 16 1

/-- A record for the retention ledger alone. -/
def Chip.keepOnly (c : Chip) (r : LedgerRec) : Chip := (c.ledger r false).2

/-- A record of the package's own kinds, of severity 0: R547 sends them to ring 0x0002 too, and R550 leaves them out of it while it has fewer than
1,024 free words; the retention ledger takes them in any case (R549; log entry 22). -/
def Chip.ledgerOwn (c : Chip) (r : LedgerRec) : Chip :=
  if !c.ledgerRing then c.keepOnly r
  else if 1024 ≤ c.ringFree 2 then (c.ledger r true).2
  else (c.keepOnly r).bumpField rFLT_LOST 31 16 1

/-- The boot record of R67 and step 17 (R549): the code in CAUSE, the step in SUBCAUSE, and SB_BOOTSTAT's slot codes with the
flash modes in ARG (log entry 22). -/
def Chip.bootRecord (c : Chip) : Chip :=
  c.ledgerOwn { kind := kBOOT, cause := c.boot.code, subcause := c.boot.step
                arg := packFields [(8, c.boot.slotA), (8, c.boot.slotB), (4, c.regField rNVM_PINCHK_PRI 27 24), (4, c.regField rNVM_PINCHK_FBK 27 24)] }

end Sys2Proof.Machine
end

