-- ==== Sys2Proof/Machine/SecOps.lean ====
section
/-! DEFINITION. The lifecycle as the fuses give it, and what ends a debug session (20_security_and_debug.md R508, R520, R524, R526). -/

namespace Sys2Proof.Machine

/-- The lifecycle state: it takes effect as soon as copy A is written (R509). -/
def Otp.lc (o : Otp) : Nat := o.lcA

def Chip.setDbg (c : Chip) (f : Dbg → Dbg) : Chip := { c with sec := { c.sec with dbg := f c.sec.dbg } }

/-- The cells that are halted: by DBG_HALT, or by a part that was saved halted (R520). -/
def Chip.haltedCells (c : Chip) : Nat :=
  c.reg64 rDBG_HALTED_LO ||| maskOf ((List.range 64).filter fun n => ((c.partAt n).map (·.halted)).getD false)

/-- The level is D2, or something is halted (R526). -/
def Chip.dbgBusy (c : Chip) : Bool := c.sec.dbg.level == 2 || c.haltedCells != 0 || c.sec.dbg.cores != 0

/-- Resume a cell's part with its state as left (R520). -/
def Chip.resumeCell (c : Chip) (n : Nat) : Chip :=
  c.setCell n fun x => { x with ps := x.ps.map fun p => { p with halted := false } }

/-- Every halted cell and core resumes; saved parts too. -/
def Chip.resumeAll (c : Chip) : Chip :=
  let c := (List.range 64).foldl Chip.resumeCell c
  let c := c.setDisp fun d => { d with saved := d.saved.map fun p => { p with halted := false } }
  let c := (c.setReg64 rDBG_HALT_LO 0).setReg64 rDBG_HALTED_LO 0
  c.setDbg fun d => { d with coreHalt := 0, cores := 0 }

/-- The token buffer is cleared (R478, R524). -/
def Chip.clearTokens (c : Chip) : Chip :=
  { c with regs := c.regs.filter fun (e : Nat × Word) => decide (e.1 < rDBG_TOKBUF) || decide (rDBG_TOKBUF + 0x4000 ≤ e.1) }

/-- A lamp session ends (R478). -/
def Chip.lampEnd (c : Chip) : Chip :=
  if c.lamp.session.isNone then c else ({ c with lamp := { c.lamp with session := none } } : Chip).clearTokens

/-- The end of a session (R524): everything resumes, the token buffer is cleared, and the level becomes D0. -/
def Chip.dbgEnd (c : Chip) : Chip :=
  c.resumeAll.clearTokens.setDbg fun d => { d with level := 0, free := false, endAt := 0, permit := 0 }

end Sys2Proof.Machine
end

