-- ==== Sys2Proof/Machine/PowerOps.lean ====
section
/-! DEFINITION. Islands closing and opening, package transitions, frequencies and start-up stop (19_power_states.md R484–R507; 02 R67; 23 R588). -/

namespace Sys2Proof.Machine

/-! ### Islands -/

/-- The island is not of this assembly (R22): I13 on TN-H8X1. -/
def absentIsland (o : Otp) (n : Nat) : Bool := o.assy == 4 && n == 13

/-- The islands that ISLAND_STATE moves (R485). -/
def movable (n : Nat) : Bool := (decide (2 ≤ n) && decide (n ≤ 9)) || n == 12 || n == 13
def isPlatIsland (n : Nat) : Bool := decide (2 ≤ n) && decide (n ≤ 9)
def isDieIsland (n : Nat) : Bool := n == 12 || n == 13
def platIslands : List Nat := (List.range 8).map platIsland

/-- An island that is present and did not fail at start-up (R484). -/
def Chip.plannedIsland (o : Otp) (c : Chip) (n : Nat) : Bool := !absentIsland o n && !(c.reg rPWR_FAILED).testBit n

/-- No island opens again until PORST_N (R67, R544, R546). -/
def Chip.halted (c : Chip) : Bool := c.boot.stopped || c.flt.stop || c.flt.latch

/-- The duration of the last transition (R506). -/
def Chip.lastTrans (c : Chip) (began : Nat) : Chip := c.setReg rPWR_LASTTRANS (min ((c.elapsed - began) / tUs) (2 ^ 32 - 1))

/-- This package's planned half-links on a port die. -/
def Chip.dieHalves (c : Chip) (n : Nat) : List (Nat × Nat) := c.plannedHalves.filter fun u => linkIsland u.1 == n

def Chip.signalEdges (c : Chip) (halves : List (Nat × Nat)) : Chip :=
  halves.foldl (fun c (u : Nat × Nat) => if (c.half u.1 u.2).st == .up || (c.half u.1 u.2).st == .widthchg then c.signal (.edgeDown u.1 u.2) else c) c

/-- The island of the unit of a class-C scope (R426). -/
def scopeIsland (s : Nat) : Nat :=
  if s / 256 = 1 then platIsland (s % 256) else if s / 256 = 2 then linkIsland (s % 256) else if s / 256 = 3 then portIsland (s % 256)
  else if s / 256 = 4 then (if s % 256 < 40 then 1 else 0) else 10

/-- A class-C procedure runs in an island's scope (R487). -/
def Chip.classCIn (c : Chip) (n : Nat) : Bool := c.amd.procs.any fun p => scopeIsland p.scope == n

/-- Prepare begins (R488): a platform's parts are saved, a port die's links are advertised CLOSED. -/
def Chip.beginClose (c : Chip) (n : Nat) : Chip :=
  let c := c.setIsland n fun i => { i with prepare := true, since := c.elapsed, began := c.elapsed, queued := none }
  if isPlatIsland n then c.saveForClose (n - 2)
  else if isDieIsland n then (c.signalEdges (c.dieHalves n)).originate (c.dieHalves n)
  else c.setIsland n fun i => { i with prepare := false, st := .closing, leftOpen := c.elapsed }

/-- A CLOSE (R487). An island without a prepare phase enters CLOSING at once. -/
def Chip.closeIsland (c : Chip) (n : Nat) : Chip :=
  let i := c.island n
  match i.st with
  | .opened => if i.prepare then c.setIsland n fun x => { x with queued := none }
    else if c.classCIn n && !c.halted then c.setIsland n fun x => { x with queued := some false }
    else c.beginClose n
  | .opening => c.setIsland n fun x => { x with queued := some false }
  | .closing => c.setIsland n fun x => { x with queued := none }
  | .closed => c

/-- OPENING begins (R491). -/
def Chip.beginOpen (c : Chip) (n : Nat) : Chip :=
  c.setIsland n fun i => { i with st := .opening, since := c.elapsed, began := c.elapsed, queued := none }

/-- An OPEN (R487). None takes effect while the package sleeps or has stopped (log entry 23). -/
def Chip.openIsland (c : Chip) (n : Nat) : Chip :=
  let i := c.island n
  if c.halted || !(c.pwr.st == .run || c.pwr.st == .exiting) then c
  else match i.st with
    | .closed => c.beginOpen n
    | .closing => c.setIsland n fun x => { x with queued := some true }
    | .opened => c.setIsland n fun x => { x with queued := if x.prepare then some true else none }
    | .opening => c.setIsland n fun x => { x with queued := none }

/-- Prepare of an island is done: nothing of a platform is being saved; every flit of a die is acknowledged. -/
def Chip.prepared (c : Chip) (n : Nat) : Bool :=
  if isPlatIsland n then !c.savingPlat (n - 2) else (c.dieHalves n).all fun u => (c.half u.1 u.2).sent.isEmpty

/-- The end of prepare (R488): at 50 µs a die's links that still wait go DOWN; its Ethernet port and its PCIe endpoint go down. -/
def Chip.prepareEnd (c : Chip) (n : Nat) : Chip :=
  let i := c.island n
  let c := if isDieIsland n then
      let c := if c.prepared n then c else c.passTo (i.since + 50 * tUs)
      let c := (c.dieHalves n).foldl (fun c (u : Nat × Nat) =>
        if (c.half u.1 u.2).sent.isEmpty then c else c.linkDown u.1 u.2 .down 0) c
      (c.fxDown (n - 12) 0 true).ethDown (n - 12)
    else c
  c.setIsland n fun x => { x with st := .closing, prepare := false, since := c.elapsed, leftOpen := c.elapsed }

/-- The registers of a platform's cells and of a die's links that close with it hold their reset values (R490). -/
def Chip.dropRegs (c : Chip) (lo hi : Nat) : Chip :=
  { c with regs := c.regs.filter fun (e : Nat × Word) => decide (e.1 < lo) || decide (hi ≤ e.1) }

/-- The read-only counts of a link. -/
def linkCounts : List Nat := [rLNK_TRAINS, rLNK_FECCORR, rLNK_FECUNC, rLNK_CRCERR, rLNK_REPLAY, rLNK_EYE, rLNK_TTOFF]

/-- What a closed island no longer holds (R490). -/
def Chip.emptyIsland (c : Chip) (n : Nat) : Chip :=
  if isPlatIsland n then
    (List.range 8).foldl (fun c k =>
      let cell := 8 * (n - 2) + k
      let c : Chip := { c with xfers := c.xfers.filter fun x => x.cell != cell }
      (c.unqueue cell).setCell cell fun _ => {}) c
  else if isDieIsland n then
    let links := (List.range 12).map fun k => 12 * (n - 12) + k
    let c := links.foldl (fun c l =>
      let c := [0, 1].foldl (fun c h => if (c.half l h).st == .up || (c.half l h).st == .widthchg then c.linkDown l h .disabled 0 else c) c
      let c := linkCounts.foldl (fun c r => { c with regs := c.regs.filter fun (e : Nat × Word) => e.1 != r + l * 0x800 }) c
      c.setLink l fun _ => {}) c
    c.portsClosed (n - 12)
  else c

/-! ### Frequencies (R106, R588) -/

/-- The frequency a platform is to run at: the lowest of its set frequency and the three ceilings. -/
def Chip.targetMhz (c : Chip) (p : Nat) : Nat :=
  min (min (c.island (platIsland p)).mhz (c.pwr.therm.getD p 0xFFFF)) (min c.pwr.pceil (c.pwr.supp.getD p 0xFFFF))

/-- Move a platform toward the frequency it is to run at. -/
def Chip.retune (c : Chip) (p : Nat) : Chip :=
  let t := c.targetMhz p
  let i := c.island (platIsland p)
  if i.change.getD i.running = t then c
  else c.setIsland (platIsland p) fun x => { x.setRunning (min x.running t) c.elapsed with change := some t, changeAt := c.elapsed }

def Chip.retuneAll (c : Chip) : Chip := (List.range 8).foldl Chip.retune c

/-- A new set frequency (R106, R588). -/
def Chip.setMhz (c : Chip) (isl f : Nat) : Chip := (c.setIsland isl fun x => { x with mhz := f }).retune (isl - 2)

/-! ### Package transitions (R486, R487, R497–R502) -/

def Chip.setPwr (c : Chip) (f : Power → Power) : Chip := { c with pwr := f c.pwr }

/-- The FLT unit has nothing to handle (R543). -/
def Chip.fltIdle (c : Chip) : Bool := c.flt.stack.isEmpty && c.flt.queue.isEmpty

/-- Every island of a list is CLOSED. -/
def Chip.allClosed (c : Chip) (l : List Nat) : Bool := l.all fun n => decide ((c.island n).st = .closed)

/-- A die that stays open in P2 (R496): its Bilsal links and its Ethernet port go down. -/
def Chip.keepDie (c : Chip) (n : Nat) : Chip :=
  let c := (c.dieHalves n).foldl (fun c (u : Nat × Nat) => c.linkDown u.1 u.2 .down 0) c
  (c.originate (c.dieHalves n)).ethDown (n - 12)

/-- Entry goes on as platforms and port dies close (R497). -/
def Chip.entryStep (c : Chip) : Chip :=
  if c.pwr.st ≠ .entering || !c.allClosed platIslands then c
  else [12, 13].foldl (fun c n =>
    if (c.island n).st ≠ .opened || (c.island n).prepare then c
    else if c.sidingsHold (n - 12) && !c.pwr.deep then
      (if (c.dieHalves n).any fun u => (c.half u.1 u.2).st != .disabled && (c.half u.1 u.2).st != .down then c.keepDie n else c)
    else c.beginClose n) c

/-- Entry begins (R497, R499). -/
def Chip.beginEntry (c : Chip) (deep : Bool) : Chip :=
  let c := c.setPwr fun p => { p with st := .entering, deep := deep, pendOp := none, waitDebug := none, began := c.elapsed }
  (platIslands.foldl Chip.closeIsland c).entryStep

/-- An ENTER that waits takes effect once no transition runs, the FLT unit is idle (R543), and nothing is held by debug (R526). -/
def Chip.tryEnter (c : Chip) : Chip :=
  match c.pwr.pendOp with
  | none => c
  | some op =>
    if c.halted || c.pwr.st == .entering || c.pwr.st == .exiting || c.pwr.st == .standby || c.pwr.st == .railWait || !c.fltIdle then c
    else if c.pwr.st == .retained && op == 3 then c.setPwr fun p => { p with pendOp := none }
    else if c.dbgBusy then
      (if c.pwr.waitDebug.isSome then c else c.setPwr fun p => { p with waitDebug := some c.elapsed })
    else c.beginEntry (op == 4)

/-- ENTER_P2 (3) or ENTER_P3 (4). -/
def Chip.enterPower (c : Chip) (op : Nat) : Chip := (c.setPwr fun p => { p with pendOp := some op }).tryEnter

/-- Exit from P2 begins (R498): HBM leaves self-refresh, and debug returns to D0. -/
def Chip.beginExit (c : Chip) (src : Nat) : Chip :=
  let c := c.setPwr fun p => { p with st := .exiting, lastWake := src, pendWake := none, began := c.elapsed }
  c.dbgEnd.beginOpen 11

/-- A wake event (R487, R502); one from P3 is the wake commands' own. -/
def Chip.wakeP2 (c : Chip) (src : Nat) : Chip :=
  match c.pwr.st with
  | .retained => c.beginExit src
  | .entering => c.setPwr fun p => { p with pendWake := some src }
  | _ => c

/-- The scopes an operation of ISLAND_STATE permits, and the islands that it names (R486); none where it fires with no effect. -/
def Chip.stateIslands (o : Otp) (c : Chip) (scope op : Nat) : Option (List Nat) :=
  if op = 1 ∨ op = 2 then
    if isIslandScope scope then
      (if movable (scope - 0x100) && !absentIsland o (scope - 0x100) then some [scope - 0x100] else none)
    else if isPlatScope scope then some ((maskList 8 (scope % 256)).map platIsland)
    else if scope = 0 ∧ op = 1 then some ((platIslands ++ [12, 13]).filter (Chip.plannedIsland o c))
    else none
  else if (op = 3 ∨ op = 4) ∧ scope = 0 then some []
  else none

/-- ISLAND_STATE (R486, R487). -/
def Chip.islandState (o : Otp) (c : Chip) (scope arg : Nat) : Chip :=
  match c.stateIslands o scope arg with
  | none => c.notice 486 arg
  | some isl =>
    if c.halted then c
    else if arg = 1 then isl.foldl Chip.openIsland (if scope = 0 then c.wakeP2 4 else c)
    else if arg = 2 then isl.foldl (fun c n => if isDieIsland n && c.sidingsHold (n - 12) then c.notice 487 n else c.closeIsland n) c
    else c.enterPower arg

/-- An island is CLOSED (R488): what it held is gone, and a request that waits takes effect. -/
def Chip.finishClose (c : Chip) (n : Nat) : Chip :=
  let c := (c.emptyIsland n).setIsland n fun i => { i with st := .closed, since := c.elapsed, replica := false, queued := none, change := none }
  c.lastTrans (c.island n).began

/-! ### Start-up stop (R67) -/

/-- Close every island but those listed (R67, R544, R546). -/
def Chip.closeAll (c : Chip) (keep : List Nat) : Chip :=
  (platIslands ++ [12, 13, 10, 11, 1]).foldl (fun c n => if n ∈ keep then c else c.closeIsland n) c

/-- Every ring closes at start-up stop (R262). -/
def Chip.closeRings (c : Chip) : Chip := (c.rings.map (·.1)).foldl (fun (c : Chip) r => if (c.ring r).st = .closed then c else c.closeRing r) c

/-- Start-up stops with a code (R67, R68, R262). -/
def Chip.startStop (c : Chip) (code : Nat) : Chip :=
  let c : Chip := { c with boot := { c.boot with stopped := true, code := code } }
  ((c.bootRecord.closeRings.closeAll [1]).signal .bootCode)

end Sys2Proof.Machine
end

