-- ==== Sys2Proof/Machine/FaultOps.lean ====
section
/-! DEFINITION. The fault service: scopes, containment, classification, recovery and package stop (21_faults.md R532–R552). -/

namespace Sys2Proof.Machine

def Chip.setFlt (c : Chip) (f : FltUnit → FltUnit) : Chip := { c with flt := f c.flt }

/-! ### The fault plan (R553) -/

def Image.partCrit (im : Image) : Bool := match im.plan? 0xFFFF0004 with | none => false | some b => fieldAt b 4 1 == 1
def Image.quarCount (im : Image) : Nat := match im.plan? 0xFFFF0004 with | none => 3 | some b => fieldAt b 5 1
def Image.quarWindow (im : Image) : Nat := match im.plan? 0xFFFF0004 with | none => 10 * tSec | some b => fieldAt b 6 2 * tSec

/-! ### Scopes (R532, R533) -/

/-- The parts of a task on cells and in save frames, with their cells. -/
def Chip.taskParts (c : Chip) (ring seq : Nat) : List PartState :=
  ((List.range 64).filterMap fun n => c.partAt n).filter (fun p => p.part.ring == ring && p.part.seq == seq) ++
    c.disp.saved.filter fun p => p.part.ring == ring && p.part.seq == seq

/-- The cells of a task's parts. -/
def Chip.taskCells (c : Chip) (ring seq : Nat) : List Nat :=
  (List.range 64).filter fun n =>
    (match c.partAt n with | some p => p.part.ring == ring && p.part.seq == seq | none => false) ||
      c.disp.saved.any fun p => p.cell == n && p.part.ring == ring && p.part.seq == seq

/-- Scope a lies inside scope b (R533). -/
def Chip.inside (c : Chip) (a b : Scope) : Bool :=
  match b with
  | .partition => a != .partition
  | .package => a != .partition && a != .package
  | .island n =>
    match a with
    | .cell k => cellIsland k == n
    | .task r s => (c.taskCells r s).any fun k => cellIsland k == n
    | _ => false
  | .cell n =>
    match a with
    | .task r s => n ∈ c.taskCells r s
    | _ => false
  | _ => false

/-- A cell, or the links of a port die, is held by a fault that is not resolved (R535). -/
def Chip.holds (c : Chip) (p : Nat → Scope → Bool) : Bool :=
  (c.flt.stack.any fun h => p h.sev h.scope) || (c.flt.queue.any fun q => p q.d.sev q.d.scope)

def Chip.containedCell (c : Chip) (n : Nat) : Bool :=
  c.flt.stop || c.holds fun sev sc => decide (4 ≤ sev) || sc == .cell n || sc == .island (cellIsland n)

def Chip.containedDie (c : Chip) (n : Nat) : Bool := c.holds fun _ sc => sc == .island n

/-- Containment as the unresolved faults leave it (R535): cells that issue nothing, and links of a die that are DOWN. -/
def Chip.contain (c : Chip) : Chip :=
  let c := (List.range 64).foldl (fun c n =>
    let b := c.containedCell n
    if (c.cell n).stoppedIssue = b then c else c.setCell n fun x => { x with stoppedIssue := b }) c
  [12, 13].foldl (fun c n =>
    if c.containedDie n then (c.dieHalves n).foldl (fun c (u : Nat × Nat) =>
      let st := (c.half u.1 u.2).st
      if st = .disabled ∨ st = .down then c else c.linkDown u.1 u.2 .down 0) c
    else c) c

/-! ### Records -/

/-- The items that a thread holds, with their mileposts. -/
def Chip.itemsOf (c : Chip) (t : Thread) : List AbortedItem :=
  t.heldItems.map fun e => (e.1, e.2, (((c.ring e.1).item? e.2).map (·.mile)).getD 0)

/-- The record of a detected fault (R547): it lists what the faulting thread holds. -/
def Chip.faultRec (c : Chip) (kind state related depth : Nat) (d : Detected) : LedgerRec :=
  let items := match c.thread? d.atCell d.atThread with | some t => c.itemsOf t | none => []
  { kind := kind, sev := d.sev, scope := d.scope, source := d.source, cause := d.cause, state := state, depth := depth
    affected := items.length, related := related, items := items, addr := d.addr
    unitWord := packFields [(8, d.atCell), (8, d.atThread), (8, d.unitId)], blob := d.blob, pc := d.pc, subcause := d.subcause, arg := d.arg }

/-! ### Aborting work (R222, R537, R551) -/

/-- The pages of this package logged against an item; every page of the objects it wrote when the log overflowed while the item was held (R222).
Pages of other packages are left out (log entry 66). -/
def Chip.itemPages (c : Chip) (ring seq : Nat) : List Nat :=
  let parts := ((List.range 64).filterMap fun n => c.partAt n) ++ c.disp.saved
  let mine := fun (w : Nat) => w / 2 ^ 34 == c.pkg
  let log := (parts.flatMap (·.touch)).filter fun e => e.ring == ring && e.seq == seq && mine e.wagon
  let spill := ((parts.flatMap (·.overflow)).filter fun (e : Nat × Nat × Nat) => e.1 == ring && e.2.1 == seq).map fun e => e.2.2
  if !(parts.any fun p => p.spilled.any fun e => e.1 == ring && e.2 == seq) then log.flatMap fun e => (maskList 16 e.mask).map fun k => e.wagon % 2 ^ 34 * 16 + k
  else
    let wagons := log.map (·.wagon) ++ spill.filter mine
    (c.heldObjs.filter fun o => wagons.any fun w => w % 2 ^ 34 ∈ o.wagons).flatMap fun o => o.wagons.flatMap fun w => (List.range 16).map fun k => 16 * w + k

/-- What an abort has done so far. -/
abbrev Aborted := Chip × List AbortedItem × List Nat

/-- Abort an item: its pages are marked uncertain, and it completes PARTIAL with the milepost it holds. -/
def abortItem (a : Aborted) (ring seq : Nat) : Aborted :=
  let c := a.1
  match (c.ring ring).item? seq with
  | none => a
  | some i =>
    if i.st ≠ .taken then a
    else
      let pages := c.itemPages ring seq
      let c : Chip := { c with mem := pages.foldl Mem.markPage c.mem }
      (c.completeItem ring seq 0x01 0, a.2.1 ++ [(ring, seq, i.mile)], (a.2.2 ++ pages).eraseDups)

/-- A cell gives up its part (R537): it is IDLE once its transfers have finished, and a switch that was to load the part ends. -/
def Chip.clearCell (c : Chip) (n ring seq : Nat) : Chip :=
  let mine := fun (k : Option (Nat × Nat × Nat)) => match k with | some k => k.1 == ring && k.2.1 == seq | none => false
  let own := match c.partAt n with | some p => p.part.ring == ring && p.part.seq == seq | none => false
  let coming := match (c.cell n).switch with | some w => mine w.incoming | none => false
  if !own && !coming then c
  else
    let c := if own then c.unqueue n else c
    let c : Chip := { c with net := { c.net with asked := c.net.asked.filter fun q => !(own && q.cell == n) } }
    let busy := c.xfers.any fun x => x.cell == n
    c.setCell n fun x =>
      let ps := if own then none else x.ps
      let sw := match x.switch with
        | some w => if coming || w.incoming.isNone then none else some w
        | none => none
      { x with ps := ps, last := if own then x.ps else x.last, starting := if own then none else x.starting, switch := sw, draining := x.draining || (own && busy)
               st := if x.st = .closed then .closed else if sw.isSome then .switch else if ps.isSome then .run else .idle }

/-- The S1 actions on a task. -/
def abortTask (a : Aborted) (ring seq : Nat) : Aborted :=
  let held := ((a.1.taskParts ring seq).flatMap fun p => p.threads.flatMap Thread.heldItems).eraseDups
  let a := held.foldl (fun a e => abortItem a e.1 e.2) a
  let t := a.1.disp.task? ring seq
  let a := match t with
    | some t => if t.posted then a else abortItem a ring seq
    | none => a
  let c := (List.range 64).foldl (fun c n => c.clearCell n ring seq) a.1
  (c.setDisp fun d => { d.dropTask ring seq with
    saved := d.saved.filter fun p => !(p.part.ring == ring && p.part.seq == seq) }, a.2.1, a.2.2)

/-- The tasks with a running or saved part on a cell. -/
def Chip.tasksOn (c : Chip) (n : Nat) : List (Nat × Nat) :=
  let run := match c.partAt n with | some p => [(p.part.ring, p.part.seq)] | none => []
  (run ++ (c.disp.saved.filter fun p => p.cell == n).map fun p => (p.part.ring, p.part.seq)).eraseDups

/-- The S2 actions on a cell: every task on it is aborted, and the cell is zeroed. -/
def abortCell (a : Aborted) (n : Nat) : Aborted :=
  let a := (a.1.tasksOn n).foldl (fun a e => abortTask a e.1 e.2) a
  let c := a.1
  let c := match (c.cell n).switch with | some w => c.unclaim w | none => c
  (c.setCell n fun x => { x with ps := none, last := none, starting := none, switch := none, st := if x.st = .closed then .closed else .idle }, a.2.1, a.2.2)

/-- The actions for a scope. -/
def abortScope (a : Aborted) (s : Scope) : Aborted :=
  match s with
  | .task r q => abortTask a r q
  | .item r q => abortItem a r q
  | .cell n => abortCell a n
  | .island n => if isPlatIsland n then (List.range 8).foldl (fun a k => abortCell a (8 * (n - 2) + k)) a else a
  | _ => a

/-- Ascending (ring, SEQ). -/
def itemSort (l : List AbortedItem) : List AbortedItem :=
  l.foldr (fun x acc =>
    let before := fun (y : AbortedItem) => decide (y.1 < x.1) || (y.1 == x.1 && decide (y.2.1 < x.2.1))
    acc.takeWhile before ++ x :: acc.dropWhile before) []

/-! ### Package stop (R544, R545) -/

/-- Ring 0x0000 and the image's rings close to producers. -/
def Chip.shutRings (c : Chip) : Chip :=
  (0 :: c.im.rings.map (·.ring)).foldl (fun c r => if (c.ring r).st = .closed then c else c.setRing r fun x => { x with narrowed := true }) c

/-- Package stop begins, by the fault of a record: FAULT_N goes low, and the rings close to producers. -/
def Chip.beginStop (c : Chip) (cause rec : Nat) : Chip :=
  if c.flt.stop then c
  else
    let c := c.setFlt fun f => { f with stop := true, passing := true, stopAt := c.elapsed, stopCause := cause, stopRec := rec }
    (c.shutRings).setPwr fun p => { p with pendOp := none, waitDebug := none }

/-- Flood PARTITION_STOP (R545). -/
def Chip.floodStop (c : Chip) : Chip :=
  let e : LsEntry := { origin := c.pkg, link := 0xFF, half := 0, st := 0x80, wtx := 0, wrx := 0, seq := c.net.lsaSeq, boot := c.net.boot }
  let c : Chip := { c with net := { c.net.putEntry e with lsaSeq := (c.net.lsaSeq + 1) % 65536 } }
  c.sendLsa [e] none

/-- The partition stops by the fault of a record (R545): the entry is flooded where the S5 was raised here. -/
def Chip.beginPartStop (c : Chip) (rec : Nat) (flood : Bool) : Chip :=
  let c := if flood then c.floodStop else c
  ((c.setFlt fun f => { f with pstop := true }).beginStop 0x33 rec).contain

/-- An S5 (R541, R545): raised here, or received from an origin. -/
def Chip.partitionStop (c : Chip) (d : Detected) (flood : Bool) : Chip :=
  let c := c.setReg (rFLT_CNT_S + 20) (satAdd 32 (c.reg (rFLT_CNT_S + 20)) 1)
  if c.flt.latch then c
  else
    let r := c.ledger (c.faultRec kFAULT 0 0 c.flt.stack.length d) true
    r.2.beginPartStop r.1 flood

/-- What an S4 becomes where the fault plan sets PART_CRIT (R545). -/
def stopFault (d : Detected) : Detected := { d with sev := 5, cause := 0x33, scope := .partition }

/-- Everything held by a thread or an engine, by ring and SEQ (R544). -/
def Chip.takenItems (c : Chip) : List (Nat × Nat) :=
  c.rings.flatMap fun (e : Nat × Ring) => (e.2.items.filter fun i => decide (i.st = .taken)).map fun i => (e.1, i.seq)

/-- The pass of package stop completes the first `n` items; then the STOPPED records are written and the islands close. -/
def Chip.endStop (c : Chip) (n : Nat) : Chip :=
  if !c.flt.passing then c
  else
    let a : Aborted := if c.islOpen 10 && c.islOpen 1 then (c.takenItems.take n).foldl (fun a e => abortItem a e.1 e.2) (c, [], []) else (c, [], [])
    let items := itemSort a.2.1
    let c := a.1.setFlt fun f => { f with passing := false }
    let sev := if c.flt.pstop then 5 else 4
    let r : LedgerRec := { kind := kEND, sev := sev, scope := if c.flt.pstop then .partition else .package, cause := c.flt.stopCause, state := 0x12
                           depth := c.flt.stack.length, affected := items.length, items := items.take 4, arg := a.2.2.length
                           related := c.flt.stopRec }
    let c := (c.ledger r true).2
    c.closeAll [1]

/-! ### Classification (R539–R541) -/

/-- The cell of a raise (R540): where the later fault occurred, or the task's lowest cell. -/
def Chip.raiseCell (c : Chip) (d : Detected) : Option Nat :=
  if d.atCell < 64 then some d.atCell
  else match d.scope with
    | .task r s => (c.taskCells r s).head?
    | .cell n => some n
    | _ => none

/-- The unit of the next severity that contains the later fault. -/
def Chip.raiseScope (c : Chip) (h : Handling) (d : Detected) : Option (Nat × Scope) :=
  match h.sev with
  | 1 => (c.raiseCell d).map fun n => (2, .cell n)
  | 2 => match h.scope with | .cell n => some (3, .island (cellIsland n)) | _ => none
  | 3 => some (4, .package)
  | _ => none

/-- Replace a handling of the stack. -/
def FltUnit.setAt (f : FltUnit) (k : Nat) (g : Handling → Handling) : FltUnit := { f with stack := Sys2Proof.Machine.setAt f.stack k g }

/-- Every queued fault inside a scope is folded into a handling. -/
def Chip.foldQueue (c : Chip) (k : Nat) : Chip :=
  match c.flt.stack[k]? with
  | none => c
  | some h =>
    let ins := fun (q : QueuedFault) => c.inside q.d.scope h.scope
    c.setFlt fun f => { f.setAt k fun h => { h with folded := h.folded ++ (f.queue.filter ins).map (·.d.scope) } with
      queue := f.queue.filter fun q => !ins q }

/-- The earliest handling on the stack with a property. -/
def FltUnit.find (f : FltUnit) (p : Handling → Bool) : Option Nat := (List.range f.stack.length).find? fun k => match f.stack[k]? with | some h => p h | none => false

/-- Count an S2 handling of a cell; QUAR_COUNT of them within the window quarantine it (R542). -/
def Chip.countS2 (c : Chip) (n : Nat) : Chip :=
  let c := c.setFlt fun f => { f with s2 := (f.s2.filter fun (e : Nat × Nat) => decide (c.elapsed ≤ e.2 + c.im.quarWindow)) ++ [(n, c.elapsed)] }
  if c.im.quarCount ≤ (c.flt.s2.filter fun (e : Nat × Nat) => e.1 == n).length then
    (if n < 32 then c.setReg rFLT_QUAR_LO (c.reg rFLT_QUAR_LO ||| 2 ^ n) else c.setReg rFLT_QUAR_HI (c.reg rFLT_QUAR_HI ||| 2 ^ (n - 32)))
  else c

/-- Push a handling (R539). -/
def Chip.pushHandling (c : Chip) (d : Detected) (no : Nat) : Chip :=
  let c := c.setFlt fun f => { f with stack := f.stack ++ [{ sev := d.sev, scope := d.scope, recNo := no, cause := d.cause }] }
  let c := match d.scope with | .cell n => if d.sev = 2 then c.countS2 n else c | _ => c
  c.foldQueue (c.flt.stack.length - 1)

/-- A fault folded into the handling of a record, or into the stop that it brought (R539, R540). -/
def Chip.foldRec (c : Chip) (related : Nat) (d : Detected) : Chip := (c.ledger (c.faultRec kFAULT 3 related c.flt.stack.length d) true).2

/-- PREEMPT_LIMIT (R539): an S4, or an S5, that no fourth handling can carry; the package stops with the stack as it stands. -/
def Chip.limitStop (c : Chip) (source : Nat) : Chip :=
  let d : Detected := { sev := 4, source := source, cause := 0x31, scope := .package }
  if c.im.partCrit then c.partitionStop (stopFault d) true
  else
    let c := c.bump (rFLT_CNT_S + 16)
    let r := c.ledger (c.faultRec kFAULT 0 0 c.flt.stack.length d) true
    r.2.beginStop 0x31 r.1

/-- An S4 above the handling on top pre-empts it (R539), and the package stops (R544); at three handlings it is PREEMPT_LIMIT instead. -/
def Chip.preemptStop (c : Chip) (top : Handling) (d : Detected) : Chip :=
  if 3 ≤ c.flt.stack.length then
    let c := c.limitStop d.source
    c.foldRec c.flt.stopRec d
  else
    let r := c.ledger (c.faultRec kFAULT 2 top.recNo (c.flt.stack.length + 1) d) true
    (r.2.pushHandling d r.1).beginStop d.cause r.1

/-- QUEUE_OVERFLOW (R541): a 65th fault raises S4, or S5, and is folded into it. -/
def Chip.queueStop (c : Chip) (top : Handling) (d : Detected) : Chip :=
  let s4 : Detected := { sev := 4, source := d.source, cause := 0x30, scope := .package }
  let c := if c.im.partCrit then c.partitionStop (stopFault s4) true else (c.bump (rFLT_CNT_S + 16)).preemptStop top s4
  c.foldRec c.flt.stopRec d

/-- Raise a handling (R540); where no unit contains the later fault it is folded. -/
def Chip.raiseHandling (c : Chip) (k : Nat) (h : Handling) (d : Detected) : Chip :=
  match c.raiseScope h d with
  | none => (c.foldRec h.recNo d).setFlt fun f => f.setAt k fun h => { h with folded := h.folded ++ [d.scope] }
  | some (sev, scope) =>
    let crit := decide (sev = 4) && c.im.partCrit
    let (sev, scope) := if crit then (5, Scope.partition) else (sev, scope)
    let c := (c.ledger { c.faultRec kRAISE 0 h.recNo c.flt.stack.length d with sev := sev, scope := scope } true).2
    let c := c.setFlt fun f => f.setAt k fun h => { h with sev := sev, scope := scope, folded := h.folded ++ [h.scope, d.scope] }
    let c := match scope with | .cell n => c.countS2 n | _ => c
    let c := c.foldQueue k
    if crit then c.beginPartStop h.recNo true else if sev = 4 then c.beginStop d.cause h.recNo else c

/-- The first test that applies to a new fault of S1–S4 (R539). After package stop every later fault is folded into it (R540). -/
def Chip.classify' (c : Chip) (d : Detected) : Chip :=
  let depth := c.flt.stack.length
  if c.flt.stop then c.foldRec c.flt.stopRec d
  else
    match c.flt.find fun h => c.inside d.scope h.scope with
    | some k =>
      (c.foldRec (((c.flt.stack[k]?).map (·.recNo)).getD 0) d).setFlt fun f => f.setAt k fun h => { h with folded := h.folded ++ [d.scope] }
    | none =>
      match (if d.scope = .none then none else c.flt.find fun h => h.scope == d.scope) with
      | some k =>
        (match c.flt.stack[k]? with
          | none => c
          | some h => c.raiseHandling k h d)
      | none =>
        match c.flt.stack.getLast? with
        | none =>
          let r := c.ledger (c.faultRec kFAULT 0 0 1 d) true
          let c := r.2.pushHandling d r.1
          if d.sev = 4 then c.beginStop d.cause r.1 else c
        | some top =>
          if top.sev < d.sev then
            if d.sev = 4 then c.preemptStop top d
            else if 3 ≤ depth then
              let c := c.limitStop d.source
              c.foldRec c.flt.stopRec d
            else
              let r := c.ledger (c.faultRec kFAULT 2 top.recNo (depth + 1) d) true
              r.2.pushHandling d r.1
          else if 64 ≤ c.flt.queue.length then c.queueStop top d
          else
            let r := c.ledger (c.faultRec kFAULT 1 0 depth d) true
            r.2.setFlt fun f => { f with queue := f.queue ++ [{ d := d, recNo := r.1 }] }

/-- A fault or a notice is detected (R534, R535, R539, R547). -/
def Chip.detect (c : Chip) (d : Detected) : Chip :=
  if d.sev = 5 ∨ (d.sev = 4 ∧ c.im.partCrit) then c.partitionStop (stopFault d) true
  else
    let c := c.bump (rFLT_CNT_S + 4 * min d.sev 4)
    if d.sev = 0 then (if c.flt.latch then c else c.ledgerNotice (c.faultRec kFAULT 4 0 c.flt.stack.length d))
    else if c.flt.latch then c
    else
      (c.classify' d).contain

/-- FAULT_N is driven low (R29, R67, R544, R546): an S4 or S5 fault is unresolved, the latch or a stop holds, or start-up stopped for
anything but service hold. The output is of I0 and is served in every state (R40, R503). -/
def Chip.faultLow (c : Chip) : Bool :=
  c.flt.latch || c.flt.stop || c.flt.pstop || (c.boot.stopped && c.boot.code != 0x46) || c.holds fun sev _ => decide (4 ≤ sev)

/-! ### The end of a handling (R537, R538, R541, R542) -/

/-- Core 1 runs Ohmax. -/
def Chip.ohmaxRuns (c : Chip) : Bool := decide (14 ≤ c.boot.step) && !c.boot.stopped && !c.flt.latch && c.islOpen 1

/-- Write an END record, with ITEMS records after the fourth item (R547). -/
def Chip.endRecord (c : Chip) (h : Handling) (state : Nat) : Chip :=
  let items := itemSort h.items
  let base : LedgerRec := { kind := kEND, sev := h.sev, scope := h.scope, cause := h.cause, state := state, depth := c.flt.stack.length
                            affected := items.length, related := h.recNo, items := items.take 4, arg := h.pages.length }
  let r := c.ledger base true
  let c := r.2.setFlt fun f => { f with ends := (f.ends ++ [(r.1, h.pages)]).drop (f.ends.length + 1 - 256) }
  (List.range (ceilDiv (items.length - 4) 8)).foldl (fun c k =>
    (c.ledger { base with kind := kITEMS, items := ((items.drop (4 + 8 * k)).take 8), arg := 0 } true).2) c

/-- The queued fault to start next: the highest severity, the earliest among equals. -/
def FltUnit.nextQueued (f : FltUnit) : Option QueuedFault :=
  f.queue.foldl (fun (a : Option QueuedFault) q => match a with
    | none => some q
    | some b => if b.d.sev < q.d.sev then some q else some b) none

/-- Start the next queued fault on an empty stack. -/
def Chip.startQueued (c : Chip) : Chip :=
  if !c.flt.stack.isEmpty then c
  else match c.flt.nextQueued with
    | none => c
    | some q => (c.setFlt fun f => { f with queue := f.queue.erase q }).pushHandling q.d q.recNo

/-- The top handling ends in a state, and the paused ones inside its scope end FOLDED. -/
def Chip.popHandling (c : Chip) (h : Handling) (state : Nat) : Chip :=
  let c := c.setFlt fun f => { f with stack := f.stack.dropLast }
  let c := c.endRecord h state
  let gone := c.flt.stack.filter fun p => c.inside p.scope h.scope
  let c := c.setFlt fun f => { f with stack := f.stack.filter fun p => !(p ∈ gone) }
  let c := gone.foldl (fun c p => c.endRecord p 0x11) c
  (c.startQueued.contain).tryEnter

/-- OPEN platforms that are not quarantined. -/
def Chip.goodPlatforms (c : Chip) : Nat :=
  (platIslands.filter fun n => c.islOpen n && !(c.reg rFLT_QUARISL).testBit n).length

/-- Quarantine an island; too few platforms left is an S4 (R538, R542). -/
def Chip.quarantineIsland (c : Chip) (n : Nat) : Chip :=
  let c := c.setReg rFLT_QUARISL (c.reg rFLT_QUARISL ||| 2 ^ n)
  if c.goodPlatforms < c.im.clk.minPlatforms ∧ 15 ≤ c.boot.step then c.detect { sev := 4, source := 0x07, cause := 0x32, scope := .package } else c

/-- The top handling performs its actions; an S3 then closes and reopens its island, and ends when it is open again. Ohmax performs them (R434);
after package stop or the latch no handling goes on (R544, R546). -/
def Chip.endHandling (c : Chip) : Chip :=
  match (if c.ohmaxRuns && !c.flt.stop then c.flt.stack.getLast? else none) with
  | none => c
  | some h =>
    let k := c.flt.stack.length - 1
    match h.waits, h.scope with
    | true, .island n =>
      if c.islOpen n && !(c.island n).prepare then c.popHandling h 0x10
      else if h.reopenFailed then (c.popHandling h 0x10).quarantineIsland n
      else c
    | _, _ =>
      let a := (h.folded ++ [h.scope]).foldl abortScope (c, h.items, h.pages)
      let h := { h with items := a.2.1.eraseDups, pages := a.2.2.eraseDups }
      let c := a.1
      match h.scope with
      | .island n =>
        let c := c.setFlt fun f => f.setAt k fun _ => { h with waits := true }
        if (c.island n).st = .closed then c.openIsland n
        else (c.closeIsland n).setIsland n fun i => { i with queued := some true }
      | _ => c.popHandling h 0x10

/-- An island did not reach OPEN in time (R60, R491): it stays CLOSED, with an S3; within its own S3 handling that handling has failed. -/
def Chip.openFailed (c : Chip) (n : Nat) : Chip :=
  let c := c.setIsland n fun i => { i with st := .closed, since := c.elapsed, queued := none }
  match c.flt.find fun h => h.scope == .island n && h.waits with
  | some k => c.setFlt fun f => f.setAt k fun h => { h with reopenFailed := true }
  | none => c.detect { sev := 3, source := 0x07, cause := 0x12, scope := .island n, unitId := n }

/-! ### The latch (R546) -/

/-- The always-on fault latch takes hold. -/
def Chip.takeLatch (c : Chip) (cause : Nat) : Chip :=
  if c.flt.latch then c
  else
    let recs := c.flt.stack.map (·.recNo)
    let c := c.keepOnly { kind := kLATCH, source := 0x0C, cause := cause, depth := c.flt.stack.length, affected := c.flt.queue.length
                          related := recs.getD 0 0, arg := recs.getD 1 0 + recs.getD 2 0 * 2 ^ 32 }
    let c := c.setFlt fun f => { f with frozen := true, latch := true, passing := false }
    c.lampEnd.closeAll []

/-! ### Discard and the LOST record (R550, R552) -/

/-- FLT_DISCARD: every page that the handling marked and that is still marked is cleared. -/
def Chip.fltDiscard (c : Chip) (no : Nat) : Chip :=
  match c.flt.ends.find? fun (e : Nat × List Nat) => e.1 == no with
  | none => c
  | some e => { c with mem := e.2.foldl Mem.clearPage c.mem }

/-- One LOST record, once ring 0x0002 has room. -/
def Chip.lostRecord (c : Chip) : Chip :=
  if c.flt.lostSince = 0 ∨ !c.ledgerRing ∨ c.ringFree 2 < 2 then c
  else
    let n := c.flt.lostSince
    (c.setFlt fun f => { f with lostSince := 0 }).ledger { kind := kLOST, source := 0x0D, arg := n } true |>.2

end Sys2Proof.Machine
end

