-- ==== Sys2Proof/Machine/EdgeOps.lean ====
section
/-! DEFINITION. What the departure actions do at their edge, and the training of links: shared by the commands and by the actions that
wait for an island to open (04 R126, R130; 10 R275; 12 R332; 13 R337, R344, R365; 14 R380). -/

namespace Sys2Proof.Machine

/-! ### Links -/

/-- A half-link that may train: planned, enabled, its port die open, at step 15 of start-up or later, and neither the package nor the die stopped by a fault (R535, R544). -/
def Chip.mayTrain (c : Chip) (l h : Nat) : Bool :=
  (h ∈ halvesOf (c.plan l).kind) && c.linkEn l && c.islOpen (linkIsland l) && !(c.island (linkIsland l)).prepare && decide (15 ≤ c.boot.step) &&
    !(c.pwr.st == .entering || c.pwr.st == .retained) && !c.containedDie (linkIsland l) && !c.halted

/-- Retrain every stream of a link (R344). -/
def Chip.retrainLink (c : Chip) (l : Nat) : Chip :=
  (halvesOf (c.plan l).kind).foldl (fun c h => if c.mayTrain l h then c.retrain l h 0 else c) c

/-- LNK_CTL.EN takes a value, and the link follows (R344, R357). -/
def Chip.setLinkEn (c : Chip) (l : Nat) (en : Bool) : Chip :=
  let c := c.setField (rLNK_CTL + l * 0x800) 0 0 (bit en)
  if en then c.retrainLink l
  else (halvesOf (c.plan l).kind).foldl (fun c h => (c.linkDown l h .disabled 0).originate [(l, h)]) c

/-! ### The turntable and collectives -/

def switchOp (d : Departure) : Nat := bitsOf d.arg 3 0

/-- A WEIGHT_SWITCH that fires (R332): the operation on its channel, or INVALID on the channel. -/
def Chip.weightSwitch (c : Chip) (d : Departure) (eff : Nat → Nat → Chip → Chip) : Chip :=
  let n := bitsOf d.arg 7 4
  match c.trnChan n with
  | none => c
  | some ch =>
    if !(ch.member c.pkg || c.pkg == ch.srcPkg) then c
    else if bitsOf d.arg 31 8 ≠ 0 ∨ !(decide (1 ≤ switchOp d) && decide (switchOp d ≤ 3)) then c.setTrn n fun x => { x with lastFail := 3 }
    else eff n (d.arg / 2 ^ 32) c

/-- A WEIGHT_SWITCH departure at its edge: STAGE, COMMIT or ABORT. -/
def Chip.weightEdge (c : Chip) (d : Departure) : Chip :=
  c.weightSwitch d fun n version c =>
    if switchOp d = 2 then c.commitEdge n version else if switchOp d = 3 then c.abortEdge n version else c.stageEdge n version d.scope

/-- A COLLECTIVE_LAUNCH at its edge, with the descriptor read when it was armed (R368, R380). -/
def Chip.launchEdge (c : Chip) (d : Departure) : Chip :=
  match c.col.armed.find? fun e => e.1 == d.id with
  | some e => c.launch e.2.1 e.2.2
  | none => c.launch (c.readDesc d.arg) false

/-! ### Tasks, doorbells and clocks -/

/-- The cells that a TASK_POST's scope leaves eligible (R275). -/
def postCells (scope : Nat) : Nat :=
  if isCellScope scope then 2 ^ (scope - 0x200)
  else if isPlatScope scope then maskOf ((List.range 64).filter fun n => (scope % 256).testBit (cellPlat n))
  else 2 ^ 64 - 1

def postRing (d : Departure) : Nat := bitsOf d.arg 13 0
def postOff (d : Departure) : Nat := d.arg / 2 ^ 20 * 64

/-- A posted item cannot be read: its ring is no dispatcher ring, or its bytes are not there (R275). -/
def Chip.postFails (c : Chip) (d : Departure) : Bool :=
  let a := postOff d
  bitsOf d.arg 19 14 != 0 || !(c.dispRings.any (· == postRing d)) || !(inObject c.objs c.pkg a 128) ||
    !(((c.objAt a).map (·.heldBy c.pkg)).getD false) || (c.mem.readFails a 128).isSome || !(c.mem.badUnits a 128).isEmpty

/-- A task that a TASK_POST posted becomes a candidate of its ring without a place in it, with a number of its own (R275). -/
def Chip.postTask (c : Chip) (d : Departure) (t : Task) : Chip :=
  c.setDisp fun x => { x with
    tasks := x.tasks ++ [{ t with ring := postRing d, seq := 2 ^ 32 + x.posted, posted := true, cells := postCells d.scope }]
    posted := x.posted + 1 }

/-- A platform mask without the platforms that drop the departure, being CLOSING or CLOSED (R130). -/
def Chip.postScope (c : Chip) (d : Departure) : Departure :=
  if isPlatScope d.scope then
    { d with scope := 0x300 + maskOf (((depIslands d).filter fun i => c.islOpen i || (c.island i).st == .opening).map fun i => i - 2) }
  else d

/-- The check of a posted item: its header is as a ring would take it, and the rest is R269's. -/
def Chip.checkPost (c : Chip) (d : Departure) : TaskCheck :=
  let b := c.peek (postOff d) 128
  if hdrGood b then c.checkTask (postRing d) (c.ringStatic (postRing d)) b else .bad

/-- A TASK_POST at its edge (R275). -/
def Chip.postEdge (c : Chip) (d : Departure) : Chip :=
  match c.checkPost d with
  | .good t => (c.touch (postOff d) 128).postTask (c.postScope d) t
  | .noBucket => c
  | .bad => c.raise { sev := 1, source := 0x03, cause := 0x20, arg := d.arg }

/-- A DOORBELL at its edge (R254): everything held on a ring with HOLD is committed. -/
def Chip.doorbellEdge (c : Chip) (d : Departure) : Chip :=
  let r := bitsOf d.arg 13 0
  if d.arg / 2 ^ 14 ≠ 0 ∨ !c.ringHold r then c
  else c.releaseHeld r (if (c.ringProd r).testBit 2 then .host else .network)

/-- A platform frequency in range: 25 MHz steps, and at most 1,600 on grade 13 (R105; GRADE code 2). -/
def mhzOk (o : Otp) (f : Nat) : Bool := decide (600 ≤ f) && decide (f ≤ if o.grade = 2 then 1600 else 1800) && f % 25 == 0

/-- A CLOCK_SET at its edge (R106, R588). -/
def Chip.clockEdge (o : Otp) (c : Chip) (d : Departure) (isl : List Nat) : Chip :=
  if !mhzOk o d.arg then c else isl.foldl (fun c i => c.setMhz i d.arg) c

end Sys2Proof.Machine
end

