-- ==== Sys2Proof/Machine/PinOps.lean ====
section
/-! DEFINITION. The service pins: functions, levels, the points change, shorts and the ledgers' mirror (18_service_pins_and_lamp_port.md R456–R467). -/

namespace Sys2Proof.Machine

/-! ### Functions (R457, R458) -/

def fnGpioIn : Nat := 0x01
def fnGpioOut : Nat := 0x02
def fnUartTx : Nat := 0x10
def fnUartRx : Nat := 0x11
def fnXspiCs : Nat := 0x20
def fnXspiDqs : Nat := 0x22
def fnAlert : Nat := 0x30
def fnAlertAo : Nat := 0x31
def fnStrobe : Nat := 0x40
def fnLampTx : Nat := 0x50
def fnLampRx : Nat := 0x51
def fnLampLvl : Nat := 0x52

def isDq (fn : Nat) : Bool := decide (0x28 ≤ fn) && decide (fn ≤ 0x2F)
/-- The twelve XSPI2 functions. -/
def isXspi (fn : Nat) : Bool := (decide (0x20 ≤ fn) && decide (fn ≤ 0x23)) || isDq fn
def xspiFns : List Nat := [0x20, 0x21, 0x22, 0x23] ++ (List.range 8).map (· + 0x28)
/-- A function drives its pad; a DQ pin drives it during a transfer alone, so that its output counts as enabled. -/
def fnDrives (fn : Nat) : Bool := fn ∈ [fnGpioOut, fnUartTx, 0x20, 0x21, 0x23, fnAlert, fnAlertAo, fnStrobe, fnLampTx] || isDq fn
/-- A function of which a plan holds at most one. -/
def fnSingle (fn : Nat) : Bool := fn == fnUartTx || fn == fnUartRx || isXspi fn || (decide (0x50 ≤ fn) && decide (fn ≤ 0x52))

/-- The pins a function may sit on (R457); reserved functions sit nowhere. -/
def fnOn (fn pin : Nat) : Bool :=
  if fn ∈ [0, fnGpioIn, fnGpioOut, fnUartTx, fnUartRx, fnStrobe] then true
  else if isXspi fn || fn == fnAlert then decide (pin < 40)
  else if fn = fnAlertAo then decide (40 ≤ pin)
  else if fn = fnLampTx then pin == 40
  else if fn = fnLampRx then pin == 41
  else if fn = fnLampLvl then pin == 42
  else false

/-- PARAM is in range and has no reserved bit. -/
def paramOk (fn param turn : Nat) : Bool :=
  if fn = fnGpioOut then decide (param < 4)
  else if fn = fnUartTx ∨ fn = fnUartRx then decide (9600 ≤ param) && decide (param ≤ 3000000)
  else if fn = fnXspiCs then decide (25 ≤ param) && decide (param ≤ 200)
  else if fn = fnAlert ∨ fn = fnAlertAo then decide (param < 512)
  else if fn = fnStrobe then decide (param < 2 ^ 48) && decide (1 ≤ param / 2 ^ 32) && decide (param / 2 ^ 32 ≤ 1000) &&
    decide (bitsOf param 31 0 < turn / tNs)
  else param == 0

/-- A pin's entry by itself. -/
def pinEntryOk (turn pin : Nat) (e : PinEntry) : Bool :=
  fnOn e.fn pin && decide (e.bias < 3) && decide (e.drive < 3) && paramOk e.fn e.param turn

/-- The entries together: groups whole and UART rates equal. -/
def pinGroupsOk (l : List PinEntry) : Bool :=
  let fns := l.map (·.fn)
  let tx := l.find? fun e => e.fn == fnUartTx
  let rx := l.find? fun e => e.fn == fnUartRx
  let uart := match tx, rx with | none, none => true | some a, some b => a.param == b.param | _, _ => false
  let x := xspiFns.filter (· ∈ fns)
  uart && (x.isEmpty || x.length == 12)

/-- At most one pin holds each single function. -/
def pinSingleOk (l : List PinEntry) : Bool :=
  let fns := (l.map (·.fn)).filter fnSingle
  fns.eraseDups.length == fns.length

/-- R91's and R458's checks on a whole plan. -/
def pinPlanOk (turn : Nat) (l : List PinEntry) : Bool :=
  (l.zipIdx.all fun e => pinEntryOk turn e.2 e.1) && pinGroupsOk l && pinSingleOk l

/-! ### State -/

def Chip.pin (c : Chip) (n : Nat) : Pin := c.pins.getD n {}
def Chip.setPin (c : Chip) (n : Nat) (f : Pin → Pin) : Chip := { c with pins := setAt c.pins n f }

/-- The SPM pins are parked while I1 is not OPEN and under the latch (R456). -/
def Chip.pinOff (c : Chip) (n : Nat) : Bool := decide (n < 40) && (!c.islOpen 1 || c.flt.latch)
/-- A pin carries a function that works. -/
def Chip.pinOn (c : Chip) (n fn : Nat) : Bool :=
  let p := c.pin n
  p.attached && p.cfg.fn == fn && !p.fault && !c.pinOff n
/-- Some pin carries a function. -/
def Chip.anyPin (c : Chip) (fn : Nat) : Bool := (List.range 48).any fun n => c.pinOn n fn

/-! ### Levels (R459) -/

/-- The highest severity of an unresolved fault (FLT_STAT.HIGHEST, R554). -/
def Chip.faultHighest (c : Chip) : Nat :=
  let l := c.flt.stack.map (·.sev) ++ c.flt.queue.map (·.d.sev) ++ (if c.flt.pstop then [5] else if c.flt.stop then [4] else [])
  l.foldl max 0

/-- PWR_THR.THROTTLE (R589): a ceiling or gating is active. -/
def Chip.hotPlat (c : Chip) (p : Nat) : Bool := decide (c.pwr.therm.getD p 0xFFFF < (c.island (platIsland p)).mhz)
def Chip.throttled (c : Chip) : Bool :=
  ((List.range 8).any c.hotPlat) || c.pwr.hbmHot || decide (c.pwr.pceil < 0xFFF) || c.pwr.pgate || c.pwr.sgate

/-- A wear notice is outstanding (R562). -/
def Chip.wearNotice (c : Chip) : Bool := c.wear.inNotice != 0

/-- The conditions of ALERT, bit by bit. -/
def Chip.alertBits (c : Chip) : Nat :=
  let h := c.faultHighest
  maskOf ((List.range 8).filter fun k => match k with
    | 0 => decide (2 ≤ h)
    | 1 => decide (3 ≤ h)
    | 2 => decide (4 ≤ h)
    | 3 => c.flt.latch
    | 4 => c.wearNotice
    | 5 => c.throttled
    | 6 => c.tt.st == .holdover || c.tt.st == .freerun
    | _ => c.boot.stopped)

/-- The value of a GPIO_OUT (R464): PARAM[0], or the pin's bit of PIN_GPIO_OUT once that half of the register was written. -/
def Chip.gpioOut (c : Chip) (n : Nat) : Bool :=
  let r := if n < 32 then rPIN_GPIO_OUT_LO else rPIN_GPIO_OUT_HI
  if c.ctl.gpioSet.testBit (n / 32) then (c.reg r).testBit (n % 32) else (c.pin n).cfg.param.testBit 0

/-- The asserted value of an output (R464). -/
def Chip.pinValue (c : Chip) (n : Nat) : Bool :=
  let p := c.pin n
  let fn := p.cfg.fn
  if fn = fnGpioOut then c.gpioOut n
  else if fn = fnUartTx ∨ fn = 0x20 ∨ fn = 0x23 then true
  else if fn = fnAlert ∨ fn = fnAlertAo then c.alertBits &&& (p.cfg.param % 256) != 0
  else if fn = fnStrobe then p.strobe.isSome
  else false

/-- Open-drain is set. -/
def PinEntry.openDrain (e : PinEntry) : Bool :=
  (e.fn == fnGpioOut && e.param.testBit 1) || ((e.fn == fnAlert || e.fn == fnAlertAo) && e.param.testBit 8)

def PinEntry.biasLevel (e : PinEntry) : Bool := e.bias == 2

/-- The output of a pin is enabled. -/
def Chip.pinDrives (c : Chip) (n : Nat) : Bool := (c.pin n).enabled && !c.pinOff n

/-- The pad level (R459, R463, R466): what an output drives, what an input was last seen at, or the BIAS of a parked pin. -/
def Chip.padLevel (c : Chip) (n : Nat) : Bool :=
  let p := c.pin n
  let e := match p.change with | some e => if p.phase = 0 then p.cfg else e | none => p.cfg
  if c.pinDrives n && !isDq e.fn then
    let v := c.pinValue n != e.invert
    if e.openDrain && v then e.biasLevel else v
  else if p.attached && !c.pinOff n then p.level
  else e.biasLevel

/-! ### The mirror on XSPI2 (R461) -/

/-- The twelve XSPI2 functions are on pins that work. -/
def Chip.xspiUp (c : Chip) : Bool := xspiFns.all c.anyPin

/-- Stop the mirror, with its one notice. -/
def Chip.mirrorStop (c : Chip) : Chip := if c.mirror.on then ({ c with mirror := { c.mirror with on := false } }).notice 461 0 else c

/-- The slots of the mirror that hold a record. -/
def Mirror.filled (m : Mirror) : List Nat := (m.data.map fun (e : Nat × Byte) => e.1 / 128).eraseDups

/-- The first unprogrammed slot that follows a programmed one. -/
def Mirror.resume (m : Mirror) : Nat :=
  let n := max (m.size / 128) 1
  let f := m.filled
  let after := (f.map fun k => (k + 1) % n).filter fun k => !(k ∈ f)
  match after with
  | [] => 0
  | k :: ks => ks.foldl min k

/-- Ohmax keeps the mirror once the XSPI2 functions are assigned. -/
def Chip.mirrorStart (c : Chip) : Chip :=
  if c.mirror.on || !c.xspiUp then c
  else if c.mirror.size = 0 then c.notice 461 0
  else { c with mirror := { c.mirror with on := true, next := c.mirror.resume } }

/-! ### The points change (R462–R465) -/

/-- Ask for a points change; its Park comes with POINTS_CHANGE. -/
def Chip.askPoints (c : Chip) (n : Nat) (e : PinEntry) : Chip := c.setPin n fun p => { p with change := some e, phase := 0 }

/-- Park: the output is disabled, the pad takes the new BIAS, and the outgoing function is detached. -/
def Chip.parkPin (c : Chip) (n : Nat) : Chip :=
  let p := c.pin n
  match p.change with
  | some _ =>
    if p.phase ≠ 0 then c
    else
      let lost := isXspi p.cfg.fn && p.attached
      let c := c.setPin n fun p => { p with enabled := false, attached := false, phase := 1, changeAt := c.elapsed, strobe := none }
      if lost then c.mirrorStop else c
  | none => c

/-- Quiet: the pin has been parked for 2 µs, and PIN_CFGn takes the new values. -/
def Chip.quietPin (c : Chip) (n : Nat) : Chip :=
  let p := c.pin n
  match p.change with
  | some e =>
    if p.phase ≠ 1 then c
    else
      let c := c.passTo (p.changeAt + 2 * tUs)
      c.setPin n fun p => { p with cfg := e, phase := 2, changeAt := c.elapsed }
  | none => c

/-- New input after four equal samples, then the new output. -/
def Chip.readyPin (c : Chip) (n : Nat) (level : Bool) : Chip :=
  let p := c.pin n
  match p.change with
  | some e =>
    if p.phase ≠ 2 then c
    else
      let c := c.passTo (p.changeAt + 2 * tUs)
      let c := c.setPin n fun p => { p with
        change := none, phase := 0, attached := decide (e.fn ≠ 0), enabled := fnDrives e.fn && !p.fault, level := level, input := level, strobed := none }
      let c := c.bumpWrap rPIN_CHANGES
      if isXspi e.fn then c.mirrorStart else c
  | none => c

/-- The boot-default entry of a pin (R47): the lamp pins, the boot UART with STRAP[3], and parked pins. -/
def bootEntry (strap n : Nat) : PinEntry :=
  if n = 40 then { fn := fnLampTx } else if n = 41 then { fn := fnLampRx } else if n = 42 then { fn := fnLampLvl }
  else if strap.testBit 3 ∧ n = 44 then { fn := fnUartTx, param := 115200 }
  else if strap.testBit 3 ∧ n = 45 then { fn := fnUartRx, param := 115200 }
  else {}

/-- A pin that holds a function as its entry says. -/
def PinEntry.up (e : PinEntry) : Pin := { cfg := e, attached := decide (e.fn ≠ 0), enabled := fnDrives e.fn, level := e.biasLevel, input := e.biasLevel }

def Chip.bootPins (c : Chip) (strap : Nat) : Chip := { c with pins := (List.range 48).map fun n => (bootEntry strap n).up }

/-- The pin plan at step 14 (R462). -/
def Chip.applyPins (c : Chip) : Chip :=
  c.im.pins.zipIdx.foldl (fun (c : Chip) e => if (c.pin e.2).cfg = e.1 then c else c.askPoints e.2 e.1) c

/-! ### Shorts (R466, R467) -/

/-- 64 mismatches on an output that is checked. -/
def Chip.pinShort (c : Chip) (n : Nat) : Chip :=
  let p := c.pin n
  let drivesLow := !(c.pinValue n != p.cfg.invert)
  let checked := c.pinDrives n && !p.fault && (!p.cfg.openDrain || drivesLow) && !(n == 40 && p.cfg.fn == fnLampTx && c.lamp.rx == .tx)
  if !checked then c
  else
    let c := c.setPin n fun p => { p with enabled := false, fault := true, clean := 0, faultAt := c.elapsed, strobe := none }
    let c := (c.bump rPIN_FAULTCNT).notice 466 (n + p.cfg.fn * 256)
    if isXspi p.cfg.fn then c.mirrorStop else c

/-- A retry, one second after the last: two clean checks in a row re-enable the function. -/
def Chip.pinRetry (c : Chip) (n : Nat) (clean : Bool) : Chip :=
  let p := c.pin n
  if !p.fault || c.pinOff n then c
  else
    let c := c.passTo (p.faultAt + tSec)
    if !clean then c.setPin n fun p => { p with clean := 0, faultAt := c.elapsed }
    else if p.clean = 0 then c.setPin n fun p => { p with clean := 1, faultAt := c.elapsed }
    else c.setPin n fun p => { p with fault := false, clean := 0, enabled := p.attached && fnDrives p.cfg.fn }

end Sys2Proof.Machine
end

