-- ==== Sys2Proof/Machine/AmendCheck.lean ====
section
/-! DEFINITION. The amendment record, the envelope and its verification (16_amendments.md R408–R414, R417–R420, R424, R427, R432; 20 R510, R513). -/

namespace Sys2Proof.Machine

/-! ### STATUS (R432) -/

def amApplied : Nat := 0x00
def amArmed : Nat := 0x01
def amDeferred : Nat := 0x02
def amCancelled : Nat := 0x03
def amFormat : Nat := 0x10
def amNoEnvelope : Nat := 0x11
def amWrongImage : Nat := 0x12
def amWrongTarget : Nat := 0x13
def amUnknownAuth : Nat := 0x14
def amEcdsa : Nat := 0x15
def amMldsa : Nat := 0x16
def amStale : Nat := 0x17
def amClassDenied : Nat := 0x18
def amNotAmendable : Nat := 0x19
def amValue : Nat := 0x1A
def amBusy : Nat := 0x1B
def amTooLate : Nat := 0x1C
def amFull : Nat := 0x1D
def amNotFound : Nat := 0x1E
def amDrainTimeout : Nat := 0x20
def amRolledBack : Nat := 0x21
def amAbandoned : Nat := 0x22

/-! ### The record and the envelope (R408, R410) -/

/-- An amendment record (R408). -/
structure AmdRecord where
  addr : Nat
  len : Nat
  source : Nat
  slot : Nat
  reply : Nat
  req : Nat
  seq : Nat
  deriving DecidableEq, Repr

def parseAmdRecord (w : List Byte) (seq : Nat) : AmdRecord :=
  { addr := fieldAt w 16 8, len := fieldAt w 24 4, source := fieldAt w 28 1, slot := fieldAt w 29 1, reply := fieldAt w 30 2
    req := hdrReq w, seq := seq }

/-- A ring that a record may name for replies. -/
def replyOk (r : Nat) : Bool := r == 0 || (decide (0x10 ≤ r) && decide (r ≤ 0x3FFF))

/-- The record keeps its table (R408). -/
def AmdRecord.ok (r : AmdRecord) (w : List Byte) (words pkg : Nat) : Bool :=
  hdrType w == 0x07 && words == 1 && decide (r.source ≤ 2) && replyOk r.reply && zeroAt w 32 32 &&
    decide (7540 ≤ r.len) && decide (r.len ≤ 8564) && (r.len - 7540) % 16 == 0 &&
    (if r.source = 1 then r.addr == 0 && decide (r.slot ≤ 7)
     else r.slot == 0 && r.addr % 64 == 0 && addrSpace r.addr == 0 && addrPkg r.addr == pkg)

/-- An envelope (R410). -/
structure Envelope where
  cls : Nat
  flags : Nat
  authId : Nat
  count : Nat
  serial : Nat
  epoch : Nat
  issued : Nat
  notAfter : Nat
  commit : Nat
  drain : Nat
  imageId : List Byte
  scope : Nat
  target : Nat
  targetSerial : Nat
  ops : List AmdOp
  ecPk : List Byte
  mldsaPk : List Byte
  signed : List Byte
  ecSig : List Byte
  mldsaSig : List Byte
  deriving DecidableEq, Repr

def Envelope.fanout (e : Envelope) : Bool := e.flags.testBit 0
def Envelope.cancel (e : Envelope) : Bool := e.flags.testBit 1

def parseEnvelope (b : List Byte) : Envelope :=
  let n := fieldAt b 10 2
  { cls := fieldAt b 6 1, flags := fieldAt b 7 1, authId := fieldAt b 8 2, count := n, serial := fieldAt b 12 4, epoch := fieldAt b 16 8
    issued := fieldAt b 24 8, notAfter := fieldAt b 32 8, commit := fieldAt b 40 8, drain := fieldAt b 48 8, imageId := (b.drop 56).take 16
    scope := fieldAt b 72 2, target := fieldAt b 74 2, targetSerial := fieldAt b 76 4
    ops := (List.range (min n 64)).map fun k =>
      { addr := fieldAt b (128 + 16 * k) 4, mask := fieldAt b (132 + 16 * k) 4, value := fieldAt b (136 + 16 * k) 4 }
    ecPk := (b.drop (128 + 16 * n)).take 97, mldsaPk := (b.drop (225 + 16 * n)).take 2592, signed := b.take (2817 + 16 * n)
    ecSig := (b.drop (2817 + 16 * n)).take 96, mldsaSig := (b.drop (2913 + 16 * n)).take 4627 }

/-- The operations change the turn period and nothing else (R417). -/
def turnOps (ops : List AmdOp) : Bool :=
  ops.length == 2 && [rTT_TURN_LO, rTT_TURN_HI].all fun a => ops.any fun p => p.addr == a && p.mask == 0xFFFFFFFF

/-- The envelope keeps its table, and the form rules of R417, R418 and R420. -/
def Chip.envForm (c : Chip) (r : AmdRecord) (e : Envelope) (b : List Byte) : Bool :=
  let n := e.count
  let turn := e.cls == 2 && turnOps e.ops
  fieldAt b 0 4 == 0x444E4D41 && fieldAt b 4 2 == 1 && decide (n ≤ 64) && r.len == 7540 + 16 * n && b.length == r.len &&
    decide (1 ≤ e.cls) && decide (e.cls ≤ 3) && decide (e.flags < 4) &&
    (if e.cancel then n == 0 && e.cls == 2 else e.targetSerial == 0 && (if e.cls = 1 then n == 1 else decide (1 ≤ n))) &&
    decide (1 ≤ e.serial) && (e.cls != 1 || e.commit == 0) && zeroAt b 80 48 &&
    (if e.cls = 3 then decide (16000 ≤ e.drain) && decide (e.drain ≤ 160000000000) else e.drain == 0 && e.scope == 0) &&
    ((List.range n).all fun k => zeroAt b (140 + 16 * k) 4) && (e.ops.map (·.addr)).eraseDups.length == e.ops.length &&
    !(turn && (e.fanout || e.target != c.pkg)) && !(e.fanout && e.cls == 2 && e.commit == 0) &&
    (!e.fanout || (e.target == 0xFFFF && e.epoch == 0 && r.source != 1 &&
      ((c.objAt (addrOff r.addr)).map (·.home)) == some 0xFFFF))

/-- Why a bridged access to objects of this package fails (R440): outside every object, uncertain, unbacked, poison. -/
def Chip.bridgeCause (c : Chip) (a n : Nat) : Option Nat :=
  if !inObject c.objs c.pkg a n then some 1
  else if c.mem.anyUncertain a n then some 2
  else if c.mem.anyUnbacked a n then some 3
  else if !(c.mem.badUnits a n).isEmpty then some 4
  else none

/-- SB_BRIDGEERR takes a failure (R440). -/
def Chip.bridgeFail (c : Chip) (window cause : Nat) : Chip := c.setReg rSB_BRIDGEERR (2 ^ 31 + window % 4 * 256 + cause)

/-- The bytes of an envelope; the cause where the read fails (R412 step 1). -/
def Chip.readEnvelope (c : Chip) (r : AmdRecord) : Nat ⊕ List Byte :=
  if r.source = 1 then .inr (sread c.amd.staging (r.slot * 16384) r.len)
  else
    let a := addrOff r.addr
    match c.bridgeCause a r.len with
    | some cause => .inl cause
    | none => .inr (c.peek a r.len)

/-! ### Registers that amendments write (R414) -/

def AmdOp.on (p : AmdOp) (old : Nat) : Nat := (old &&& (p.mask ^^^ 0xFFFFFFFF)) ||| p.value

/-- PIN_CFGn of an entry (R481). -/
def PinEntry.word (e : PinEntry) : Nat := packFields [(1, bit e.invert), (7, 0), (2, e.drive), (2, e.bias), (4, 0), (16, e.fn)]

/-- The pin of a register of the PIN block, with the place of the register in its four. -/
def pinReg (a : Nat) : Option (Nat × Nat) :=
  if rPIN_CFG ≤ a ∧ a < rPIN_CFG + 48 * 16 then some ((a - rPIN_CFG) / 16, (a - rPIN_CFG) % 16 / 4) else none

/-- The floor of images (R515). -/
def Otp.floor (o : Otp) : Nat := ((o.rollback.getLast?).map (·.toNat)).getD 0

/-- The value of a register that an amendment writes. -/
def Chip.amRead (o : Otp) (c : Chip) (a : Nat) : Nat :=
  match pinReg a with
  | some (n, 0) => (c.pin n).cfg.word
  | some (n, 1) => (c.pin n).cfg.param % 2 ^ 32
  | some (n, 2) => (c.pin n).cfg.param / 2 ^ 32
  | _ => if a = rSEC_RBFLOOR then o.floor else if a = rSEC_GO then 0 else c.reg a

/-- The value a register would take under an envelope. -/
def Chip.amAfter (o : Otp) (c : Chip) (ops : List AmdOp) (a : Nat) : Nat :=
  match ops.find? fun p => p.addr == a with
  | some p => p.on (c.amRead o a)
  | none => c.amRead o a

/-- The entry that a pin's registers spell. -/
def pinEntryOf (cfg lo hi : Nat) : PinEntry :=
  { bias := bitsOf cfg 11 10, drive := bitsOf cfg 9 8, invert := cfg.testBit 0, fn := bitsOf cfg 31 16, param := lo + hi * 2 ^ 32 }

/-- The entry that a pin would take. -/
def Chip.pinAfter (o : Otp) (c : Chip) (ops : List AmdOp) (n : Nat) : PinEntry :=
  let a := rPIN_CFG + 16 * n
  pinEntryOf (c.amAfter o ops a) (c.amAfter o ops (a + 4)) (c.amAfter o ops (a + 8))

/-- The plan of pins once the envelopes given and the points changes under way have run (R465). -/
def Chip.pinsAfter (o : Otp) (c : Chip) (envs : List (List AmdOp × Nat)) : List PinEntry :=
  (List.range 48).map fun n =>
    match envs.find? fun (e : List AmdOp × Nat) => e.2 == 0x400 + n with
    | some e => c.pinAfter o e.1 n
    | none => (c.pin n).change.getD (c.pin n).cfg

/-! ### Operations on the security root (R510, R513) -/

/-- Whom R510 names. -/
inductive SecWho
  | any | owner | vendor | both
  deriving DecidableEq, Repr

/-- Who may move the package to a lifecycle state; none where it may not be done. -/
def lcWho (lc target : Nat) : Option SecWho :=
  match target, lc with
  | 1, 0 => some .any
  | 2, 1 => some .owner
  | 3, 1 => some .both
  | 3, 2 => some .owner
  | 4, 0 => some .any
  | 4, 1 => some .both
  | 4, 2 => some .owner
  | 4, 3 => some .vendor
  | _, _ => none

def slotWho (lc : Nat) : Option SecWho := if lc = 0 then some .any else if lc = 1 then some .both else if lc = 2 then some .owner else none
def revokeWho (lc : Nat) : Option SecWho := if lc = 1 then some .both else if lc = 2 then some .owner else none
def kekWho (lc : Nat) : Option SecWho := if lc = 0 then some .any else if lc = 1 ∨ lc = 2 then some .owner else none
def floorWho (lc : Nat) : Option SecWho :=
  if lc = 0 then some .any else if lc = 1 then some .both else if lc = 2 then some .owner else if lc = 3 then some .vendor else none

def Otp.slotHash (o : Otp) (n : Nat) : Option (List Byte) :=
  match o.slots[n]? with
  | some s => if s.programmed && !s.revoked then some s.hash else none
  | none => none

/-- The owner slots that anchor. -/
def Otp.owners (o : Otp) : List Nat := (List.range 16).filter fun n => n != 0 && (o.slotHash n).isSome

/-- An authority's key hash is of a kind (R509's "vendor" and "owner"). -/
def Otp.isWho (o : Otp) (hash : List Byte) : SecWho → Bool
  | .any => true
  | .vendor => o.slotHash 0 == some hash
  | .owner => o.owners.any fun n => o.slotHash n == some hash
  | .both => o.slotHash 0 == some hash || o.owners.any fun n => o.slotHash n == some hash

/-- A security operation of an envelope: who may ask for it, and whether its precondition holds; none where the operation is not one. -/
def Chip.secOp (o : Otp) (c : Chip) (ops : List AmdOp) (p : AmdOp) : Option (Option SecWho × Bool) :=
  let v := p.on (c.amRead o p.addr)
  if p.addr = rSEC_LCREQ then
    let good := if v = 1 then (o.slots.getD 0 {}).programmed && !o.seed.isEmpty && !o.cert.isEmpty
      else if v = 2 then decide (1 ≤ c.im.anchor) && decide (c.im.anchor ≤ 15) else true
    some (lcWho o.lc v, good)
  else if p.addr = rSEC_KSREVOKE then
    let left := o.owners.filter fun n => !v.testBit n
    some (revokeWho o.lc, !v.testBit 0 && (o.lc != 2 || !left.isEmpty))
  else if p.addr = rSEC_RBFLOOR then
    some (floorWho o.lc, decide (o.floor < v) && decide (v ≤ c.reg rNVM_RUNSECVER) && decide (o.rollback.length < 16))
  else if p.addr = rSEC_GO then
    if v = 1 then
      let n := bitsOf (c.amAfter o ops rSEC_KSPROG_SLOT) 3 0
      some (slotWho o.lc, !(o.slots.getD n {}).programmed && (n != 0 || o.lc == 0))
    else if v = 2 then
      let n := bitsOf (c.amAfter o ops rSEC_KEKPROG_SLOT) 1 0
      let id := (List.range 4).flatMap fun k => leBytes 4 (c.amAfter o ops (rSEC_KEKPROG_ID + 4 * k))
      some (kekWho o.lc, n != 0 && !(o.keks.getD n {}).programmed && !(o.keks.any fun k => k.programmed && k.kekId == id))
    else if v = 3 then some (none, false) else none
  else none

/-! ### Values (R412 step 8) -/

/-- A flex port is up as a CXL host port. -/
def Chip.cxlUp (c : Chip) : Bool := [0, 1].any fun n => c.im.fxMode n == 2 && (c.fx n).link == 2

/-- A placement that an object may take (R427). -/
def Chip.placementOk (c : Chip) (obj code : Nat) : Bool :=
  match c.im.obj? obj with
  | none => false
  | some e =>
    let tier := code % 16
    let ring := c.im.rings.any fun r => r.obj == obj
    let hbm := (e.wagons.filter fun w => decide ((c.mem.wagon w).loc = .hbm)).length
    decide (1 ≤ tier) && decide (tier ≤ 4) && decide (code / 16 % 4 ≤ 2) && decide (code < 64) && (!ring || tier == 1) &&
      !((tier == 3 || tier == 4) && !c.cxlUp) && !(tier == 1 && e.heldBy c.pkg && decide (hbm + c.mem.hbmFree < e.wagons.length))

/-- A ring's entry keeps the ring rules (R93, R266). -/
def Chip.ringEntryOk (o : Otp) (c : Chip) (ops : List AmdOp) (r : Nat) : Bool :=
  let cfg := c.amAfter o ops (ringReg r 0)
  let ctl := c.amAfter o ops (ringReg r 8)
  let k := bitsOf cfg 4 0
  let prod := bitsOf cfg 12 8
  let cons := bitsOf cfg 18 16
  let compl := bitsOf ctl 29 16
  let entry := c.im.rings.find? fun e => e.ring == r
  let room := match entry.bind fun e => c.im.obj? e.obj with | some x => decide (2 ^ k * 64 ≤ x.size) | none => false
  let used := c.im.rings.any fun e => c.ringCompl e.ring == r
  decide (6 ≤ k) && decide (k ≤ 24) && room && prod != 0 && decide (cons ≤ 5) && (!cfg.testBit 22 || prod == 4 || prod == 8) &&
    (!cfg.testBit 21 || prod.testBit 2 || prod.testBit 3) && (cons != 2 || prod.testBit 0 || prod.testBit 4) &&
    ((entry.map fun e => !e.isStatic || cons == 1).getD false) && (!used || prod.testBit 4) &&
    (compl == 0 || (compl != r && (c.im.rings.any fun e => e.ring == compl) && (c.ringProd compl).testBit 4))

/-- The registers of R4's absent units. -/
def absentReg (o : Otp) (a : Nat) : Bool :=
  o.assy == 4 && ((decide (0x01106000 ≤ a) && decide (a < 0x0110C000)) || (decide (0x01120040 ≤ a) && decide (a < 0x01120080)) ||
    (decide (0x01120140 ≤ a) && decide (a < 0x01120180)))

/-- The owning chapter's rules on an operation's value (R235, R266, R286, R365, R507, R554, R590, R427, R465, R8, R132, and COL_CFG's). -/
def Chip.amValueOk (o : Otp) (c : Chip) (e : Envelope) (p : AmdOp) : Bool :=
  let a := p.addr
  let v := c.amAfter o e.ops a
  if absentReg o a then false
  else if a = rTT_TURN_LO ∨ a = rTT_TURN_HI then
    let t := c.amAfter o e.ops rTT_TURN_LO + c.amAfter o e.ops rTT_TURN_HI * 2 ^ 32
    decide (800000 ≤ t) && decide (t ≤ 8000000000) && (c.im.clk.syncMode != 1 || 16000000000 % t == 0)
  else if a = rMEM_MIGCFG then
    decide (bitsOf v 31 28 ≤ 7) && bitsOf v 27 24 != 0 && bitsOf v 23 16 != 0 && decide (bitsOf v 15 8 ≤ 100) && decide (bitsOf v 7 0 ≤ 100)
  else if a = rMEM_WATER then decide (bitsOf v 7 0 < bitsOf v 15 8)
  else if a = rDSP_CFG then bitsOf v 15 0 != 0
  else if a = rCOL_CFG then
    decide (1 ≤ bitsOf v 31 16) && decide (bitsOf v 31 16 ≤ 1000) && decide (10 ≤ bitsOf v 15 0) && decide (bitsOf v 15 0 ≤ 10000)
  else if rRING_CFG ≤ a ∧ a < rRING_CFG + 0x80000 then
    let r := (a - rRING_CFG) / 0x20
    let k := (a - rRING_CFG) % 0x20
    if k = 12 then bitsOf p.value 5 4 != 3 else if k = 4 then true else c.ringEntryOk o e.ops r
  else if a = rPWR_REQ then
    let scope := v / 65536
    decide (1 ≤ v % 16) && decide (v % 16 ≤ 4) && scopeValid scope && !(isIslandScope scope && absentIsland o (scope - 0x100))
  else if a = rPORT_QPRESET then o.assy != 4 || !v.testBit 24
  else if a = rPWR_BOUNCE then decide (1 ≤ v % 65536) && decide (v % 65536 ≤ 10000)
  else if a = rPWR_PCAP then
    decide (400 ≤ v / 65536) && decide (v / 65536 ≤ 950) && decide (300 ≤ v % 65536) && decide (v % 65536 ≤ 825) && decide (v % 65536 ≤ v / 65536)
  else if a = rFLT_QUAR_LO ∨ a = rFLT_QUAR_HI ∨ a = rFLT_QUARISL then p.value == 0
  else if a = rFLT_DISCARD then c.flt.ends.any fun (x : Nat × List Nat) => x.1 == v
  else if a = rAMD_PLACE_OBJ ∨ a = rAMD_PLACE_CODE then
    (e.ops.any fun q => q.addr == rAMD_PLACE_OBJ) && (e.ops.any fun q => q.addr == rAMD_PLACE_CODE) &&
      c.placementOk (c.amAfter o e.ops rAMD_PLACE_OBJ) (c.amAfter o e.ops rAMD_PLACE_CODE)
  else if rAMD_ROLE ≤ a ∧ a < rAMD_ROLE + 32 then v != 3
  else match pinReg a with
    | some (n, _) =>
      pinEntryOk c.turnPeriod n (c.pinAfter o e.ops n) &&
        (e.commit != 0 || (pinGroupsOk (c.pinsAfter o [(e.ops, e.scope)]) && pinSingleOk (c.pinsAfter o [(e.ops, e.scope)])))
    | none => true

/-! ### Verification (R412) -/

/-- The authority entry that an envelope names: its number and itself. -/
def Chip.authority (c : Chip) (id : Nat) : Option (Nat × Authority) :=
  (c.im.policy.auths.zipIdx.find? fun e => e.1.id == id).map fun e => (e.2, e.1)

/-- The envelope is fresh (R413). -/
def Chip.fresh (c : Chip) (n : Nat) (e : Envelope) : Bool :=
  decide (e.issued ≤ c.now) && decide (c.now ≤ e.notAfter) && decide (c.reg (rAMD_SERIAL + 4 * n) < e.serial) &&
    ((e.epoch != 0 && e.epoch == c.amd.epoch) ||
      (e.epoch == 0 && (c.tt.st == .locked || c.tt.st == .root) && decide (c.amd.since ≤ e.issued)))

/-- An operation is amendable (R414). -/
def Chip.amendable (c : Chip) (n : Nat) (e : Envelope) (p : AmdOp) : Bool :=
  c.im.amendable.any fun f => f.addr == p.addr && p.mask != 0 && (p.mask &&& f.mask) == p.mask && (p.value &&& p.mask) == p.value &&
    f.cls == e.cls && f.auths.testBit n && (e.cls != 3 || f.scope == e.scope)

/-- Class-B envelopes pending (R416). -/
def Amend.pendingB (a : Amend) : List AmdArmed := a.armed.filter fun x => x.env.cls == 2
/-- The scopes of class-C procedures that run, or are armed (R424). -/
def Amend.scopesC (a : Amend) : List Nat := a.procs.map (·.scope) ++ (a.armed.filter fun x => x.env.cls == 3).map (·.scope)

/-- A register belongs to a scope by its AMENDABLE_FIELDS entry. -/
def Chip.inScope (c : Chip) (scope a : Nat) : Bool := c.im.amendable.any fun f => f.addr == a && f.scope == scope && f.cls == 3

/-- The envelope conflicts with what is pending (R424). -/
def Chip.amConflict (c : Chip) (e : Envelope) : Bool :=
  if e.cls = 3 then
    decide (4 ≤ c.amd.scopesC.length) || decide (e.scope ∈ c.amd.scopesC) ||
      c.amd.pendingB.any fun x => x.ops.any fun p => c.inScope e.scope p.addr
  else e.cls == 2 && c.amd.procs.any fun x => e.ops.any fun p => c.inScope x.scope p.addr

/-- The first operation that fails a test, by its number. -/
def firstOp (ops : List AmdOp) (bad : AmdOp → Bool) : Option Nat := (ops.zipIdx.find? fun e => bad e.1).map (·.2)

/-- The two signatures of an envelope (R411). -/
def Envelope.ecCheck (e : Envelope) : SigCheck := Sys2Proof.Machine.ecSig e.ecPk e.signed e.ecSig
def Envelope.mldsaCheck (e : Envelope) : SigCheck :=
  mlSig ['A', 'M', 'I', 'B', 'O', '-', 'A', 'M', 'D'] e.mldsaPk (sha384 e.signed) e.mldsaSig

/-- Steps 2 to 6: image, target, authority, signatures, freshness and class. `valid` are the signatures that verify (log entry 3). -/
def Chip.amHeadCheck (o : Otp) (c : Chip) (e : Envelope) (valid : List SigCheck) : Option Nat :=
  if e.imageId ≠ c.im.imageId then some amWrongImage
  else if e.target ≠ c.pkg ∧ e.target ≠ 0xFFFF then some amWrongTarget
  else match c.authority e.authId with
    | none => some amUnknownAuth
    | some (n, a) =>
      let sec := e.ops.all fun p => match c.secOp o e.ops p with
        | some (some w, _) => o.isWho a.hash w
        | _ => true
      if a.hash ≠ keyHash e.ecPk e.mldsaPk ∨ 4 ≤ o.lc ∨ !sec then some amUnknownAuth
      else if !valid.contains e.ecCheck then some amEcdsa
      else if !valid.contains e.mldsaCheck then some amMldsa
      else if !c.fresh n e then some amStale
      else if !a.classes.testBit (e.cls - 1) then some amClassDenied
      else none

/-- Steps 2 to 9: the first failure, with its operation. -/
def Chip.amVerify (o : Otp) (c : Chip) (e : Envelope) (valid : List SigCheck) : Option (Nat × Nat) :=
  match c.amHeadCheck o e valid with
  | some st => some (st, 0xFF)
  | none =>
    let n := ((c.authority e.authId).map (·.1)).getD 0
    match firstOp e.ops fun p => !c.amendable n e p with
    | some k => some (amNotAmendable, k)
    | none =>
      let secBad := fun (p : AmdOp) => match c.secOp o e.ops p with
        | some x => x.1.isNone || !x.2
        | none => false
      match firstOp e.ops fun p => !c.amValueOk o e p || secBad p with
      | some k => some (amValue, k)
      | none => if c.amConflict e then some (amBusy, 0xFF) else none

end Sys2Proof.Machine
end

