-- ==== Sys2Proof/Machine/AmendOps.lean ====
section
/-! DEFINITION. Amendments: status items, applying operations, and the three classes (16_amendments.md R409, R415–R431). -/

namespace Sys2Proof.Machine

def Chip.setAmd (c : Chip) (f : Amend → Amend) : Chip := { c with amd := f c.amd }

/-! ### Status items (R409, R430–R432) -/

/-- The status item of R430. -/
def Chip.amItem (c : Chip) (e : EnvRef) (st op : Nat) : List Byte :=
  mkHeader 1 0x08 0 e.req 0 ++ leBytes 4 e.serial ++ leBytes 2 e.authId ++ leBytes 1 e.cls ++ leBytes 1 st ++ leBytes 1 op ++ leBytes 3 0 ++
    leBytes 4 e.dep ++ leBytes 8 c.now ++ leBytes 8 c.tt.turnNum ++ leBytes 8 (if st ≤ 1 then e.fanned else 0) ++ leBytes 8 0

/-- Status items that found ring 0x0001 full go out in order as it has room. -/
def Chip.flushStatus (c : Chip) : Nat → Chip
  | 0 => c
  | fuel + 1 =>
    match c.amd.unsent with
    | [] => c
    | b :: rest =>
      match c.enginePut 1 b with
      | some c => (c.setAmd fun a => { a with unsent := rest }).flushStatus fuel
      | none => c

/-- A copy of a status item goes to REPLY_RING (R431). -/
def Chip.amReply (c : Chip) (ring : Nat) (b : List Byte) : Chip :=
  if ring = 0 then c
  else
    let put := if (c.ringProd ring).testBit 4 then c.enginePut ring b else none
    match put with
    | some c => c
    | none => c.bump rAMD_REPLYLOST

/-- The first status of a record completes it (R409). -/
def Chip.amRecordDone (c : Chip) (item : Option Nat) : Chip :=
  match item with
  | none => c
  | some seq =>
    match (c.ring 0).item? seq with
    | some i => if i.st = .taken then c.completeItem 0 seq 0x00 0 else c
    | none => c

/-- AMD_SERIALn and AMD_ACCEPTED at the first ARMED or APPLIED (R413): AMD_SERIALn is the highest SERIAL accepted (R429). -/
def Chip.amAccept (c : Chip) (e : EnvRef) : Chip :=
  if e.accepted then c else
    let a := rAMD_SERIAL + 4 * e.entry
    (c.bumpWrap rAMD_ACCEPTED).setReg a (max (c.reg a) e.serial)

/-- Write a status (R409, R413, R430–R432); APPLIED advances the amendment log (R517). -/
def Chip.amStatus (c : Chip) (e : EnvRef) (st op : Nat) : Chip :=
  let b := c.amItem e st op
  let c := c.flushStatus (c.amd.unsent.length + 1)
  let put := if c.amd.unsent.isEmpty then c.enginePut 1 b else none
  let c := match put with
    | some c => c
    | none => c.setAmd fun a => { a with unsent := a.unsent ++ [b] }
  let c := (c.amReply e.reply b).amRecordDone e.item
  let c := (c.setReg rAMD_LAST (st * 2 ^ 24 + e.authId)).setReg rAMD_LASTSERIAL e.serial
  let c := if st ≤ 1 then c.amAccept e else c
  let c := if 0x10 ≤ st ∧ st ≤ 0x1E then c.bump rAMD_REJECTED else c
  if st = amApplied then { c with sec := { c.sec with log := sha384 (c.sec.log ++ e.digest) } } else c

/-! ### Applying operations (R414) -/

/-- The island of a control register (R438). -/
def regIsland (a : Nat) : Nat :=
  let blk := a / 65536
  let off := a % 65536
  if blk < 0x100 then 1
  else if blk = 0x100 ∨ blk = 0x108 ∨ blk = 0x10B ∨ blk = 0x113 then 1
  else if 0x101 ≤ blk ∧ blk ≤ 0x10A then 0
  else if blk = 0x110 then (if 0x6000 ≤ off ∧ off < 0xC000 then 13 else 12)
  else if blk = 0x112 then (if (0x40 ≤ off ∧ off < 0x80) ∨ (0x140 ≤ off ∧ off < 0x180) then 13 else 12)
  else if 0x300 ≤ blk ∧ blk < 0x340 then cellIsland (blk - 0x300)
  else 10

/-- The value that an operation writes, in the register that holds it. Registers whose write is an action alone hold nothing;
a pin's registers change in its points change (R463). -/
def Chip.amStore (o : Otp) (c : Chip) (p : AmdOp) : Chip :=
  let a := p.addr
  let v := p.on (c.amRead o a)
  if (pinReg a).isSome ∨ a = rSEC_RBFLOOR ∨ a = rSEC_GO then c
  else if rRING_CFG ≤ a ∧ a < rRING_CFG + 0x80000 ∧ a % 0x20 = 12 then c
  else if rLNK_CTL ≤ a ∧ a < rLNK_CTL + 0xC000 ∧ a % 0x800 = 0x18 then c.setReg a (v % 2)
  else if a = rPORT_FX_CTL ∨ a = rPORT_FX_CTL + 0x40 then c
  else c.setReg a v

/-- An object takes a placement (R214, R218, R427): a pinned tier forces its wagons there, and an exclusive one gives up second frames. -/
def Chip.setPlacement (c : Chip) (obj code : Nat) : Chip :=
  match c.im.obj? obj with
  | none => c
  | some e =>
    let e' := { e with placement := code }
    let c : Chip := { c with image := c.image.map fun im => { im with objs := im.objs.map fun x => if x.id = obj then e' else x } }
    if !e'.heldBy c.pkg then c
    else
      let tier := e'.tier
      let mine := e'.wagons
      let m := c.mem
      let m := { m with forced := m.forced.filter fun f => !(f.1 ∈ mine) }
      let m := if tier = 3 then m
        else mine.foldl (fun (m : Mem) w => if (m.wagon w).second.isSome && !m.moving w then m.setWagon w fun x => { x with second := none } else m) m
      let dest : Option Loc := if tier = 1 then some .hbm else if tier = 4 then some (.sidings (m.pickPort.getD 0)) else none
      let m := match dest with
        | none => m
        | some d =>
          let away := mine.filter fun w => match (m.wagon w).loc, d with
            | .unbacked, _ => false
            | .hbm, .hbm => false
            | .sidings _, .sidings _ => false
            | _, _ => true
          { m with forced := m.forced ++ away.map fun w => (w, d) }
      ({ c with mem := m } : Chip).forceMoves

/-- A platform takes a role (R308); its place is governed by it from the boundary at which it reopens. -/
def Chip.setRole (c : Chip) (p role : Nat) : Chip := c.setDisp fun d => { d with roles := setAt d.roles p fun _ => role }

/-- The staged key hash, KEK_ID and wrapped key (R511, R514). -/
def Chip.stagedHash (c : Chip) : List Byte := c.regBytes rSEC_KSPROG_HASH 12
def Chip.stagedKekId (c : Chip) : List Byte := c.regBytes rSEC_KEKPROG_ID 4
def Chip.stagedWrap (c : Chip) : List Byte := c.regBytes rSEC_KEKPROG_WRAP 10

/-- Hand an operation to the fuses (R511). -/
def Chip.askFuses (c : Chip) (p : ProgOp) : Chip := { c with sec := { c.sec with progs := c.sec.progs ++ [p] } }

/-- PWR_REQ as an ISLAND_STATE, logged with the commit's departure identifier (R507). -/
def Chip.powerRequest (o : Otp) (c : Chip) (dep v : Nat) : Chip :=
  let d : Departure := { id := dep, whenAt := .once c.now, action := 0x0060, scope := v / 65536, order := 0x6000, arg := v % 16, log := true, armNo := 0 }
  (c.logDep depFired c.now c.now dep d).islandState o (v / 65536) (v % 16)

/-- The action of a write, once every operation of the envelope is stored. -/
def Chip.amTrigger (o : Otp) (dep : Nat) (c : Chip) (p : AmdOp) : Chip :=
  let a := p.addr
  let v := p.value
  if rRING_CFG ≤ a ∧ a < rRING_CFG + 0x80000 then
    if a % 0x20 = 12 then
      let r := (a - rRING_CFG) / 0x20
      if bitsOf v 5 4 = 1 then c.drainRing r else if bitsOf v 5 4 = 2 ∧ (c.ring r).st ≠ .closed then c.cutRing r else c
    else c
  else if rLNK_CTL ≤ a ∧ a < rLNK_CTL + 0xC000 ∧ (a % 0x800 = 0x18 ∨ a % 0x800 = 0x1C) then
    let l := a % 65536 / 0x800
    c.setLinkEn l (c.linkEn l)
  else if a = rPORT_FX_CTL ∨ a = rPORT_FX_CTL + 0x40 then (if v.testBit 0 then c.fxRetrain ((a - rPORT_FX_CTL) / 0x40) else c)
  else if a = rPORT_QPRESET then c.qpReset (bitsOf (c.reg a) 24 24) (bitsOf (c.reg a) 23 0)
  else if a = rPWR_REQ then c.powerRequest o dep (c.reg a)
  else if a = rSEC_LCREQ then c.askFuses (.lifecycle (c.reg a % 8))
  else if a = rSEC_KSREVOKE then c.askFuses (.revoke (c.reg a))
  else if a = rSEC_RBFLOOR then c.askFuses (.floor (p.on o.floor))
  else if a = rSEC_GO then
    if v = 1 then c.askFuses (.keySlot (c.reg rSEC_KSPROG_SLOT % 16) c.stagedHash)
    else if v = 2 then c.askFuses (.kek (c.reg rSEC_KEKPROG_SLOT % 4) c.stagedKekId c.stagedWrap) else c
  else if a = rFLT_DISCARD then c.fltDiscard (c.reg a)
  else if a = rAMD_PLACE_CODE then c.setPlacement (c.reg rAMD_PLACE_OBJ) (c.reg a % 256)
  else if rAMD_ROLE ≤ a ∧ a < rAMD_ROLE + 32 then c.setRole ((a - rAMD_ROLE) / 4) (c.reg a % 4)
  else if a = rPIN_GPIO_OUT_LO then { c with ctl := { c.ctl with gpioSet := c.ctl.gpioSet ||| 1 } }
  else if a = rPIN_GPIO_OUT_HI then { c with ctl := { c.ctl with gpioSet := c.ctl.gpioSet ||| 2 } }
  else c

/-- Apply operations: every value is written, then each unit acts. -/
def Chip.amApply (o : Otp) (c : Chip) (dep : Nat) (ops : List AmdOp) : Chip :=
  ops.foldl (Chip.amTrigger o dep) (ops.foldl (Chip.amStore o) c)

/-- Apply the operations of units in OPEN islands now, hold the rest for the open edge (R415, R416). -/
def Chip.amApplyOrHold (o : Otp) (c : Chip) (e : EnvRef) (ops : List AmdOp) : Chip :=
  let now := ops.filter fun p => c.islOpen (regIsland p.addr)
  let later := ops.filter fun p => !c.islOpen (regIsland p.addr)
  let c := c.amApply o e.dep now
  if later.isEmpty then c.amStatus e amApplied 0xFF
  else (c.setAmd fun a => { a with held := a.held ++ [{ env := e, ops := later.map fun p => (regIsland p.addr, p) }] }).amStatus e amDeferred 0xFF

/-- Operations held for an island are applied at its open edge. -/
def Chip.amIslandOpen (o : Otp) (c : Chip) (n : Nat) : Chip :=
  c.amd.held.foldl (fun (c : Chip) h =>
    let mine := (h.ops.filter fun (x : Nat × AmdOp) => x.1 == n).map (·.2)
    if mine.isEmpty then c
    else
      let rest := h.ops.filter fun (x : Nat × AmdOp) => x.1 != n
      let c := c.amApply o h.env.dep mine
      if rest.isEmpty then (c.setAmd fun a => { a with held := a.held.erase h }).amStatus h.env amApplied 0xFF
      else c.setAmd fun a => { a with held := a.held.map fun x => if x = h then { h with ops := rest } else x }) c

/-! ### Class C (R421–R427) -/

/-- A thread's wait on a ring ends with CLOSED (R187). -/
def Thread.waitClosed (t : Thread) (r v : Nat) : Thread :=
  if t.st = .waitRes r ∨ t.st = .waitTake r then { (t.setS (wD t.word) (BitVec.ofNat 64 (v * 256 + stClosed))).step with st := .run } else t

/-- The waits of saved parts on a ring end with CLOSED too (R187, R262). -/
def Chip.endSavedWaits (c : Chip) (r : Nat) : Chip :=
  let waits := fun (t : Thread) => decide (t.st = .waitRes r ∨ t.st = .waitTake r)
  if c.disp.saved.any fun ps => ps.threads.any waits then
    let (v, c) := c.draw
    c.setDisp fun d => { d with saved := d.saved.map fun ps => { ps with threads := ps.threads.map fun t => t.waitClosed r v } }
  else c

/-- Every wait on a ring ends with CLOSED (R262). -/
def Chip.endRingWaits (c : Chip) (r : Nat) : Chip :=
  let c := c.endSavedWaits r
  let x := c.ring r
  let c := c.setRing r fun x => { x with waitRes := [], waitTake := [] }
  let c := x.waitRes.foldl (fun (c : Chip) w => match w.who with
    | .cell cell thread => (match c.thread? cell thread with
        | some t => c.bareStatus cell thread (wD t.word) stClosed
        | none => c)
    | .remote pkg _ tag =>
      let (v, c) := c.draw
      c.signal (.ringResp pkg tag ((v * 256 + stClosed) % 2 ^ 64))
    | _ => c) c
  x.waitTake.foldl (fun (c : Chip) w => match c.thread? w.cell w.thread with
    | some t => c.bareStatus w.cell w.thread (wD t.word) stClosed
    | none => c) c

/-- The ring of a scope code, the platform, the link and the pin. -/
def scopeKind (s : Nat) : Nat := if 0x4000 ≤ s then 6 else s / 256
def scopeUnit (s : Nat) : Nat := if 0x4000 ≤ s then s - 0x4000 else s % 256

/-- Narrow a scope (R425). -/
def Chip.narrow (o : Otp) (c : Chip) (scope : Nat) (ops : List AmdOp) : Chip :=
  let u := scopeUnit scope
  match scopeKind scope with
  | 1 => c.setDisp fun d => { d with narrowed := d.narrowed ++ [u] }
  | 2 => c.originate ((halvesOf (c.plan u).kind).map fun h => (u, h))
  | 4 => c.askPoints u (c.pinAfter o ops u)
  | 6 => c.setRing u fun x => { x with narrowed := true }
  | _ => c

/-- The scope is quiet (R425). -/
def Chip.scopeQuiet (c : Chip) (scope : Nat) : Bool :=
  let u := scopeUnit scope
  match scopeKind scope with
  | 1 => !c.savingPlat u
  | 2 => (halvesOf (c.plan u).kind).all fun h => (c.half u h).sent.isEmpty || !((c.half u h).st == .up || (c.half u h).st == .widthchg)
  | 3 => (c.amd.procs.find? fun p => p.scope == scope).all fun p => c.portQuiet u p.since
  | 4 => decide (1 ≤ (c.pin u).phase) || (c.pin u).change.isNone
  | 6 => (c.ring u).heldTail.isNone && (c.ring u).items.all fun i => i.st == .skip || i.st == .done
  | _ => true

/-- A CLOSE that waited for a procedure begins (R487). -/
def Chip.heldClose (c : Chip) (scope : Nat) : Chip :=
  let n := scopeIsland scope
  let i := c.island n
  if i.st = .opened ∧ !i.prepare ∧ i.queued = some false ∧ !c.classCIn n then c.beginClose n else c

/-- Saved compiler-static parts whose cell's platform no longer admits their ROLE take NO_CELL (R425). -/
def Chip.noCells (c : Chip) (plat : Nat) : Chip :=
  c.disp.saved.foldl (fun (c : Chip) ps =>
    match c.disp.task? ps.part.ring ps.part.seq with
    | some t =>
      if t.isStatic && cellPlat ps.cell == plat && !roleAdmits (c.role plat) t.role then
        c.raise { sev := 1, source := 0x03, cause := 0x22, scope := .task ps.part.ring ps.part.seq, atCell := ps.cell }
      else c
    | none => c) c

/-- The end of a procedure: it leaves the list, its final status is written, and what waited for it goes on. -/
def Chip.endProc (c : Chip) (p : AmdProc) (st op : Nat) : Chip :=
  let c := c.setAmd fun a => { a with procs := a.procs.filter fun x => x.scope != p.scope }
  let c := if scopeKind p.scope = 2 then c.originate ((halvesOf (c.plan (scopeUnit p.scope)).kind).map fun h => (scopeUnit p.scope, h)) else c
  (c.amStatus p.env st op).heldClose p.scope

/-- Reopen a scope with a final status (R425): platforms at the next turn boundary, pins when the function on them is enabled. -/
def Chip.reopen (c : Chip) (p : AmdProc) (st op : Nat) : Chip :=
  if scopeKind p.scope = 1 ∨ (scopeKind p.scope = 4 ∧ (c.pin (scopeUnit p.scope)).change.isSome = true) then
    c.setAmd fun a => { a with procs := a.procs.map fun x => if x.scope = p.scope then { x with waitBoundary := some (st, op) } else x }
  else c.endProc p st op

/-- The scope opens again without a change (R422, R423). -/
def Chip.giveUp (c : Chip) (p : AmdProc) (st op : Nat) : Chip :=
  let u := scopeUnit p.scope
  let c := match scopeKind p.scope with
    | 4 =>
      let x := c.pin u
      if x.phase = 0 then c.setPin u fun y => { y with change := none }
      else c.setPin u fun y => { y with change := some y.cfg, phase := 2, changeAt := c.elapsed }
    | 6 => if (c.ring u).st = RingSt.closed then c.reopenRing u else c.setRing u fun x => { x with narrowed := false }
    | _ => c
  c.reopen p st op

/-- Apply and reopen (R421, R425). -/
def Chip.applyProc (o : Otp) (c : Chip) (p : AmdProc) : Chip :=
  let u := scopeUnit p.scope
  match scopeKind p.scope with
  | 4 => (c.amApply o p.env.dep p.ops).quietPin u |>.reopen p amApplied 0xFF
  | 6 =>
    let k := c.ringK u
    let c := ((c.closeRing u).endRingWaits u).amApply o p.env.dep p.ops
    (if c.ringK u = k then c.reopenRing u else c.openRing u).reopen p amApplied 0xFF
  | _ => (c.amApply o p.env.dep p.ops).reopen p amApplied 0xFF

/-- A procedure starts (R421): a pin's checks that need the other pins come first (R465). -/
def Chip.startProc (o : Otp) (c : Chip) (a : AmdArmed) : Chip :=
  let sibs := (c.amd.armed.filter fun x => x.env.cls == 3 &&
    ((c.tt.deps.find? fun d => d.id == x.env.dep).map fun d => d.whenAt == .once c.now).getD false).map fun x => (x.ops, x.scope)
  let plan := c.pinsAfter o ((a.ops, a.scope) :: sibs)
  if scopeKind a.scope = 4 && !(pinGroupsOk plan && pinSingleOk plan) then c.amStatus a.env amValue 0xFF
  else
    let p : AmdProc := { env := a.env, scope := a.scope, since := c.elapsed, limit := a.limit, ops := a.ops
                         saved := a.ops.map fun q => (q.addr, c.amRead o q.addr) }
    (c.setAmd fun x => { x with procs := x.procs ++ [p] }).narrow o a.scope a.ops

/-- The running procedure of a scope that has not applied or given up yet. -/
def Chip.proc? (c : Chip) (scope : Nat) : Option AmdProc := c.amd.procs.find? fun p => p.scope == scope && p.waitBoundary.isNone

/-- The envelope of a scope's procedure writes a value to all the bits of a mask of a register. -/
def Chip.procSets (c : Chip) (scope a mask value : Nat) : Bool :=
  match c.proc? scope with
  | none => false
  | some p => p.ops.any fun q => q.addr == a && q.mask &&& mask == mask && q.value &&& mask == value

/-- The scope is quiet: the operations apply, unless its time is over or its island is not OPEN (R421–R423). -/
def Chip.procDrained (o : Otp) (c : Chip) (scope : Nat) : Chip :=
  match c.proc? scope with
  | none => c
  | some p =>
    if !c.scopeQuiet scope then c
    else if p.since + p.limit < c.elapsed then c.giveUp p amDrainTimeout 0xFF
    else if !c.islOpen (scopeIsland scope) then c.giveUp p amRolledBack 0
    else c.applyProc o p

/-- DRAIN_LIMIT passed before the scope is quiet (R422). -/
def Chip.procTimeout (c : Chip) (scope : Nat) : Chip :=
  match c.proc? scope with
  | none => c
  | some p => if c.scopeQuiet scope then c else (c.passTo (p.since + p.limit)).giveUp p amDrainTimeout 0xFF

/-- Half of DRAIN_LIMIT passed: a platform's parts are saved (R425). -/
def Chip.procHalf (c : Chip) (scope : Nat) : Chip :=
  match c.proc? scope with
  | none => c
  | some p =>
    if scopeKind scope ≠ 1 ∨ p.half ∨ c.scopeQuiet scope then c
    else
      let c := c.passTo (p.since + p.limit / 2)
      (c.setAmd fun a => { a with procs := a.procs.map fun x => if x.scope = scope then { x with half := true } else x }).saveForClose (scopeUnit scope)

/-- A unit does not acknowledge its write within 10 µs (R423): what was written is put back, and the scope reopens. -/
def Chip.procRollback (o : Otp) (c : Chip) (scope op : Nat) : Chip :=
  match c.proc? scope with
  | none => c
  | some p =>
    if !c.scopeQuiet scope ∨ p.ops.length ≤ op then c
    else
      let done := (p.ops.take op).filter fun q => (pinReg q.addr).isNone
      let c := done.foldl (Chip.amStore o) c
      let c := (c.passTo (c.elapsed + 10 * tUs))
      let c := (p.saved.take op).reverse.foldl (fun (c : Chip) (e : Nat × Nat) => if (pinReg e.1).isSome then c else c.amStore o ⟨e.1, 0xFFFFFFFF, e.2⟩) c
      c.giveUp p amRolledBack op

/-- The fault service acts on a scope: a handling, of any severity, of a task or cell of its platform or of its island, or package stop (R422). -/
def Chip.faultOn (c : Chip) (scope : Nat) : Bool :=
  let n := scopeIsland scope
  c.flt.stop || c.flt.latch || c.flt.stack.any fun h =>
    match h.scope with
    | .task r q => scopeKind scope == 1 && (c.taskCells r q).any fun k => cellIsland k == n
    | .cell k => scopeKind scope == 1 && cellIsland k == n
    | .island k => k == n
    | .package => true
    | .partition => true
    | _ => false

/-- Procedures that a fault ends in narrow or drain write ABANDONED (R422); pins whose change is over finish. -/
def Chip.sweepProcs (c : Chip) : Chip :=
  c.amd.procs.foldl (fun (c : Chip) p =>
    match p.waitBoundary with
    | none => if c.faultOn p.scope then c.giveUp p amAbandoned 0xFF else c
    | some (st, op) => if scopeKind p.scope = 4 ∧ (c.pin (scopeUnit p.scope)).change.isNone = true then c.endProc p st op else c) c

/-- Platforms reopen at a turn boundary (R308, R425). -/
def Chip.amdBoundary (c : Chip) : Chip :=
  c.amd.procs.foldl (fun (c : Chip) p =>
    match p.waitBoundary with
    | some (st, op) =>
      if scopeKind p.scope ≠ 1 then c
      else
        let u := scopeUnit p.scope
        ((c.setDisp fun d => { d with narrowed := d.narrowed.filter (· != u) }).endProc p st op).noCells u
    | none => c) c

/-! ### Classes A and B, and CANCEL (R415–R421) -/

def armStatus (st : Nat) : Nat := if st = depFull then amFull else amTooLate

/-- Arm a departure for an envelope; none with the status where it is refused (R416). -/
def Chip.armEnv (c : Chip) (commit scope : Nat) : (Nat ⊕ Nat) × Chip :=
  let (arg, c) := c.draw
  match c.armDep { whenAt := .once commit, action := 0x0020, scope := scope, order := 0x6000, arg := arg % 2 ^ 64, log := true, src := .amendA } with
  | (0, id, c) => (.inr id, c)
  | (st, _, c) => (.inl (armStatus st), c)

/-- An envelope that is armed: ARMED with its departure, and the work it holds. -/
def Chip.armed (c : Chip) (a : AmdArmed) (id : Nat) : Chip :=
  let e := { a.env with dep := id }
  (c.amStatus e amArmed 0xFF).setAmd fun x => { x with armed := x.armed ++ [{ a with env := { e with accepted := true, item := none } }] }

/-- A change of TT_TURN (R417): a TURN_SET of partition scope at the first boundary at or after COMMIT; ARMED once the arming is acknowledged. -/
def Chip.armTurnSet (o : Otp) (c : Chip) (e : EnvRef) (v : Envelope) : Chip :=
  let period := c.amAfter o v.ops rTT_TURN_LO + c.amAfter o v.ops rTT_TURN_HI * 2 ^ 32
  let t := if v.commit = 0 then c.boundaryAfter tMs else c.boundaryAfter (v.commit - c.now)
  let id := c.tt.nextId
  match c.armWide { whenAt := .once t, action := 0x0011, scope := 0x0400, order := 0x6000, arg := period, log := true, src := .amendA } .engine with
  | (some st, c) => c.amStatus e (armStatus st) 0xFF
  | (none, c) => c.setAmd fun x => { x with armed := x.armed ++ [{ env := { e with dep := id }, ops := v.ops, turnSet := true, waits := true }] }

/-- The arming of a TURN_SET has ended: ARMED while its departure stands, else TOO_LATE. -/
def Chip.sweepTurnSets (c : Chip) : Chip :=
  c.amd.armed.foldl (fun (c : Chip) a =>
    if !a.waits || (c.arms.any fun x => x.pkg == c.pkg && x.dep == a.env.dep) then c
    else if c.tt.deps.any fun d => d.id == a.env.dep then
      (c.amStatus a.env amArmed 0xFF).setAmd fun x => { x with armed := x.armed.map fun y =>
        if y = a then { a with waits := false, env := { a.env with accepted := true, item := none } } else y }
    else (c.setAmd fun x => { x with armed := x.armed.erase a }).amStatus a.env amTooLate 0xFF) c

/-- A TURN_SET of an envelope of this package fired. -/
def Chip.turnSetFired (c : Chip) (id : Nat) : Chip :=
  match c.amd.armed.find? fun a => a.turnSet && a.env.dep == id with
  | none => c
  | some a => (c.setAmd fun x => { x with armed := x.armed.erase a }).amStatus a.env amApplied 0xFF

/-- An AMEND_COMMIT at its edge (R416, R421). -/
def Chip.commitAmend (o : Otp) (c : Chip) (d : Departure) : Chip :=
  match c.amd.armed.find? fun a => !a.turnSet && a.env.dep == d.id with
  | none => c
  | some a =>
    let c := c.setAmd fun x => { x with armed := x.armed.erase a }
    if a.env.cls = 3 then c.startProc o a else c.amApplyOrHold o a.env a.ops

/-- CANCEL (R419). -/
def Chip.cancelEnv (c : Chip) (e : EnvRef) (target : Nat) : Chip :=
  match c.amd.pendingB.find? fun a => a.env.serial == target && a.env.authId == e.authId with
  | none => c.amStatus e amNotFound 0xFF
  | some a =>
    let dep := c.tt.deps.find? fun d => d.id == a.env.dep
    match c.cancelDep a.env.dep, dep with
    | (true, c), some d =>
      let c := if a.turnSet then c.sendCancel { pkg := c.pkg, dep := d.id, yard := false, launch := c.now, time := 0, period := 0, action := d.action
                                                scope := d.scope, order := d.order, arg := d.arg, log := d.log } else c
      ((c.setAmd fun x => { x with armed := x.armed.erase a }).amStatus a.env amCancelled 0xFF).amStatus e amCancelled 0xFF
    | (_, c), _ => c.amStatus e amTooLate 0xFF

/-- The departure scope of a class-C procedure: its platform's, else the package's. -/
def procScope (s : Nat) : Nat := if scopeKind s = 1 then 0x300 + 2 ^ scopeUnit s else 0

/-- Fan an envelope out to every other package of the roster that can be reached (R420). -/
def Chip.fanOut (c : Chip) (r : AmdRecord) (b : List Byte) : Nat × Chip :=
  let pkgs := (c.im.roster.map (·.num)).filter fun p => p != c.pkg && c.reachable true p
  let words := fun (p : Nat) => mkHeader 1 0x07 0 r.req 0 ++ leBytes 8 (globalAddr p (addrOff r.addr)) ++ leBytes 4 r.len ++ leBytes 1 2 ++ leBytes 1 0 ++
    leBytes 2 r.reply ++ leBytes 32 0
  (pkgs.length, pkgs.foldl (fun (c : Chip) p => c.relayTo p (addrOff r.addr) b (words p)) c)

/-- The class rules (R415–R421), for an envelope that passed every check. -/
def Chip.amEffect (o : Otp) (c : Chip) (e : EnvRef) (v : Envelope) : Chip :=
  if v.cancel then c.cancelEnv e v.targetSerial
  else if v.cls = 1 then c.amApplyOrHold o e v.ops
  else if v.cls = 2 then
    if 256 ≤ c.amd.pendingB.length then c.amStatus e amFull 0xFF
    else if turnOps v.ops then c.armTurnSet o e v
    else match c.armEnv (if v.commit = 0 then c.boundaryAfter tMs else v.commit) 0 with
      | (.inl st, c) => c.amStatus e st 0xFF
      | (.inr id, c) => c.armed { env := e, ops := v.ops } id
  else
    let a : AmdArmed := { env := e, ops := v.ops, scope := v.scope, limit := v.drain }
    if v.commit = 0 then (c.amStatus e amArmed 0xFF).startProc o { a with env := { e with accepted := true, item := none } }
    else match c.armEnv v.commit (procScope v.scope) with
      | (.inl st, c) => c.amStatus e st 0xFF
      | (.inr id, c) => c.armed a id

/-- Judge a record that was taken (R412, R420). -/
def Chip.amJudge (o : Otp) (c : Chip) (w : List Byte) (i : RItem) (valid : List SigCheck) : Chip :=
  let r := parseAmdRecord w i.seq
  let none' : EnvRef := { serial := 0, authId := 0, entry := 0, cls := 0, req := r.req, reply := if replyOk r.reply then r.reply else 0, item := some i.seq }
  if !r.ok w i.words c.pkg then c.amStatus none' amFormat 0xFF
  else match c.readEnvelope r with
    | .inl cause =>
      -- the bridge window that Ohmax reads through is a free value
      let (w, c) := c.draw
      (c.bridgeFail w cause).amStatus none' (if cause = 1 then amFormat else amNoEnvelope) 0xFF
    | .inr b =>
      let c := if r.source = 1 then c else c.touch (addrOff r.addr) r.len
      let v := parseEnvelope b
      let n := ((c.authority v.authId).map (·.1)).getD 0
      let e : EnvRef := { none' with serial := v.serial, authId := v.authId, entry := n, cls := v.cls, digest := sha384 v.signed }
      if !c.envForm r v b then c.amStatus e amFormat 0xFF
      else match c.amVerify o v valid with
        | some (st, op) => c.amStatus e st op
        | none =>
          let (n, c) := if v.fanout && r.source == 0 then c.fanOut r b else (0, c)
          c.amEffect o { e with fanned := n } v

/-- Take the next record of ring 0x0000, once ring 0x0001 has 2 free words (R409). -/
def Chip.amTake (o : Otp) (c : Chip) (valid : List SigCheck) : Chip :=
  let c := c.flushStatus (c.amd.unsent.length + 1)
  if !c.ohmaxRuns || !c.islOpen 10 || c.flt.stop || (c.ring 1).st != .opened || decide (c.ringFree 1 < 2) || !c.amd.unsent.isEmpty then c
  else match c.takeItem 0 .ohmax with
    | none => c
    | some (i, c) => c.amJudge o (c.ringWords 0 i.idx i.words) i valid

end Sys2Proof.Machine
end

