-- ==== Sys2Proof/Machine/SeqOps.lean ====
section
/-! DEFINITION. The sequence engine and the marshalling engine at a turn boundary (11_sequences.md R288–R302). -/

namespace Sys2Proof.Machine

/-! ### The plan (R305) -/

def seqPlanBlob : Nat := 0xFFFF0000
def pageBytes : Nat := 65536
def noPage : Nat := 0xFFFFFFFF

def parseSeqModel (b : List Byte) : SeqModel :=
  { layers := fieldAt b 0 1, steps := fieldAt b 1 1, pageTokens := fieldAt b 2 2, joinRing := fieldAt b 4 2, taskRing := fieldAt b 6 2
    bucketSet := fieldAt b 8 2, batchMax := fieldAt b 10 2, maxTokens := fieldAt b 12 4, summaryBytes := fieldAt b 16 4
    entry := fieldAt b 20 4, shape := bytesAt b 24 4, prio := fieldAt b 28 1, flags := fieldAt b 29 1 }

def parseSeqPlan (b : List Byte) : SeqPlan :=
  { models := (List.range (fieldAt b 4 1)).map fun k => parseSeqModel (b.drop (64 + 64 * k)), pool := fieldAt b 8 4, pt := fieldAt b 12 4
    park := fieldAt b 16 4, summary := fieldAt b 20 4, batch := fieldAt b 24 4, ctrl := fieldAt b 28 2, ptLog2 := fieldAt b 30 1
    reserve := fieldAt b 32 4, budget := fieldAt b 36 4, victimTtl := fieldAt b 40 4, queueMax := fieldAt b 44 2, summarySlot := fieldAt b 48 4 }

def Image.seqPlan (im : Image) : Option SeqPlan := (im.plan? seqPlanBlob).map parseSeqPlan
def SeqPlan.model (p : SeqPlan) (m : Nat) : SeqModel :=
  p.models.getD m { layers := 1, steps := 1, pageTokens := 1, joinRing := 0, taskRing := 0, bucketSet := 0, batchMax := 1, maxTokens := 1,
                    summaryBytes := 0, entry := 0, shape := [], prio := 0, flags := 0 }

/-- The engine's plan; the engine works only while I10 is OPEN. -/
def Chip.seqPlan (c : Chip) : Option SeqPlan := if c.islOpen 10 then c.im.seqPlan else none

/-! ### Pages and slots (R289, R290, R296) -/

/-- The `n` free numbers below `total` that come first from a start; none when fewer are free. -/
def pickFree (total : Nat) (used : List Nat) (start n : Nat) : Option (List Nat) :=
  let free := (List.range total).filter fun k => decide (k ∉ used)
  let from' := free.filter fun k => decide (start % max total 1 ≤ k)
  let l := (from' ++ free.filter fun k => decide (k < start % max total 1)).take n
  if l.length = n then some l else none

def Chip.poolTotal (c : Chip) (p : SeqPlan) : Nat := c.objSize p.pool / pageBytes
def Chip.poolUsed (c : Chip) : List Nat := c.seq.live.flatMap (·.pages)
def Chip.poolFree (c : Chip) (p : SeqPlan) : Nat := c.poolTotal p - c.poolUsed.length
def Chip.parkTotal (c : Chip) (p : SeqPlan) : Nat := if p.park = noPage then 0 else c.objSize p.park / pageBytes
def Chip.parkUsed (c : Chip) : List Nat := c.seq.live.flatMap (·.park)
def Chip.parkFree (c : Chip) (p : SeqPlan) : Nat := c.parkTotal p - c.parkUsed.length
def Chip.slotTotal (c : Chip) (p : SeqPlan) : Nat := min 65536 (c.objSize p.pt / 2 ^ p.ptLog2)
def Chip.summaryTotal (c : Chip) (p : SeqPlan) : Nat := if p.summary = noPage then 0 else c.objSize p.summary / max p.summarySlot 1
def Chip.summaryUsed (c : Chip) : List Nat := c.seq.live.filterMap (·.summary)

/-- Take `n` free numbers, from a start that the spec leaves open. -/
def Chip.takeFree (c : Chip) (total : Nat) (used : List Nat) (n : Nat) : Option (List Nat) × Chip :=
  let (start, c) := c.draw
  (pickFree total used start n, c)

def Chip.seqBySlot (c : Chip) (slot : Nat) : Option Seq := c.seq.live.find? fun s => s.slot == slot
def SeqModel.summaries (m : SeqModel) : Bool := decide (0 < m.summaryBytes)
/-- Whole blocks of a count of tokens. -/
def SeqModel.blocksFor (m : SeqModel) (tokens : Nat) : Nat := ceilDiv tokens m.pageTokens

/-! ### The record (R290) -/

def Chip.recAt (c : Chip) (p : SeqPlan) (slot : Nat) : Nat := c.objBase p.pt + slot * 2 ^ p.ptLog2
def Seq.blocks (s : Seq) (m : SeqModel) : Nat := s.pages.length / max m.layers 1
def Seq.stCode (s : Seq) : Nat := if s.cancel then 5 else s.st.code

/-- Write the engine's fields of a record and its page entries. -/
def Chip.putRec (c : Chip) (p : SeqPlan) (s : Seq) : Chip :=
  let a := c.recAt p s.slot
  let c := c.engineWrite a (leBytes 4 s.id ++ leBytes 1 s.model ++ leBytes 1 s.stCode)
  let c := c.engineWrite (a + 7) (leBytes 1 s.prio)
  let c := c.engineWrite (a + 14) (leBytes 2 (s.blocks (p.model s.model)))
  let c := c.engineWrite (a + 20) (leBytes 4 (s.summary.getD noPage) ++ leBytes 8 s.admitted)
  c.engineWrite (a + 64) ((List.range ((2 ^ p.ptLog2 - 64) / 4)).flatMap fun k => leBytes 4 (s.pages.getD k noPage))

def Chip.putRecOf (c : Chip) (p : SeqPlan) (slot : Nat) : Chip := match c.seqBySlot slot with | some s => c.putRec p s | none => c

/-- Write the program's fields, at admission and when the engine acts on a pause. -/
def Chip.putRequest (c : Chip) (p : SeqPlan) (slot v : Nat) : Chip := c.engineWrite (c.recAt p slot + 6) (leBytes 1 v)

/-- Read a header; one that lies in a page marked uncertain, or holds poison, is a failed read, and tells nothing (R223; log entry 68). -/
def Chip.readHead (c : Chip) (p : SeqPlan) (s : Seq) : Option SeqHead :=
  let a := c.recAt p s.slot
  if (c.mem.readFails a 64).isSome ∨ (c.mem.badUnits a 64) ≠ [] then none
  else some { join := s.join, paused := if s.st = .running then none else some s.ttl, request := c.peekNat (a + 6) 1, length := c.peekNat (a + 8) 4, mile := c.peekNat (a + 12) 2, ttl := c.peekNat (a + 16) 4 }

/-! ### The snapshot (R291, R294) -/

/-- A CANCEL of a REQ has been taken (R258). -/
def Chip.reqCancelled (c : Chip) (req : Nat) : Bool := decide (req ≠ 0 ∧ req ∈ c.cancelled)

/-- The live sequence that a join item names. -/
def Chip.seqOf (c : Chip) (join : Nat × Nat) : Option Seq := c.seq.live.find? fun s => s.join == join

def Chip.snapshot (c : Chip) (p : SeqPlan) (turn tick : Nat) : SeqSnap :=
  { turn := turn, tick := tick, heads := c.seq.live.filterMap fun s => c.readHead p s
    cancels := (c.seq.live.filter (·.cancel)).map (·.join) ++ (c.seq.queue.filter fun w => w.resumer.isNone && c.reqCancelled w.req).map (·.join)
    order := c.seq.order, reserve := c.reg rSEQ_RESERVE, budget := c.reg rSEQ_PARKBUDGET }

/-- Take the headers in: LENGTH within the blocks held, MILEPOST never lower (R291). -/
def Chip.takeHead (c : Chip) (p : SeqPlan) (h : SeqHead) : Chip :=
  match c.seqOf h.join with
  | none => c
  | some s =>
    let m := p.model s.model
    let tooLong := decide (h.length ≠ s.length) && decide (s.blocks m * m.pageTokens < h.length)
    let c := c.setSeq s.slot fun s => { s with
      request := h.request, length := if tooLong then s.length else h.length, mile := max s.mile h.mile }
    if tooLong then
      (c.engineWrite (c.recAt p s.slot + 8) (leBytes 4 s.length)).raise
        { sev := 0, source := 4, cause := 0x24, arg := s.slot + h.length * 2 ^ 32 }
    else c

/-! ### Retiring (R295) -/

/-- Statuses of R256 and reasons of R293. -/
def complDone : Nat := 0
def complCancelled : Nat := 2
def complRestart : Nat := 4

/-- Clear the uncertain marks of a page of the pool (R224, R295). -/
def Chip.clearPoolPage (c : Chip) (p : SeqPlan) (n : Nat) : Chip :=
  let w := c.objBase p.pool / pageBytes + n
  { c with mem := c.mem.setWagon w fun x => { x with unc := 0 } }

/-- Retire a sequence: its pages and slots return, its record is FREE, and its join item is complete. -/
def Chip.retire (c : Chip) (p : SeqPlan) (slot status reason : Nat) : Chip :=
  match c.seqBySlot slot with
  | none => c
  | some s =>
    let c := s.pages.foldl (fun c n => c.clearPoolPage p n) c
    let c := c.putRec p { s with pages := [] }
    let c := (c.engineWrite (c.recAt p slot + 5) (leBytes 1 0)).clearSlot s
    let c := (c.setMile s.ring s.item s.mile).completeItem s.ring s.item status (reason + s.length * 2 ^ 32)
    { c with seq := { c.seq with
        live := c.seq.live.filter fun x => x.slot != slot, queue := c.seq.queue.filter fun w => w.resumer != some slot } }

def Chip.seqSlots (c : Chip) : List Nat := (sortBy (fun a b => decide (a.1 ≤ b.1)) (c.seq.live.map fun s => (s.slot, 0))).map (·.1)

/-- The reason for which step (a) retires a sequence. -/
def Seq.retireReason (s : Seq) (p : SeqPlan) (snap : SeqSnap) : Option (Nat × Nat) :=
  let ttl := ((snap.heads.find? fun h => h.join == s.join).bind (·.paused)).getD s.ttl
  if s.join ∈ snap.cancels then some (complCancelled, 5)
  else if s.request = 1 then some (complDone, 1)
  else if (p.model s.model).maxTokens ≤ s.length then some (complDone, 2)
  else if s.st ≠ .running ∧ s.pausedAt + ttl * tMs ≤ snap.tick then some (complRestart, 4)
  else none

def Chip.stepRetire (c : Chip) (p : SeqPlan) (snap : SeqSnap) : Chip :=
  let c := c.seqSlots.foldl (fun c slot =>
    match c.seqBySlot slot with
    | none => c
    | some s =>
      match s.retireReason p snap with
      | none => c
      | some (st, r) => (if r = 4 then c.bumpWrap rSEQ_TTLEXP else c).retire p slot st r) c
  let drop := fun (w : SeqWait) => w.resumer.isNone && decide (w.join ∈ snap.cancels)
  let gone := c.seq.queue.filter drop
  let c : Chip := { c with seq := { c.seq with queue := c.seq.queue.filter fun w => !drop w } }
  gone.foldl (fun c w => c.completeItem w.ring w.item complCancelled 5) c

/-! ### Copies, parking and summaries (R296, R297, R299) -/

/-- Copy a page as it is, with its poison. -/
def Chip.copyPage (c : Chip) (src dst : Nat) : Chip :=
  let bs := c.peek src pageBytes
  let bad := c.mem.badUnits src pageBytes
  let c := c.touch src pageBytes
  let c : Chip := { c with mem := c.mem.write (c.depotMode dst) dst bs false }
  { c with mem := { c.mem with poison := bad.foldl (fun (q : List (Nat × Bool)) u => sput false q (u + dst / 64) true) c.mem.poison } }

/-- What came of a try to move a sequence. -/
inductive Moved
  | done | retired | no
  deriving DecidableEq, Repr

/-- Pages of an object that no copy can be performed at: their wagon is not backed (R217, R299; log entry 69). -/
def Chip.deadPages (c : Chip) (base total : Nat) : List Nat := (List.range total).filter fun k => c.mem.anyUnbacked (base + k * pageBytes) pageBytes

def Chip.poolAt (c : Chip) (p : SeqPlan) (n : Nat) : Nat := c.objBase p.pool + n * pageBytes
def Chip.parkAt (c : Chip) (p : SeqPlan) (n : Nat) : Nat := c.objBase p.park + n * pageBytes

/-- Park a sequence's pages, when the store and the budget hold them (R297, R299). -/
def Chip.tryPark (c : Chip) (p : SeqPlan) (s : Seq) : Moved × Chip :=
  let n := s.pages.length
  let off := c.parkUsed ++ c.deadPages (c.objBase p.park) (c.parkTotal p)
  if c.parkFree p < n ∨ c.seq.budget < n then (.no, c)
  else if s.pages.any fun k => c.mem.anyUncertain (c.poolAt p k) pageBytes then (.retired, c.retire p s.slot complRestart 6)
  else
    match c.takeFree (c.parkTotal p) off n with
    | (none, c) => (.no, c)
    | (some l, c) =>
      let c := (s.pages.zip l).foldl (fun c e => c.copyPage (c.poolAt p e.1) (c.parkAt p e.2)) c
      let c := c.setSeq s.slot fun s => { s with st := .parked, pages := [], park := l }
      let c : Chip := { c with seq := { c.seq with budget := c.seq.budget - n, copies := c.seq.copies + n } }
      (.done, (c.bumpWrap rSEQ_PARKS).putRecOf p s.slot)

def Chip.trySummary (c : Chip) (p : SeqPlan) (s : Seq) : Moved × Chip :=
  if (p.model s.model).summaries then
    let c := c.setSeq s.slot fun s => { s with st := .summary, pages := [] }
    (.done, (c.bumpWrap rSEQ_COMPRESS).putRecOf p s.slot)
  else (.no, c)

/-- Enter the admission queue as a resumer (R293, R298). -/
def Chip.queueResumer (c : Chip) (slot prio : Nat) (now : Bool) : Chip :=
  { c with seq := { c.seq with
      order := c.seq.order + 1, queue := c.seq.queue ++ [{ prio := prio, resumer := some slot, order := c.seq.order, now := now }] } }

/-- A session that paused, when a RESUME came while it was HELD: it takes the place that the RESUME had, which a boundary's snapshot before it
does not hold (R294). -/
def Chip.resumeHeld (c : Chip) (slot : Nat) : Chip :=
  match c.seqBySlot slot with
  | some s =>
    match s.wantResume with
    | some (prio, order) =>
      let c := c.setSeq slot fun s => { s with wantResume := none, prio := prio }
      { c with seq := { c.seq with queue := c.seq.queue ++ [{ prio := prio, resumer := some slot, order := order }] } }
    | none => c
  | none => c

/-- Act on a pause with REQUEST 2 or 3; a HELD session is retried (R297). -/
def Chip.pauseOne (c : Chip) (p : SeqPlan) (s : Seq) (request : Nat) : Chip :=
  let first := if request = 3 then c.trySummary p s else (.no, c)
  let r := if first.1 = .no then (match first.2.tryPark p s with
    | (.no, c) => if request = 3 then (.no, c) else c.trySummary p s
    | r => r) else first
  match r with
  | (.done, c) => c.resumeHeld s.slot
  | (.retired, c) => c
  | (.no, c) => (c.setSeq s.slot fun s => { s with st := .held }).putRecOf p s.slot

def Chip.stepPause (c : Chip) (p : SeqPlan) (snap : SeqSnap) : Chip :=
  let held := (sortBy (fun a b => decide (a.1 < b.1 ∨ (a.1 = b.1 ∧ a.2 ≤ b.2)))
    ((c.seq.live.filter fun s => decide (s.st = .held)).map fun s => (s.pausedAt, s.slot))).map (·.2)
  let c := held.foldl (fun c slot => match c.seqBySlot slot with | some s => c.pauseOne p s 2 | none => c) c
  c.seqSlots.foldl (fun c slot =>
    match c.seqBySlot slot with
    | none => c
    | some s =>
      if s.st = .running ∧ (s.request = 2 ∨ s.request = 3) then
        let ttl := ((snap.heads.find? fun h => h.join == s.join).map (·.ttl)).getD 0
        let c := c.setSeq slot fun s => { s with pausedAt := snap.tick, ttl := ttl, request := 0 }
        (c.putRequest p slot 0).pauseOne p s s.request
      else c) c

/-! ### Growth (R298) -/

def Seq.newTokens (s : Seq) (m : SeqModel) : Nat := min m.steps (m.maxTokens - s.length)
/-- The blocks that a sequence needs and does not hold. -/
def Seq.growth (s : Seq) (m : SeqModel) : Nat := m.blocksFor (s.length + s.newTokens m) - s.blocks m

/-- Served before: descending PRIORITY, then the earlier ADMITTED turn, then the lower slot. -/
def servedBefore (a b : Seq) : Bool :=
  decide (b.prio < a.prio) || (a.prio == b.prio && (decide (a.admitted < b.admitted) || (a.admitted == b.admitted && decide (a.slot < b.slot))))

/-- The victim: the running sequence that every other is served before. -/
def Chip.seqVictim (c : Chip) : Option Seq :=
  (c.seq.live.filter fun s => decide (s.st = .running)).foldl (fun (a : Option Seq) s =>
    match a with
    | none => some s
    | some b => if servedBefore b s then some s else some b) none

/-- Displace a victim (R298). -/
def Chip.displace (c : Chip) (p : SeqPlan) (snap : SeqSnap) (v : Seq) : Chip :=
  let keep := v.pages.length - v.grant * (p.model v.model).layers
  let c := c.setSeq v.slot fun s => { s with pages := s.pages.take keep, grant := 0 }
  let v := { v with pages := v.pages.take keep, grant := 0 }
  let r := match c.tryPark p v with
    | (.no, c) => c.trySummary p v
    | r => r
  match r with
  | (.done, c) =>
    (c.setSeq v.slot fun s => { s with ttl := p.victimTtl, pausedAt := snap.tick }).queueResumer v.slot v.prio true
  | (.retired, c) => c
  | (.no, c) => (c.bumpWrap rSEQ_EVICT).retire p v.slot complRestart 3

/-- Serve one grower, displacing victims until its blocks fit or it is one itself. -/
def Chip.growOne (c : Chip) (p : SeqPlan) (snap : SeqSnap) (slot : Nat) : Nat → Chip
  | 0 => c
  | fuel + 1 =>
    match c.seqBySlot slot with
    | none => c
    | some s =>
      let m := p.model s.model
      let need := s.growth m * m.layers
      if s.st ≠ .running ∨ need = 0 then c
      else if need ≤ c.poolFree p then
        match c.takeFree (c.poolTotal p) c.poolUsed need with
        | (none, c) => c
        | (some l, c) => (c.setSeq slot fun s => { s with pages := s.pages ++ l, grant := s.growth m }).putRecOf p slot
      else
        match c.seqVictim with
        | none => c
        | some v => if v.slot = slot then c.displace p snap v else (c.displace p snap v).growOne p snap slot fuel

def insertSeq (x : Seq) : List Seq → List Seq
  | [] => [x]
  | y :: l => if servedBefore x y then x :: y :: l else y :: insertSeq x l

def Chip.stepGrow (c : Chip) (p : SeqPlan) (snap : SeqSnap) : Chip :=
  let growers := ((c.seq.live.filter fun s => decide (s.st = .running) && decide (0 < s.growth (p.model s.model))).foldr insertSeq [])
  growers.foldl (fun c s => c.growOne p snap s.slot (c.seq.live.length + 1)) c

/-! ### Admission (R300) -/

def waitBefore (a b : SeqWait) : Bool :=
  decide (b.prio < a.prio) || (a.prio == b.prio &&
    ((a.resumer.isSome && b.resumer.isNone) || (a.resumer.isSome == b.resumer.isSome && decide (a.order < b.order))))

/-- The head of the queue among those in the snapshot, and the resumers that this boundary's victims became. -/
def Chip.seqHead (c : Chip) (snap : SeqSnap) : Option SeqWait :=
  (c.seq.queue.filter fun w => w.now || decide (w.order < snap.order)).foldl (fun (a : Option SeqWait) w =>
    match a with
    | none => some w
    | some b => if waitBefore w b then some w else some b) none

/-- Pages a place in the queue needs. -/
def Chip.waitNeed (c : Chip) (p : SeqPlan) (w : SeqWait) : Nat :=
  match w.resumer with
  | none => (p.model w.model).blocksFor w.prompt * (p.model w.model).layers
  | some slot =>
    match c.seqBySlot slot with
    | none => 0
    | some s => if s.st = .parked then s.park.length else (p.model s.model).layers

/-- Pool pages that a restore cannot use. -/
def Chip.poolOff (c : Chip) (p : SeqPlan) : List Nat := c.poolUsed ++ c.deadPages (c.objBase p.pool) (c.poolTotal p)

/-- The head waits (R300). -/
def Chip.headWaits (c : Chip) (p : SeqPlan) (snap : SeqSnap) (w : SeqWait) : Bool :=
  let need := c.waitNeed p w
  let model := match w.resumer with | some slot => ((c.seqBySlot slot).map (·.model)).getD 0 | none => w.model
  let parked := match w.resumer with | some slot => (match c.seqBySlot slot with | some s => decide (s.st = .parked) | none => false) | none => false
  decide (c.slotTotal p ≤ c.seq.live.length) ||
    ((p.model model).summaries && decide (c.summaryTotal p ≤ c.summaryUsed.length)) ||
    (parked && (decide (c.seq.budget < need) || (pickFree (c.poolTotal p) (c.poolOff p) 0 need).isNone)) || decide (c.poolFree p < need + snap.reserve)

/-- What an admitted joiner or resumer takes of its channel's versions (R315). -/
def Chip.admitVersion (c : Chip) (slot : Nat) (fresh : Bool) : Chip :=
  match c.seqBySlot slot with
  | none => c
  | some s =>
    match s.channel with
    | none => c
    | some n =>
      let x := c.trnCh n
      let keep := !fresh && (s.version == x.current || s.version == x.other)
      let c := if keep then c else c.setSeq slot fun s => { s with
        version := x.current, bank := x.curBank, vflags := if fresh then 0 else s.vflags ||| 1 }
      let pol := if fresh then (c.trnChan n).map (·.policy) else none
      match c.seqBySlot slot with | some s => c.putSlot s pol | none => c

def Chip.admitJoiner (c : Chip) (p : SeqPlan) (snap : SeqSnap) (w : SeqWait) : Chip :=
  let m := p.model w.model
  match c.takeFree (c.slotTotal p) (c.seq.live.map (·.slot)) 1 with
  | (none, c) => c
  | (some ls, c) =>
    let slot := ls.headD 0
    match c.takeFree (c.poolTotal p) c.poolUsed (c.waitNeed p w) with
    | (none, c) => c
    | (some pages, c) =>
      let (sum, c) := if m.summaries then c.takeFree (c.summaryTotal p) c.summaryUsed 1 else (none, c)
      let mile := (((c.ring w.ring).item? w.item).map (·.mile)).getD 0
      let s : Seq :=
        { slot := slot, id := w.id, model := w.model, prio := w.prio, mile := mile, pages := pages, admitted := snap.turn, ring := w.ring
          item := w.item, req := w.req, fresh := 1, prompt := w.prompt, summary := sum.bind (·.head?), channel := c.modelChan w.model
          cancel := c.reqCancelled w.req }
      let c : Chip := { c with seq := { c.seq with live := c.seq.live ++ [s] } }
      let c := c.engineWrite (c.recAt p slot) (List.replicate 64 0)
      let c := c.engineWrite (c.recAt p slot + 12) (leBytes 2 mile)
      (c.putRec p s).admitVersion slot true

def Chip.admitResumer (c : Chip) (p : SeqPlan) (slot : Nat) : Chip :=
  match c.seqBySlot slot with
  | none => c
  | some s =>
    let m := p.model s.model
    let parked := decide (s.st = .parked)
    if parked && s.park.any fun k => c.mem.anyUncertain (c.parkAt p k) pageBytes then c.retire p slot complRestart 6
    else
      match c.takeFree (c.poolTotal p) (if parked then c.poolOff p else c.poolUsed) (if parked then s.park.length else m.layers) with
      | (none, c) => c
      | (some pages, c) =>
        let c := if parked then (s.park.zip pages).foldl (fun c e => c.copyPage (c.parkAt p e.1) (c.poolAt p e.2)) c else c
        let n := s.park.length
        let c : Chip := { c with seq := { c.seq with budget := c.seq.budget - n, copies := c.seq.copies + n } }
        let c := c.setSeq slot fun s => { s with
          st := .running, pages := pages, park := [], ttl := 0, pausedAt := 0, fresh := if parked then 0 else 2 }
        (c.putRecOf p slot).admitVersion slot false

/-- Consider the heads of the queue one by one. -/
def Chip.stepAdmit (c : Chip) (p : SeqPlan) (snap : SeqSnap) : Nat → Chip
  | 0 => c
  | fuel + 1 =>
    match c.seqHead snap with
    | none => c
    | some w =>
      if c.headWaits p snap w then { c with seq := { c.seq with headWait := true } }
      else
        let c : Chip := { c with seq := { c.seq with queue := c.seq.queue.filter fun x => x.order != w.order } }
        (match w.resumer with
          | some slot => c.admitResumer p slot
          | none => c.admitJoiner p snap w).stepAdmit p snap fuel

/-! ### Batches (R301, R302) -/

/-- START and NEW of a running sequence. -/
def Seq.entry (s : Seq) (m : SeqModel) : SeqEntry :=
  { slot := s.slot, model := s.model, id := s.id, start := if s.fresh = 1 then 0 else s.length
    new := if s.fresh = 1 then s.prompt else if s.fresh = 2 then 0 else s.newTokens m, prefill := s.fresh == 1, rebuild := s.fresh == 2 }

/-- The selection length. -/
def SeqEntry.sel (e : SeqEntry) : Nat := if e.new = 0 then e.start + 1 else e.start + e.new

def insertEntry (x : SeqEntry) : List SeqEntry → List SeqEntry
  | [] => [x]
  | y :: l => if x.sel < y.sel ∨ (x.sel = y.sel ∧ x.slot < y.slot) then x :: y :: l else y :: insertEntry x l

/-- The bucket of a length in a set: its LENGTH. -/
def Image.bucketLen (im : Image) (set len : Nat) : Nat :=
  ((bucketPick ((im.buckets.filter fun e => e.set == set).map fun e => (e.length, e.loopId)) len).map (·.1)).getD 0

/-- Cut from the front: full batches come first. -/
def takeBatches (bucket : Nat → Nat) (cap : Nat) : Nat → List SeqEntry → List (List SeqEntry)
  | 0, _ => []
  | _ + 1, [] => []
  | fuel + 1, e :: rest =>
    let same := rest.takeWhile fun f => bucket f.sel == bucket e.sel
    let b := e :: same.take (cap - 1)
    b :: takeBatches bucket cap fuel ((e :: rest).drop b.length)

/-- A batch record (R302). -/
def Chip.batchRecord (c : Chip) (p : SeqPlan) (model bucket turn : Nat) (b : List SeqEntry) : List Byte :=
  let kind := bit ((b.head?.map (·.prefill)).getD false)
  let head := leBytes 1 model ++ leBytes 1 kind ++ leBytes 2 b.length ++ leBytes 4 bucket ++ leBytes 8 turn ++
    leBytes 8 (globalAddr c.pkg (c.objBase p.pt)) ++ leBytes 40 0
  head ++ b.zipIdx.flatMap fun (e, i) =>
    let cancelling := bit (((c.seqBySlot e.slot).map (·.cancel)).getD false)
    leBytes 2 (e.slot % 65536) ++ leBytes 2 (i + 1) ++ leBytes 4 e.id ++ leBytes 4 e.start ++ leBytes 4 e.new ++
      leBytes 8 (globalAddr c.pkg (c.recAt p e.slot)) ++ leBytes 1 (bit e.prefill + 2 * bit e.rebuild + 4 * cancelling) ++ leBytes 7 0

/-- The task item of a batch (R301). -/
def Chip.batchTask (c : Chip) (m : SeqModel) (b : List SeqEntry) (recOff turn : Nat) : List Byte :=
  mkHeader 2 0x01 0 0 0 ++ leBytes 4 0xFFFFFFFF ++ leBytes 4 m.entry ++ leBytes 2 m.bucketSet ++ leBytes 1 m.prio ++ leBytes 1 m.flags ++
    leBytes 4 ((b.map SeqEntry.sel).foldl max 0) ++ m.shape ++ leBytes 28 0 ++ leBytes 8 (globalAddr c.pkg recOff) ++ leBytes 8 turn ++ leBytes 48 0

/-- Commit a task item, or keep it until its ring has room. -/
def Chip.putTask (c : Chip) (ring : Nat) (bytes : List Byte) : Chip :=
  if c.seq.tasks.isEmpty then
    match c.enginePut ring bytes with
    | some c => c
    | none => { c with seq := { c.seq with tasks := [(ring, bytes)] } }
  else { c with seq := { c.seq with tasks := c.seq.tasks ++ [(ring, bytes)] } }

/-- R304's bound on a boundary's work, in µs. -/
def Chip.seqBound (c : Chip) : Nat :=
  20 + ceilDiv (15 * (c.seq.live.length + (c.seq.queue.filter fun w => w.resumer.isNone).length)) 1000 + ceilDiv (c.seq.copies * pageBytes) 40000

/-- Once the turn's last task item is committed the boundary work ends (R304). SEQ_BDTIME takes the time that passed since it began, and what of
R304's bound is left may have passed too (log entry 70). -/
def Chip.seqEnd (c : Chip) : Chip :=
  match c.seq.busy with
  | some t =>
    if c.seq.posted ∧ c.seq.tasks = [] then
      let (d, c) := c.draw
      let ran := (c.elapsed - t) / tUs
      let c := c.setReg rSEQ_BDTIME (min (ran + d % (c.seqBound - ran + 1)) (2 ^ 32 - 1))
      { c with seq := { c.seq with busy := none, posted := false, copies := 0 } }
    else c
  | none => c

/-- Post the task items that waited for room, oldest first. -/
def Chip.flushTasks (c : Chip) : Nat → Chip
  | 0 => c
  | fuel + 1 =>
    match c.seq.tasks with
    | [] => c.seqEnd
    | (r, bs) :: rest =>
      match c.enginePut r bs with
      | none => c
      | some c => ({ c with seq := { c.seq with tasks := rest } } : Chip).flushTasks fuel

/-- Place one batch at an offset of its half; what does not fit is unscheduled (R302). -/
def Chip.postBatch (c : Chip) (p : SeqPlan) (m : SeqModel) (turn base half used : Nat) (b : List SeqEntry) : Nat × Chip :=
  let fit := (half - used - 64) / 32
  let kept := if half < used + 96 then [] else b.take fit
  let left := b.length - kept.length
  let c := if left = 0 then c
    else
      let c := c.setReg rSEQ_UNSCHED (satAdd 32 (c.reg rSEQ_UNSCHED) left)
      if c.seq.unschedNoted then c else ({ c with seq := { c.seq with unschedNoted := true } } : Chip).notice 302 turn
  if kept.isEmpty then (used, c)
  else
    let off := base + used
    let model := (kept.head?.map (·.model)).getD 0
    let bucket := c.im.bucketLen m.bucketSet ((kept.head?.map SeqEntry.sel).getD 0)
    let c := c.engineWrite off (c.batchRecord p model bucket turn kept)
    let c : Chip := { c with seq := { c.seq with flags := c.seq.flags ++ kept.zipIdx.map fun (e, i) => (e.slot, off + 64 + 32 * i + 24) } }
    (alignUp (used + 64 + 32 * kept.length) 64, c.putTask m.taskRing (c.batchTask m kept off turn))

/-- Form and post the turn's batches, and end the boundary work when their rings took every task item. -/
def Chip.postBatches (c : Chip) (p : SeqPlan) : Chip :=
  let turn := c.seq.turn
  let half := c.objSize p.batch / 2
  let base := c.objBase p.batch + turn % 2 * half
  let c : Chip := { c with seq := { c.seq with flags := [], unschedNoted := false } }
  let r := (List.range p.models.length).foldl (fun (a : Nat × Chip) k =>
    let m := p.model k
    let mine := c.seq.entries.filter fun e => e.model == k
    let bucket := c.im.bucketLen m.bucketSet
    let groups := [mine.filter (·.prefill), mine.filter fun e => !e.prefill]
    (groups.flatMap fun g => takeBatches bucket m.batchMax (g.length + 1) (g.foldr insertEntry [])).foldl
      (fun (a : Nat × Chip) b => a.2.postBatch p m turn base half a.1 b) a) (0, c)
  ({ r.2 with seq := { r.2.seq with entries := [], posted := true } } : Chip).seqEnd

/-! ### The boundary work (R294, R304) -/

def Chip.seqWork (c : Chip) (p : SeqPlan) (snap : SeqSnap) : Chip :=
  let c : Chip := { c with seq := { c.seq with
    budget := snap.budget, copies := 0, posted := false, turn := snap.turn, headWait := false, queue := c.seq.queue.map fun w => { w with now := false }
    live := c.seq.live.map fun s => { s with grant := 0, fresh := 0 } } }
  let c := snap.heads.foldl (fun c h => c.takeHead p h) c
  let c := c.stepRetire p snap
  let c := c.stepPause p snap
  let c := c.stepGrow p snap
  let c := c.stepAdmit p snap (c.seq.queue.length + 1)
  let c := c.setReg rSEQ_POOLFREE (c.poolFree p)
  let c : Chip := { c with seq := { c.seq with
    entries := (c.seq.live.filter fun s => decide (s.st = .running)).map fun s => s.entry (p.model s.model), busy := some c.elapsed } }
  if c.seq.copies = 0 then c.postBatches p else c

/-- The sequence engine's part of a turn boundary: the work, or its snapshot when earlier work is still in progress. -/
def Chip.seqBoundary (c : Chip) (turn tick : Nat) : Chip :=
  match c.seqPlan with
  | none => c
  | some p =>
    let snap := c.snapshot p turn tick
    if c.seq.busy.isSome ∨ !c.seq.overdue.isEmpty then { c with seq := { c.seq with overdue := c.seq.overdue ++ [snap] } }
    else c.seqWork p snap

end Sys2Proof.Machine
end

