-- ==== Sys2Proof/Machine/WearOps.lean ====
section
/-! DEFINITION. The wear unit: monitors, thresholds, criteria, ageing, prediction, records and notices (22_wear.md R555–R567; 21_faults.md R536). -/

namespace Sys2Proof.Machine

/-! ### The wear plan (R566) -/

def Image.wearField (im : Image) (off n default : Nat) : Nat :=
  match im.plan? 0xFFFF0005 with | none => default | some b => fieldAt b off n
def Image.wearPeriod (im : Image) : Nat := im.wearField 4 2 60
def Image.warnDays (im : Image) : Nat := im.wearField 6 2 365
def Image.eyeFloor (im : Image) : Nat := im.wearField 8 2 24
def Image.flashRated (im : Image) : Nat := im.wearField 12 4 100000
def Image.wearCopy (im : Image) : Nat := im.wearField 16 2 0

def Chip.setWear (c : Chip) (f : Wear → Wear) : Chip := { c with wear := f c.wear }

/-! ### Monitors (R555, R556) -/

/-- A value that could not be sampled. -/
def unsampled : Int := -(2 ^ 31)

/-- A monitor's base in the I3C map. -/
def monBase (code : Nat) : Nat :=
  match code with
  | 0x01 => 0x400 | 0x02 => 0x420 | 0x03 => 0x428 | 0x10 => 0x448 | 0x11 => 0x468 | 0x12 => 0x46C | 0x20 => 0x470 | 0x21 => 0x570
  | 0x22 => 0x5B0 | 0x30 => 0x5B4 | 0x31 => 0x614 | 0x40 => 0x674 | _ => 0x680

/-- How many instances a monitor has. -/
def monCount (code : Nat) : Nat :=
  match code with
  | 0x01 => 8 | 0x02 => 2 | 0x03 => 8 | 0x10 => 8 | 0x20 => 64 | 0x21 => 16 | 0x30 => 24 | 0x31 => 24 | 0x40 => 3 | _ => 1

def Chip.mon (c : Chip) (code k : Nat) : Int := sget unsampled c.wear.monitors (monBase code + 4 * k)
def Chip.setMon (c : Chip) (code k : Nat) (v : Int) : Chip :=
  c.setWear fun w => { w with monitors := sput unsampled w.monitors (monBase code + 4 * k) v }
def Chip.mons (c : Chip) (code : Nat) : List Int := (List.range (monCount code)).map (c.mon code)

/-- The island that a monitor's instance lies in. -/
def monIsland (code k : Nat) : Nat :=
  match code with
  | 0x01 => platIsland k | 0x02 => 12 + k | 0x03 => 11 | 0x10 => platIsland k | 0x20 => cellIsland k | 0x21 => 10 | 0x22 => 1
  | 0x30 => linkIsland k | 0x31 => linkIsland k | 0x41 => 11 | _ => 0

/-! ### Health thresholds (R536, R593) -/

/-- The scope that a monitor's unit gives a severity; none makes it S0 (R536). -/
def monScope (code k sev : Nat) : Option Scope :=
  match code, sev with
  | 0x20, 2 => some (.cell k)
  | 0x20, 3 => some (.island (cellIsland k))
  | 0x01, 3 => some (.island (platIsland k))
  | 0x10, 3 => some (.island (platIsland k))
  | 0x02, 3 => some (.island (12 + k))
  | 0x30, 3 => some (.island (linkIsland k))
  | 0x31, 3 => some (.island (linkIsland k))
  | _, _ => none

/-- The tasks that have a part on a cell. -/
def Chip.cellTasks (c : Chip) (n : Nat) : List (Nat × Nat) :=
  let own := (c.partAt n).toList ++ c.disp.saved.filter fun p => p.cell == n
  (own.map fun p => (p.part.ring, p.part.seq)).eraseDups

/-- A threshold fires on an instance: source 0x06, cause HEALTH, the monitor code in ARG. -/
def Chip.healthFault (c : Chip) (t : Threshold) (k : Nat) : Chip :=
  let d : Detected := { sev := t.sev, source := 0x06, cause := 0x15, arg := t.monitor }
  if t.monitor = 0x20 ∧ t.sev = 1 then
    (c.cellTasks k).foldl (fun (c : Chip) (e : Nat × Nat) => c.raise { d with scope := .task e.1 e.2, atCell := k }) c
  else match monScope t.monitor k t.sev with
    | some sc => c.raise { d with scope := sc, atCell := if t.monitor = 0x20 then k else 0xFF, unitId := k }
    | none => c.raise { d with sev := 0, unitId := k }

/-- One side of a threshold meets a sample: HOLD samples in a row beyond the limit fire it once, until a sample lies within it. -/
def Chip.holdStep (c : Chip) (t : Threshold) (key k : Nat) (beyond : Bool) : Chip :=
  if !beyond then c.setWear fun w => { w with holds := sput 0 w.holds key 0, met := w.met.filter fun x => x != key }
  else
    let n := sget 0 c.wear.holds key + 1
    let c := c.setWear fun w => { w with holds := sput 0 w.holds key (min n t.hold) }
    if n < t.hold ∨ key ∈ c.wear.met then c
    else (c.setWear fun w => { w with met := w.met ++ [key] }).healthFault t k

/-- A sample of an instance meets the thresholds of its monitor: LOW is passed below it, HIGH above it. -/
def Chip.healthSample (c : Chip) (code k : Nat) (v : Int) : Chip :=
  c.im.thresholds.zipIdx.foldl (fun (c : Chip) (e : Threshold × Nat) =>
    let t := e.1
    if t.monitor ≠ code then c
    else
      let key := (e.2 * 64 + k) * 2
      let c := if t.lowOn then c.holdStep t key k (decide (v < t.low)) else c
      if t.highOn then c.holdStep t (key + 1) k (decide (t.high < v)) else c) c

/-- Take the values of a monitor's instances; one in an island that is not OPEN, or without a value, is not sampled (R556). -/
def Chip.takeMon (c : Chip) (code : Nat) (vals : List (Option Int)) : Chip :=
  (List.range (monCount code)).foldl (fun (c : Chip) k =>
    match vals.getD k none with
    | some v => if c.islOpen (monIsland code k) then (c.setMon code k v).healthSample code k v else c.setMon code k unsampled
    | none => c.setMon code k unsampled) c

/-- A fast sample (R556). -/
def Chip.fastSample (c : Chip) (plat port hbm : List Int) (fitted : Nat) (vdd : Nat) (power : Int) : Chip :=
  let c := c.takeMon 0x01 (plat.map some)
  let c := c.takeMon 0x02 (port.map some)
  let c := c.takeMon 0x03 (hbm.zipIdx.map fun (e : Int × Nat) => if fitted.testBit e.2 then some e.1 else none)
  let c := c.takeMon 0x11 [some (vdd : Int)]
  let c := c.takeMon 0x12 [some power]
  c.setWear fun w => { w with vddSum := w.vddSum + vdd, vddN := w.vddN + 1 }

/-! ### Slow values (R555, R560) -/

/-- The smallest of a bank's last 32 margins, once per cell. -/
def Chip.takeMargins (c : Chip) (margins : List Int) : Chip :=
  c.setWear fun w => { w with cellMargins := w.cellMargins.zipIdx.map fun (e : List Int × Nat) =>
    (match margins[e.2]? with
      | some v => if c.islOpen (cellIsland e.2) then (e.1 ++ [v]).drop (e.1.length + 1 - 32) else e.1
      | none => e.1) }

def minInt : List Int → Option Int
  | [] => none
  | v :: l => some (l.foldl min v)

/-- LINK_EYE: twice the smallest measured lane of LNK_EYE. -/
def Chip.linkEye (c : Chip) (l : Nat) : Option Int :=
  let lanes := (leBytes 4 (c.reg (rLNK_EYE + l * 0x800))).map (·.toNat)
  (minInt ((lanes.filter (· != 0xFF)).map fun v => (v : Int))).map (2 * ·)

/-- A count per second, or per hour, since the last slow sample. -/
def perTime (d scale span : Nat) : Int := if span = 0 then 0 else (d * scale / span : Nat)

/-- The erase cycles of a device: of the XSPI2 device, each sector's (R560). -/
def Chip.erasesOf (c : Chip) (k : Nat) : Nat :=
  if k = 2 then c.mirror.erases / max 1 (c.mirror.size / 4096) else c.wear.erases.getD k 0

/-- FLASH_USED, in 0.01 % of FLASH_RATED. -/
def Chip.flashUsed (c : Chip) (k : Nat) : Option Int :=
  if k = 2 ∧ c.mirror.size = 0 then none else some ((c.erasesOf k * 10000 / max 1 c.im.flashRated : Nat) : Int)

/-- The slow monitors. -/
def Chip.slowMonitors (c : Chip) (obs : WearObs) : Chip :=
  let span := c.elapsed - c.wear.slowAt
  let fecNow := (List.range 24).map fun l => c.reg (rLNK_FECCORR + l * 0x800)
  let fec := (List.range 24).map fun l => some (perTime (fecNow.getD l 0 - c.wear.fec.getD l 0) tSec span)
  let ecc := perTime (c.mem.eccCorr - c.wear.ecc) (3600 * tSec) span
  let c := (c.takeMon 0x10 (obs.need.map some)).takeMargins obs.margins
  let c := c.takeMon 0x20 (c.wear.cellMargins.map minInt)
  let c := (c.takeMon 0x21 (obs.depot.map some)).takeMon 0x22 [some obs.sb]
  let c := (c.takeMon 0x30 ((List.range 24).map c.linkEye)).takeMon 0x31 fec
  let c := (c.takeMon 0x40 ((List.range 3).map c.flashUsed)).takeMon 0x41 [some ecc]
  c.setWear fun w => { w with fec := fecNow, ecc := c.mem.eccCorr }

/-- An instance that the part has: fitted, and of a planned link (R555). -/
def Chip.monFitted (o : Otp) (c : Chip) (code k : Nat) : Bool :=
  let planned := fun (l : Nat) => (c.im.linkPlan c.pkg l).kind != 0
  match code with
  | 0x02 => !absentIsland o (12 + k)
  | 0x03 => (if o.assy = 2 then 0x77 else if o.assy = 3 then 0x66 else 0xFF : Nat).testBit k
  | 0x30 => planned k
  | 0x31 => planned k
  | 0x40 => k != 2 || c.mirror.size != 0
  | _ => true

def monCodes : List Nat := [0x01, 0x02, 0x03, 0x10, 0x11, 0x12, 0x20, 0x21, 0x22, 0x30, 0x31, 0x40, 0x41]

/-- An instance of the part was not sampled (R563). -/
def Chip.anyUnsampled (o : Otp) (c : Chip) : Bool :=
  monCodes.any fun code => (List.range (monCount code)).any fun k => c.monFitted o code k && c.mon code k == unsampled

/-! ### Criteria (R557) -/

/-- The extreme sampled instance of a list: its value and its number. -/
def worstOf (largest : Bool) (l : List (Int × Nat)) : Option (Int × Nat) :=
  l.foldl (fun (a : Option (Int × Nat)) e => if e.1 = unsampled then a else match a with
    | none => some e
    | some b => if (if largest then b.1 < e.1 else e.1 < b.1) then some e else some b) none

/-- A criterion's worst unit at a sample. -/
def Chip.critWorst (c : Chip) (k : Nat) : Option (Int × Nat) :=
  match k with
  | 0 => worstOf true (c.mons 0x10).zipIdx
  | 1 => worstOf false ((c.mons 0x20).zipIdx ++ (c.mons 0x21).zipIdx ++ (c.mons 0x22).zipIdx)
  | 2 => worstOf false ((c.mons 0x30).zipIdx.filter fun (e : Int × Nat) =>
      (c.im.linkPlan c.pkg e.2).kind != 0 && ((c.half e.2 0).st == .up || (c.half e.2 1).st == .up))
  | _ => worstOf true (c.mons 0x40).zipIdx

def Image.critLimit (im : Image) (k : Nat) : Int :=
  match k with | 0 => 850 | 1 => 30 | 2 => (im.eyeFloor : Int) | _ => 10000

/-- The distance from a value to the limit, in the ageing direction. -/
def critDist (k : Nat) (v w : Int) : Int := if k = 1 ∨ k = 2 then v - w else w - v

def Image.isCrossed (im : Image) (k : Nat) (v : Int) : Bool :=
  if k = 3 then decide (im.critLimit 3 ≤ v) else decide (0 < critDist k (im.critLimit k) v)

/-! ### Stress (R558) -/

/-- AF in 2⁻³²: `sumT` over `n` platforms is their TJ in 0.1 °C, `sumV` over `m` samples VDD_SENSED in mV. -/
def accelFactor (sumT : Int) (n sumV m : Nat) : Nat :=
  let kelvin := 10 * sumT + 27315 * n
  let arrhenius := fxMul (fxDiv 50000000 8617) (fxDiv 100 35815 - fxDiv (100 * n) (max 1 kelvin))
  let e := DyOp.floor (DyOp.scale (fxExpDy arrhenius) 128)
  let v := ((sumV ^ 3 * 2 ^ 128) / ((750 * m) ^ 3) : Nat)
  (e.toNat * v) / 2 ^ 224

/-- The present AF, the mean TJ in 0.1 °C and the mean VDD_SENSED; without an OPEN platform or a sample AF is a free value (log entry 34). -/
def Chip.stressNow (c : Chip) : (Nat × Int × Nat) × Chip :=
  let ts := (c.mons 0x01).filter (· != unsampled)
  let w := c.wear
  let mean := if ts.isEmpty then 0 else Int.fdiv ts.sum ts.length
  let vdd := w.vddSum / max 1 w.vddN
  if ts.isEmpty || w.vddN == 0 then
    let d := c.draw
    ((d.1 % 2 ^ 48, mean, vdd), d.2)
  else ((accelFactor ts.sum ts.length w.vddSum w.vddN, mean, vdd), c)

def dayTicks : Nat := 86400 * tSec

/-- Add the interval since the last slow sample to the effective age, and to the last 7 days. -/
def Chip.ageStep (c : Chip) : Chip :=
  let span := c.elapsed - c.wear.slowAt
  let s := c.stressNow
  let c := s.2
  let kept := c.wear.stress.filter fun e => decide (c.elapsed < e.taken + 7 * dayTicks)
  c.setWear fun w => { w with
    age := w.age + s.1.1 * span / 2 ^ 32, slowAt := c.elapsed, vddSum := 0, vddN := 0
    stress := kept ++ [{ taken := c.elapsed, span := span, af := s.1.1, tj := s.1.2.1, vdd := s.1.2.2 }] }

def Wear.stressSpan (w : Wear) : Nat := (w.stress.map (·.span)).sum
/-- The stress profile in 2⁻³². -/
def Wear.profile (w : Wear) : Nat := if w.stressSpan = 0 then 0 else (w.stress.map fun e => e.af * e.span).sum / w.stressSpan
/-- The intervals outside P3, and their length. -/
def Wear.awake (w : Wear) : List WearStress := w.stress.filter (!·.asleep)
def Wear.awakeSpan (w : Wear) : Nat := (w.awake.map (·.span)).sum
def Wear.tjMean (w : Wear) : Int := if w.awakeSpan = 0 then unsampled else Int.fdiv (w.awake.map fun e => e.tj * (e.span : Int)).sum w.awakeSpan
def Wear.vddMean (w : Wear) : Nat := if w.awakeSpan = 0 then 0 else (w.awake.map fun e => e.vdd * e.span).sum / w.awakeSpan

/-! ### Prediction (R559), in fixed point with 256 fraction bits -/

def fxSqrt (a : Int) : Int := (Nat.sqrt (a.toNat * 2 ^ 256) : Nat)

/-- An age in days. -/
def fxDays (age : Nat) : Int := Int.fdiv (age * fxOne) dayTicks

/-- tⁿ: n = 0.25, or 1 for EYE. -/
def fxAging (k age : Nat) : Int := if k = 2 then fxDays age else fxSqrt (fxSqrt (fxDays age))

/-- The fit through the origin: a, and s = 1.2816 × σ ÷ a. None without a positive a. -/
def fitAging (k : Nat) (v0 : Int) (pts : List WearPoint) : Option (Int × Int) :=
  let e := pts.map fun p => (critDist k v0 p.value, fxAging k p.age)
  let g2 := (e.map fun x => fxMul x.2 x.2).sum
  let dg := (e.map fun x => x.1 * x.2).sum
  if g2 ≤ 0 then none
  else
    let a := fxDiv dg g2
    if a ≤ 0 then none
    else
      let res := (e.map fun x => let r := x.1 * fxOne - fxMul a x.2; fxMul r r).sum
      let sigma := fxSqrt (fxDiv (Int.fdiv res (max 1 (e.length - 1))) g2)
      some (a, fxDiv (fxMul (Int.fdiv (12816 * fxOne) 10000) sigma) a)

/-- Whole days, at most 0xFFFE. -/
def capDays (d : Int) : Nat := min 0xFFFE (max 0 d).toNat

/-- Days until T(x) at the stress profile; a rate that never gets there gives the most. -/
def daysTo (k : Nat) (dist : Int) (x now : Int) (profile : Nat) : Nat :=
  if x ≤ 0 ∨ profile = 0 then 0xFFFE
  else
    let q := fxDiv (dist * fxOne) x
    let t := if k = 2 then q else fxMul (fxMul q q) (fxMul q q)
    capDays (Int.fdiv (fxDiv (t - now) ((profile : Int) * 2 ^ 224)) fxOne)

/-- A criterion of ageing. -/
def Chip.predictAging (c : Chip) (k : Nat) : WearPred :=
  let w := c.wear
  let pts := w.points.getD k []
  match w.v0.getD k none with
  | none => {}
  | some v0 =>
    if pts.length < 7 then {}
    else match fitAging k v0 pts with
      | none => {}
      | some (a, s) =>
        let dist := critDist k v0 (c.im.critLimit k)
        let now := fxDays w.age
        { median := daysTo k dist a now w.profile, p10 := daysTo k dist (a + fxMul a s) now w.profile
          p90 := daysTo k dist (a - fxMul a s) now w.profile }

/-- Days left at a number of erases in a number of days. -/
def flashDays (left erases days : Nat) : Nat := if erases = 0 then 0xFFFE else min 0xFFFE (left * days / erases)

/-- The flash criterion: the worst device, over the last 30 days. -/
def Chip.predictFlash (c : Chip) : WearPred :=
  let w := c.wear
  match w.vals.getD 3 none with
  | none => {}
  | some (_, unit) =>
    let day := w.flashDays.map fun (e : Nat × List Nat) => e.2.getD unit 0
    let rates := (day.zip (day.drop 1)).map fun (e : Nat × Nat) => e.2 - e.1
    if (w.points.getD 3 []).length < 7 ∨ rates.isEmpty then {}
    else
      let left := c.im.flashRated - c.erasesOf unit
      { median := flashDays left rates.sum rates.length, p10 := flashDays left (rates.foldl max 0) 1
        p90 := flashDays left (rates.foldl min (rates.headD 0)) 1 }

def Chip.predict (c : Chip) (k : Nat) : WearPred :=
  if c.wear.crossed.testBit k then { median := 0, p10 := 0, p90 := 0 } else if k = 3 then c.predictFlash else c.predictAging k

/-- The criterion with the smallest median, the lower code first; none is predicted at 0xFFFF. -/
def eolOf (preds : List WearPred) : Option Nat :=
  ((preds.zipIdx.filter fun (e : WearPred × Nat) => e.1.median != 0xFFFF).foldl (fun (a : Option (Nat × Nat)) (e : WearPred × Nat) => match a with
    | none => some (e.1.median, e.2)
    | some b => if e.1.median < b.1 then some (e.1.median, e.2) else some b) none).map (·.2)

/-! ### Records (R563) -/

def kSAMPLE : Nat := 1
def kPREDICT : Nat := 2
def kNOTICE : Nat := 3
def kRESTORE : Nat := 4

/-- A signed 32-bit field. -/
def leInt (n : Nat) (v : Int) : List Byte := leBytes n (v % (2 ^ (8 * n) : Nat)).toNat

/-- The four criteria of a record; the unit of one that was not sampled is a free value. -/
def Chip.critEntries (c : Chip) (vals : List (Option (Int × Nat))) : List Byte × Chip :=
  (List.range 4).foldl (fun (a : List Byte × Chip) k =>
    let p : WearPred := c.wear.preds.getD k {}
    let rest := leBytes 2 p.median ++ leBytes 2 p.p10 ++ leBytes 2 p.p90 ++ leInt 4 (c.im.critLimit k)
    match vals.getD k none with
    | some (v, u) => (a.1 ++ leInt 4 v ++ leBytes 2 u ++ rest, a.2)
    | none => let d := a.2.draw; (a.1 ++ leInt 4 unsampled ++ leBytes 2 d.1 ++ rest, d.2)) ([], c)

/-- A record after its header. -/
def Chip.wearBody (c : Chip) (kind crit : Nat) (vals : List (Option (Int × Nat))) : List Byte × Chip :=
  let e := c.critEntries vals
  let w := c.wear
  (leBytes 4 w.recNo ++ leBytes 1 kind ++ leBytes 1 crit ++
    leBytes 2 (packFields [(1, bit (w.inNotice != 0)), (1, bit w.stale), (1, bit w.eol.isSome), (1, bit w.restored)]) ++
    leBytes 8 c.tt.counter ++ leBytes 8 c.tt.turnNum ++ e.1 ++ leBytes 4 (w.age / (3600 * tSec)) ++ leBytes 2 (min 65535 (w.profile * 1000 / 2 ^ 32)) ++
    leInt 2 w.tjMean ++ leBytes 2 w.vddMean ++ leBytes 1 (w.eol.getD 0xFF) ++ leBytes 5 0 ++ leBytes 8 0, e.2)

/-- Write a record: to ring 0x0003, and from there to COPY_RING and the mirror; a record that the ring cannot take is dropped. The bytes are kept for I3C. -/
def Chip.wearRecord (c : Chip) (kind crit : Nat) (vals : List (Option (Int × Nat))) : Chip :=
  let c := c.setWear fun w => { w with recNo := w.recNo + 1 }
  let b := c.wearBody kind crit vals
  let c := b.2
  let head := fun (seq : Nat) => leBytes 1 2 ++ leBytes 1 0x05 ++ leBytes 2 0 ++ leBytes 4 seq ++ leBytes 4 0 ++ leBytes 2 0 ++ leBytes 2 0x3000
  let seq := (c.ring 3).nextSeq
  let bytes := head seq ++ b.1
  let c := if kind = kSAMPLE then c.setWear fun w => { w with lastSample := bytes }
    else if kind = kPREDICT then c.setWear fun w => { w with lastPredict := bytes } else c
  match (if c.islOpen 10 then c.enginePut 3 bytes else none) with
  | none => c.bump rWEAR_LOST
  | some c =>
    let r := c.im.wearCopy
    let c := if r = 0 then c else (c.enginePut r bytes).getD c
    c.mirrorPut bytes

/-! ### Notices (R562) -/

/-- A change of one criterion's notice. -/
def Chip.noticeChange (c : Chip) (k : Nat) (on : Bool) : Chip :=
  let p : WearPred := c.wear.preds.getD k {}
  let c := (c.wearRecord kNOTICE k c.wear.vals).notice k 0
  c.keepOnly { kind := 0x16, source := 0x0D, cause := 0x40
               arg := packFields [(16, p.median), (16, p.p10), (16, p.p90), (8, k), (1, bit on)] }

/-- The criteria in notice: crossed, or a 10th percentile at or below WARN_DAYS. -/
def Chip.noticeSet (c : Chip) : Nat :=
  maskOf ((List.range 4).filter fun k => c.wear.crossed.testBit k || decide ((c.wear.preds.getD k {}).p10 ≤ c.im.warnDays))

def Chip.wearNotices (c : Chip) : Chip :=
  let old := c.wear.inNotice
  let new := c.noticeSet
  let c := c.setWear fun w => { w with inNotice := new }
  (List.range 4).foldl (fun (c : Chip) k => if old.testBit k == new.testBit k then c else c.noticeChange k (new.testBit k)) c

/-! ### Samples and days (R556–R561) -/

/-- A slow sample: the monitors, the criteria, the age, the SAMPLE record and the notices. The first sample of a criterion becomes v₀. -/
def Chip.slowSample (o : Otp) (c : Chip) (obs : WearObs) : Chip :=
  let c := (c.slowMonitors obs).ageStep
  let vals := (List.range 4).map c.critWorst
  let crossed := fun (k : Nat) => match vals.getD k none with
    | some v => c.im.isCrossed k v.1
    | none => c.wear.crossed.testBit k
  let c := c.setWear fun w => { w with
    vals := vals, units := w.units.zipIdx.map (fun (e : Nat × Nat) => ((vals.getD e.2 none).map fun v => v.2).getD e.1), crossed := maskOf ((List.range 4).filter crossed), lost := false
    v0 := w.v0.zipIdx.map fun (e : Option Int × Nat) => (match e.1 with | some v => some v | none => (vals.getD e.2 none).map fun v => v.1)
    today := w.today.zipIdx.map fun (e : List Int × Nat) => e.1 ++ ((vals.getD e.2 none).map fun v => v.1).toList }
  let c := c.setWear fun w => { w with stale := c.anyUnsampled o }
  ((c.bumpWrap rWEAR_SAMPLES).wearRecord kSAMPLE 0xFF vals).wearNotices

/-- The median of the day's samples; of an even number the mean of the two in the middle, rounded down (log entry 34). -/
def dayMedian (l : List Int) : Option Int :=
  let s := l.mergeSort
  if s.isEmpty then none
  else if s.length % 2 = 1 then s[s.length / 2]? else
    match s[s.length / 2 - 1]?, s[s.length / 2]? with
    | some a, some b => some (Int.fdiv (a + b) 2)
    | _, _ => none

/-- The daily points, the prediction, the PREDICT record and the notices. -/
def Chip.dailyStep (c : Chip) : Chip :=
  let meds := c.wear.today.map dayMedian
  let c := c.setWear fun w => { w with
    points := w.points.zipIdx.map fun (e : List WearPoint × Nat) => (match meds.getD e.2 none with
      | some v => (e.1 ++ [({ value := v, age := w.age } : WearPoint)]).drop (e.1.length + 1 - 1024)
      | none => e.1)
    flashDays := (w.flashDays ++ [(c.elapsed, (List.range 3).map c.erasesOf)]).drop (w.flashDays.length + 1 - 31)
    today := List.replicate 4 [], dayAt := c.elapsed }
  let preds := (List.range 4).map c.predict
  let c := c.setWear fun w => { w with preds := preds, eol := eolOf preds }
  let vals := (List.range 4).map fun k => match meds.getD k none with
    | some v => some (v, c.wear.units.getD k 0)
    | none => none
  (c.wearRecord kPREDICT 0xFF vals).wearNotices

/-! ### The store rebuilt (R561) -/

/-- The PREDICT records of the mirror, the oldest first. -/
def Mirror.predicts (m : Mirror) : List (List Byte) :=
  let slots := (m.data.filter fun (e : Nat × Byte) => decide (e.1 % 128 = 1) && e.2 == 5).map fun e => e.1 / 128
  let n := max 1 (m.size / 128)
  let order := slots.filter (fun k => decide (m.next % n ≤ k)) ++ slots.filter fun k => decide (k < m.next % n)
  (order.map fun k => (List.range 128).map fun j => sget 0xFF m.data (128 * k + j)).filter fun b => fieldAt b 20 1 == kPREDICT

/-- The daily points that PREDICT records hold of a criterion. -/
def restorePoints (l : List (List Byte)) (k : Nat) : List WearPoint :=
  let pts := (l.map fun b => ({ value := signedField b (40 + 16 * k), age := fieldAt b 104 4 * 3600 * tSec } : WearPoint)).filter fun p => p.value != unsampled
  pts.drop (pts.length - 1024)

/-- Ohmax rebuilds a lost store when the mirror comes up, or finds that it starts empty. -/
def Chip.wearRestore (c : Chip) : Chip :=
  let c := c.setWear fun w => { w with lost := false }
  let l := c.mirror.predicts
  match l.getLast? with
  | none => c
  | some b =>
    let unit := fieldAt b 92 2
    let used := (signedField b 88).toNat * c.im.flashRated / 10000
    let c := c.setWear fun w => { w with
      points := (List.range 4).map (restorePoints l), age := fieldAt b 104 4 * 3600 * tSec, restored := true
      v0 := (List.range 4).map fun k => ((restorePoints l k).head?).map fun p => p.value
      erases := setAt w.erases unit fun _ => used }
    let c : Chip := if unit = 2 then { c with mirror := { c.mirror with erases := used * (c.mirror.size / 4096) } } else c
    c.wearRecord kRESTORE 0xFF (List.replicate 4 none)

/-- Look for the store's records once the mirror is kept. -/
def Chip.sweepWear (c : Chip) : Chip := if c.wear.lost && c.mirror.on && c.ohmaxRuns then c.wearRestore else c

end Sys2Proof.Machine
end

