-- ==== Sys2Proof/Machine/Settle.lean ====
section
/-! DEFINITION. What ends every step: the signals that it left are handled, and the engines take up what it made possible. -/

namespace Sys2Proof.Machine

/-- Act on a signal (R351, R382, R395, R534, R545). -/
def Chip.handle (c : Chip) : Signal → Chip
  | .fault d => c.detect d
  | .hostRing r => c.msixAll (2 + r % 62)
  | .bootCode => c.msixAll 0
  | .dbRefused _ => c
  | .remote q => c.sendRequest q
  | .ringResp pkg tag word => c.ringReply pkg tag word
  | .edgeDown l h => c.colEdgeDown l h
  | .partitionStop origin => c.partitionStop { sev := 5, source := 0x0B, cause := 0x33, scope := .partition, arg := origin } false

/-- Handle the signals that stand, and those that this raises. -/
def Chip.drainSignals (c : Chip) : Nat → Chip
  | 0 => c
  | fuel + 1 =>
    match c.signals with
    | [] => c
    | l => (l.foldl Chip.handle { c with signals := [] }).drainSignals fuel

/-- Cells whose last transfer has finished are idle (R537). -/
def Chip.sweepDraining (c : Chip) : Chip :=
  if c.cells.any (·.draining) then
    (List.range 64).foldl (fun (c : Chip) n =>
      if (c.cell n).draining && !(c.xfers.any fun x => x.cell == n) then c.setCell n fun x => { x with draining := false } else c) c
  else c

/-- A ring holds a committed item whose request was cancelled. -/
def Chip.holdsCancelled (c : Chip) (e : Nat × Ring) : Bool :=
  e.2.items.any fun i => i.st == .committed && i.req != 0 && c.cancelled.contains i.req

/-- A cancelled item that has reached TAKE is discarded, once its completion can be promised (R258). -/
def Chip.sweepCancelled (c : Chip) : Chip := (c.rings.filter c.holdsCancelled).foldl (fun c (e : Nat × Ring) => c.clearHead e.1) c

/-- What an in-band interrupt of the I3C target reports (R564). -/
def Chip.ibiFacts (c : Chip) : Nat × Nat × Nat := (bit c.wearNotice, c.faultHighest, c.boot.code)

/-- A change of those facts sends an in-band interrupt. -/
def Chip.sweepIbi (c : Chip) : Chip :=
  let n := c.ibiFacts
  let o := c.i3c.seen
  if n = o then c
  else
    let bits := bit (n.1 != o.1) + 2 * bit (n.2.1 != o.2.1) + 4 * bit (n.2.2 != o.2.2)
    { c with i3c := { c.i3c with seen := n, ibi := if c.i3c.events && c.i3c.dyn.isSome then bits else c.i3c.ibi } }

/-- The engines take up what a step made possible. -/
def Chip.engines (c : Chip) : Chip :=
  let c := if c.islOpen 10 then (c.colArm.colSweep).flushTasks 64 else c
  let c := c.armPrune.sweepTurnSets.sweepProcs
  let c := if c.amd.unsent.isEmpty then c else c.flushStatus c.amd.unsent.length
  (if c.islOpen 10 then c.sweepCancelled else c).sweepWear.sweepDraining.tryEnter

def Chip.settle (_o : Otp) (c : Chip) : Chip := ((c.drainSignals 32).engines.drainSignals 32).sweepIbi

/-- A meaning that may leave signals. -/
def State.run (s : State) (f : Chip → Chip) : Host.Outcome State Fault Refusal :=
  s.act fun o c => (f c).settle o

/-- A meaning that reads the fuses and may leave signals. -/
def State.runO (s : State) (f : Otp → Chip → Chip) : Host.Outcome State Fault Refusal :=
  s.act fun o c => (f o c).settle o

/-- Ohmax consumes the items of rings 0x0001–0x0004 (R263). -/
def Chip.ohmaxConsume (c : Chip) : Chip :=
  if !c.ohmaxRuns || !c.islOpen 10 then c
  else [1, 2, 3, 4].foldl (fun (c : Chip) r =>
    (c.ring r).items.foldl (fun (c : Chip) _ => match c.takeItem r .ohmax with
      | some (i, c) => c.completeItem r i.seq 0x00 0
      | none => c) c) c

/-- An empty queue: one cycle of the timetable's oscillator passes, in P3 one of 25 MHz, and Ohmax forwards the items of its rings (R111, R263, R500;
log entry 8). -/
def State.idle (s : State) : State :=
  let c := s.chip
  { s with chip := if c.pwr.st = .standby then c.pass 640 else (c.pass 16).ohmaxConsume.settle s.otp }

end Sys2Proof.Machine
end

