-- ==== Sys2Proof/Machine/Amendments.lean ====
section
/-! DEFINITION. Commands of the amendment handler (16_amendments.md R407–R432; 10_dispatch_and_switching.md R308). -/

namespace Sys2Proof.Machine

/-- AMEND_COMMIT: a class-B commit record is applied, or a class-C procedure starts (R416, R421). -/
def execAmendCommit (s : State) : Host.Outcome State Fault Refusal :=
  s.runO fun o c => c.fireDep (fun d => d.action == 0x0020) fun d _ c => c.commitAmend o d

/-- AMEND_RECORD_TAKE, with what the two signature checks of the envelope answer (R409, R412; log entry 3). -/
def execAmendRecordTake (ecdsa mldsa : List SigCheck) (s : State) : Host.Outcome State Fault Refusal :=
  s.runO fun o c => c.amTake o (ecdsa ++ mldsa)

/-- CLASS_C_DRAINED: the scope of a procedure is quiet (R421). -/
def execClassCDrained (scope : BitVec 16) (s : State) : Host.Outcome State Fault Refusal := s.runO fun o c => c.procDrained o scope.toNat

/-- CLASS_C_HALF_DRAIN_SAVE (R425). -/
def execClassCHalfDrainSave (scope : BitVec 16) (s : State) : Host.Outcome State Fault Refusal := s.run fun c => c.procHalf scope.toNat

/-- CLASS_C_DRAIN_TIMEOUT (R422). -/
def execClassCDrainTimeout (scope : BitVec 16) (s : State) : Host.Outcome State Fault Refusal := s.run fun c => c.procTimeout scope.toNat

/-- CLASS_C_APPLY_TIMEOUT: the unit of the operation numbered `op` does not acknowledge its write (R423). -/
def execClassCApplyTimeout (scope : BitVec 16) (op : Nat) (s : State) : Host.Outcome State Fault Refusal :=
  s.runO fun o c => c.procRollback o scope.toNat op

/-- The class-C procedure of a scope that an authenticated envelope started, when its operations give registers these values (R14, R412, R421). -/
def Chip.procWrites (o : Otp) (c : Chip) (scope : Nat) (vals : List (Nat × Nat)) : Bool :=
  match c.proc? scope with
  | none => false
  | some p => vals.all fun (e : Nat × Nat) => c.amAfter o p.ops e.1 == e.2

/-- PLACEMENT_CHANGE: the class-C procedure of scope 0x0500 whose envelope writes AMD_PLACE_OBJ and AMD_PLACE_CODE applies (R427). -/
def execPlacementChange (obj : Word) (code : BitVec 8) (s : State) : Host.Outcome State Fault Refusal :=
  s.runO fun o c =>
    if c.procWrites o 0x500 [(rAMD_PLACE_OBJ, obj.toNat), (rAMD_PLACE_CODE, code.toNat)] then c.procDrained o 0x500 else c

/-- PLATFORM_ROLE_CHANGE: the class-C procedure of a quiet platform whose envelope writes AMD_ROLEp applies; the role governs placement from the
boundary at which the platform reopens (R308). -/
def execPlatformRoleChange (plat : Fin 8) (role : Fin 3) (s : State) : Host.Outcome State Fault Refusal :=
  s.runO fun o c => if c.procWrites o (0x100 + plat.val) [(rAMD_ROLE + 4 * plat.val, role.val)] then c.procDrained o (0x100 + plat.val) else c

end Sys2Proof.Machine
end

