-- ==== Sys2Proof/Machine/CellMac.lean ====
section
/-! DEFINITION. The MAC operations of a cell thread (05_cells.md R141–R149; 06_cell_operations.md R176–R178). -/

namespace Sys2Proof.Machine

/-- The bytes of the cell store that a STAGE reads, as (offset, length): elements, then scale bytes (R176). -/
def stageRegions (f : ElemFmt) (transpose : Bool) (a b stride : Nat) : List (Nat × Nat) :=
  let es := f.width / 8
  let rows := if transpose then
      (List.range 32).flatMap fun r => (List.range 32).map fun k => ((a + k * stride + r * es) % 2 ^ 64, es)
    else (List.range 32).map fun r => ((a + r * stride) % 2 ^ 64, 4 * f.width)
  if f.isMx then rows ++ (List.range 32).map fun r => ((b + r) % 2 ^ 64, 1) else rows

/-- The tile that a STAGE reads. -/
def PartState.stageTile (p : PartState) (f : ElemFmt) (transpose : Bool) (a b stride : Nat) : StageTile :=
  let es := f.width / 8
  { fmt := f
    rows := (List.range 32).map fun r =>
      if transpose then (List.range 32).map fun k => leNat (p.load ((a + k * stride + r * es) % 2 ^ 64) es)
      else
        let bs := p.load ((a + r * stride) % 2 ^ 64) (4 * f.width)
        (List.range 32).map fun k => elemAt f bs k
    scales := (List.range 32).map fun r => if f.isMx then leNat (p.load ((b + r) % 2 ^ 64) 1) else 0x7F }

/-- STAGE (R176, R141). -/
def execStage (cell thread : Fin 64) (word : Qword) (ecc : Fin 3) (line : Nat) (s : State) : Host.Outcome State Fault Refusal :=
  let w := word.toNat
  s.run fun c => c.issue cell thread w 0x40 fun _ t c =>
    match fmtOfCode (wY w) with
    | none => c.except cell thread excIllegal 0 0
    | some f =>
      let a := (t.sreg (wA w)).toNat
      let b := (t.sreg (wB w)).toNat
      let stride := wImm w % 2 ^ 32
      let tr := (wX w).testBit 3
      let reg := stageRegions f tr a b stride
      if reg.any fun e => !inStore e.1 e.2 then c.except cell thread excBounds 0 a
      else
        let c := c.storeEcc cell ecc (pickLine (reg.flatMap fun e => unitsOf e.1 e.2) line)
        match c.partAt cell with
        | none => c
        | some p =>
          if reg.any fun e => p.bad e.1 e.2 then c.except cell thread excStorePoison 0 a
          else
            let tile := p.stageTile f tr a b stride
            (c.setPart cell fun p => { p with stage := p.stage.set (wX w % 8) (some tile) }).setThread cell thread Thread.step

/-- One block of every unit (i, j) of the array (R142), with the flags it sets. -/
def macTile (acc : List Word) (a b : StageTile) (overwrite : Bool) : List FpRes :=
  (List.range 1024).map fun k =>
    let i := k / 32
    let j := k % 32
    macBlock (acc.getD k 0) ((a.rows.getD i []).map (elemDecode a.fmt)) (a.scales.getD i 0x7F)
      ((b.rows.getD j []).map (elemDecode b.fmt)) (b.scales.getD j 0x7F) overwrite

/-- The slots of an MMA, A then B, lower then higher; none raises FORMAT (R177). -/
def mmaSlots (p : PartState) (w : Nat) : Option (List (StageTile × StageTile)) :=
  let y := wY w
  let a := y % 8
  let b := y / 8 % 8
  let slot := fun k => p.stage.getD k none
  if (wX w).testBit 1 then
    match slot a, slot (a + 1), slot b, slot (b + 1) with
    | some a0, some a1, some b0, some b1 =>
      if a0.fmt = .mxE2m1 ∧ a1.fmt = .mxE2m1 ∧ b0.fmt = .mxE2m1 ∧ b1.fmt = .mxE2m1 then some [(a0, b0), (a1, b1)] else none
    | _, _, _, _ => none
  else
    match slot a, slot b with
    | some a0, some b0 => some [(a0, b0)]
    | _, _ => none

/-- The blocks of an MMA in order; only the first overwrites (R143). -/
def mmaRun (acc : List Word) (overwrite : Bool) : List (StageTile × StageTile) → List Word × FpFlags
  | [] => (acc, 0)
  | (a, b) :: rest =>
    let r := macTile acc a b overwrite
    let q := mmaRun (r.map (·.bits)) false rest
    (q.1, orFlags (r.map (·.flags)) ||| q.2)

/-- MMA (R142, R143, R177). CELL_MACBUSY counts 2 for a ½× operation (R164). -/
def execMma (cell thread : Fin 64) (word : Qword) (s : State) : Host.Outcome State Fault Refusal :=
  let w := word.toNat
  s.run fun c => c.issue cell thread w 0x41 fun p t c =>
    match mmaSlots p w with
    | none => c.except cell thread excFormat 0 0
    | some slots =>
      let r := mmaRun (t.tile (wD w)) ((wX w).testBit 0) slots
      let half := slots.any fun e => e.1.fmt = .bf16 || e.2.fmt = .bf16
      let c := c.setReg (cellReg rCELL_MACBUSY cell) (c.reg (cellReg rCELL_MACBUSY cell) + if half then 2 else 1)
      (c.setThread cell thread fun t => (t.setTile (wD w) r.1).step).setFlags cell thread r.2

/-- ACCRD (R148, R178): four registers of 8 rows. -/
def execAccrd (cell thread : Fin 64) (word : Qword) (s : State) : Host.Outcome State Fault Refusal :=
  let w := word.toNat
  s.run fun c => c.issueT cell thread w 0x42 fun _ t =>
    (List.range 4).foldl (fun (x : Thread) q => x.setV (wD w + q) (((t.tile (wA w)).drop (256 * q)).take 256)) t

/-- ACCWR (R178). -/
def execAccwr (cell thread : Fin 64) (word : Qword) (s : State) : Host.Outcome State Fault Refusal :=
  let w := word.toNat
  s.run fun c => c.issueT cell thread w 0x43 fun _ t =>
    t.setTile (wD w) ((List.range 4).flatMap fun q => t.vreg (wA w + q))

/-- One row of a tile in a format: its bytes, its scale byte for an MX format, its flags (R153, R154). -/
def rowBytes (f : ElemFmt) (row : List Word) : List Byte × Option Nat × FpFlags :=
  if f.isMx then
    let b := convMx f (fun _ => .nearest) row
    (packElems f b.elems, some b.scale, b.flags)
  else
    let r := row.map (convPlain f .nearest)
    (packElems f (r.map (·.bits)), none, orFlags (r.map (·.flags)))

/-- ACCST (R178). -/
def execAccst (cell thread : Fin 64) (word : Qword) (s : State) : Host.Outcome State Fault Refusal :=
  let w := word.toNat
  s.run fun c => c.issue cell thread w 0x44 fun _ t c =>
    match fmtOfCode (wX w) with
    | none => c.except cell thread excIllegal 0 0
    | some f =>
      let b := (t.sreg (wB w)).toNat
      let sc := (t.sreg (wC w)).toNat
      let stride := wImm w % 2 ^ 32
      let offs := (List.range 32).map fun r => (b + r * stride) % 2 ^ 64
      if (offs.any fun o => !inStore o (4 * f.width)) || (f.isMx && (List.range 32).any fun r => !inStore ((sc + r) % 2 ^ 64) 1) then
        c.except cell thread excBounds 0 b
      else
        let rows := (List.range 32).map fun r => rowBytes f (((t.tile (wA w)).drop (32 * r)).take 32)
        let c := c.setPart cell fun p => (List.range 32).foldl (fun p r =>
          let x := rows.getD r ([], none, 0)
          let p := p.put (offs.getD r 0) x.1
          match x.2.1 with
          | none => p
          | some k => p.put ((sc + r) % 2 ^ 64) [BitVec.ofNat 8 k]) p
        (c.setThread cell thread Thread.step).setFlags cell thread (orFlags (rows.map fun x => x.2.2))

end Sys2Proof.Machine
end

