-- ==== Sys2Proof/Machine/CellMem.lean ====
section
/-! DEFINITION. The memory operations of a cell thread and the ends of transfers (06_cell_operations.md R181, R182, R192; 08_memory_tiers.md R226–R231). -/

namespace Sys2Proof.Machine

/-- The cell-store offset s[A] + IMM of a load or store, modulo 2⁶⁴. -/
def Thread.memOff (t : Thread) (w : Nat) : Nat := (t.sreg (wA w) + BitVec.ofNat 64 (wImm w)).toNat

/-- LDS (R181, R152). -/
def execLds (cell thread : Fin 64) (word : Qword) (ecc : Fin 3) (line : Nat) (s : State) : Host.Outcome State Fault Refusal :=
  let w := word.toNat
  s.run fun c => c.issue cell thread w 0x30 fun _ t c =>
    c.storeRead cell thread (t.memOff w) 8 8 ecc line fun bs c =>
      c.setThread cell thread fun t => (t.setS (wD w) (BitVec.ofNat 64 (leNat bs))).step

/-- STS (R181). -/
def execSts (cell thread : Fin 64) (word : Qword) (s : State) : Host.Outcome State Fault Refusal :=
  let w := word.toNat
  s.run fun c => c.issue cell thread w 0x31 fun _ t c =>
    c.storeWrite cell thread (t.memOff w) 8 (leBytes 8 (t.sreg (wB w)).toNat)

/-- LDV (R181, R152). -/
def execLdv (cell thread : Fin 64) (word : Qword) (ecc : Fin 3) (line : Nat) (s : State) : Host.Outcome State Fault Refusal :=
  let w := word.toNat
  s.run fun c => c.issue cell thread w 0x32 fun _ t c =>
    c.storeRead cell thread (t.memOff w) 1024 64 ecc line fun bs c =>
      c.setThread cell thread fun t => (t.setV (wD w) (lanesOf bs)).step

/-- STV (R181). -/
def execStv (cell thread : Fin 64) (word : Qword) (s : State) : Host.Outcome State Fault Refusal :=
  let w := word.toNat
  s.run fun c => c.issue cell thread w 0x33 fun _ t c =>
    c.storeWrite cell thread (t.memOff w) 64 (bytesOfLanes (t.vreg (wB w)))

/-- The checks that XGET and XPUT share, and the wait for their tag (R181). A size of 0 or above 4 MiB is BOUNDS and one that is no
multiple of 64 is ALIGN (log entry 14). -/
def Chip.transferIssue (c : Chip) (cell thread w : Nat) (t : Thread) (k : Nat → Nat → Nat → Chip → Chip) : Chip :=
  let a := (t.sreg (wA w)).toNat
  let off := (t.sreg (wB w)).toNat
  let n := (t.sreg (wC w)).toNat
  if n = 0 ∨ !inStore off n then c.except cell thread excBounds 0 off
  else if off % 64 ≠ 0 ∨ n % 64 ≠ 0 then c.except cell thread excAlign 0 off
  else if a % 64 ≠ 0 then c.except cell thread excAlign 0 a
  else if !c.addrGood a n then c.except cell thread excAddr 0 a
  else if c.tagBusy cell thread (wX w) then c.setThread cell thread fun t => { t with st := .waitTagFree (wX w), word := w }
  else (k a off n c).setThread cell thread Thread.step

/-- XGET (R181): a transfer starts on its tag. -/
def execXget (cell thread : Fin 64) (word : Qword) (s : State) : Host.Outcome State Fault Refusal :=
  let w := word.toNat
  s.run fun c => c.issue cell thread w 0x34 fun _ t c =>
    c.transferIssue cell thread w t fun a off n c =>
      c.startXfer { cell := cell, thread := thread, tag := wX w, kind := .get, addr := a, off := off, len := n, since := c.elapsed }

/-- The return queue of a cell's fabric port holds 256 writes, and a write there would join them (R493): its destination is closed, or earlier writes to it wait. -/
def Chip.returnFull (c : Chip) (cell a : Nat) : Bool :=
  let q := addrPkg a
  let mine := c.net.held.filter fun e => e.bounced && tagOfCell e.pkt.tag && tagCell e.pkt.tag == cell
  c.addrGood a 64 && q != c.pkg && ((c.net.held.any fun e => e.bounced && e.pkt.dst == q) || (c.reachable true q && !c.reachable false q)) &&
    decide (256 ≤ ((mine.map fun e => e.pkt.tag % 2 ^ 17).eraseDups).length)

/-- XPUT (R181, R192): the source is read at issue, with its poison, and the pages are logged (R222). `issued` says what the read meets in the
store's ECC (R152, log entry 3). While the return queue of the cell is full the word does not issue (R493). -/
def execXput (cell thread : Fin 64) (issued : IssuedWord) (s : State) : Host.Outcome State Fault Refusal :=
  let w := issued.word.toNat
  s.run fun c => c.issue cell thread w 0x35 fun p t c =>
    if c.returnFull cell (t.sreg (wA w)).toNat then c else
    c.transferIssue cell thread w t fun a off n c =>
      let c := c.storeEcc cell issued.ecc (pickLine (unitsOf off n) issued.line)
      let p := (c.partAt cell).getD p
      (c.logTouches cell thread a n).startXfer
        { cell := cell, thread := thread, tag := wX w, kind := .put, addr := a, off := off, len := n, since := c.elapsed
          data := p.load off n, bad := (List.range (n / 64)).filter fun k => p.bad (off + 64 * k) 64 }

/-- XWAIT (R181). -/
def execXwait (cell thread : Fin 64) (word : Qword) (s : State) : Host.Outcome State Fault Refusal :=
  let w := word.toNat
  s.run fun c => c.issue cell thread w 0x36 fun _ _ c =>
    let mask := wImm w % 2 ^ 16
    let busy := c.busyMask cell thread &&& mask
    if wNw w then c.setThread cell thread fun t => (t.setS (wD w) (BitVec.ofNat 64 busy)).step
    else if busy ≠ 0 then c.setThread cell thread fun t => { t with st := .waitTags mask, word := w }
    else c.endWait cell thread mask

/-- XATOM (R182): the thread waits; TRANSFER_COMPLETE performs it, with tag 16. -/
def execXatom (cell thread : Fin 64) (word : Qword) (s : State) : Host.Outcome State Fault Refusal :=
  let w := word.toNat
  s.run fun c => c.issue cell thread w 0x37 fun _ t c =>
    let a := (t.sreg (wA w)).toNat
    if a % 8 ≠ 0 then c.except cell thread excAlign 0 a
    else if !c.addrGood a 8 then c.except cell thread excAddr 0 a
    else
      let c := c.setThread cell thread fun t => { t with st := .waitAtom, word := w }
      (c.logTouches cell thread a 8).startXfer
        { cell := cell, thread := thread, tag := 16, kind := .atom (wX w) (t.sreg (wB w)).toNat (t.sreg (wC w)).toNat
          addr := a, off := 0, len := 8, dreg := wD w, since := c.elapsed }

/-- TRANSFER_COMPLETE (R231, R226): the transfer or atomic of a tag is performed, or takes its answer, and what waits for it looks again. A narrowed
flex port holds it (R425). -/
def execTransferComplete (cell thread : Fin 64) (tag : Fin 17) (obs : Fin 4) (line : Nat) (s : State) :
    Host.Outcome State Fault Refusal :=
  s.run fun c =>
    match (c.xfersOf cell thread).find? fun x => x.tag == tag.val with
    | none => c
    | some x =>
      if x.st = .away ∨ c.portHolds x then c
      else (c.finishXfer x obs line).recheck cell thread fun c => c.partEnd cell

/-- An RWR or RCOM on another package's ring that got no answer in 1 ms fails with XFER (R267). -/
def Chip.ringOpLimit (c : Chip) (cell thread : Nat) : Chip :=
  match c.askedOp (wireTag 0 cell thread 17) with
  | none => c
  | some q =>
    match q.kind with
    | .rwr _ _ _ _ | .rcom _ _ => (c.passTo (q.since + tMs)).originError (wireTag 0 cell thread 17) 7
    | _ => c

/-- TRANSFER_CLOSED_LIMIT (R182, R267): 1 ms after the first CLOSED response an XGET or an XATOM fails; tag 17 stands for the thread's RWR or RCOM
on another package's ring. -/
def execTransferClosedLimit (cell thread : Fin 64) (tag : Fin 18) (s : State) : Host.Outcome State Fault Refusal :=
  s.run fun c =>
    if tag.val = 17 then c.ringOpLimit cell thread
    else match (c.xfersOf cell thread).find? fun x => x.tag == tag.val with
    | none => c
    | some x =>
      if x.kind = .put then c
      else match x.st, x.closedSince with
        | .away, t => ((c.passTo (t.getD x.since + tMs)).failXfer x 7).recheck cell thread fun c => c.partEnd cell
        | _, some t => ((c.passTo (t + tMs)).failXfer x 7).recheck cell thread fun c => c.partEnd cell
        | _, none => c

end Sys2Proof.Machine
end

