-- ==== Sys2Proof/Machine/CellRing.lean ====
section
/-! DEFINITION. The ring operations of a cell thread, their waits, and END (06_cell_operations.md R185–R189; 09_rings.md R237–R258). -/

namespace Sys2Proof.Machine

/-- RRES (R185–R188, R242). -/
def execRres (cell thread : Fin 64) (word : Qword) (s : State) : Host.Outcome State Fault Refusal :=
  let w := word.toNat
  s.run fun c => c.issue cell thread w 0x10 fun _ t c =>
    let v := (t.sreg (wA w)).toNat
    let r := refRing v
    let n := wImm w
    if (freeHandle t.resv).isNone then c.except cell thread excRing 0 0
    else if !refOk v then c.bareStatus cell thread (wD w) stDenied
    else if c.refAway v then c.askRing cell thread w (refPkg v) v (.rres r n (wNw w))
    else if !c.cellMay r false then c.bareStatus cell thread (wD w) stDenied
    else if (c.ring r).st = .closed then c.bareStatus cell thread (wD w) stClosed
    else if c.ringMaxWords r < n then c.bareStatus cell thread (wD w) stBadsize
    else if c.canGrant r n then c.grantTo cell thread (wD w) r n
    else if wNw w then c.bareStatus cell thread (wD w) stFull
    else
      (c.setRing r fun x => { x with waitRes := x.waitRes ++ [{ who := .cell cell thread, words := n }] }).setThread cell thread
        fun t => { t with st := .waitRes r, word := w }

/-- RRES_WAIT_GRANT (R187, R242): the first waiting request of a ring is granted, or ends with CLOSED. -/
def execRresWaitGrant (ring : BitVec 14) (s : State) : Host.Outcome State Fault Refusal :=
  let r := ring.toNat
  s.run fun c =>
    match (c.ring r).waitRes.find? c.requestRuns with
    | none => c
    | some w =>
      let shut := decide ((c.ring r).st = .closed)
      if !(shut || c.canGrant r w.words) then c
      else
        let c := c.setRing r fun x => { x with waitRes := x.waitRes.erase w }
        match w.who with
        | .cell cell thread =>
          match c.thread? cell thread with
          | none => c
          | some t =>
            if shut then c.bareStatus cell thread (wD t.word) stClosed else c.grantTo cell thread (wD t.word) r w.words
        | .remote pkg _ tag =>
          if shut then
            let (v, c) := c.draw
            c.signal (.ringResp pkg tag ((v * 256 + stClosed) % 2 ^ 64))
          else
            let (it, c) := c.grant r w.words w.who
            c.signal (.ringResp pkg tag (statusWord it.seq w.words 0 stOk).toNat)
        | _ => c

/-- RWR (R188): words X to X + Y − 1 of a reservation, read from the cell store at issue. On a voided reservation it only goes on. -/
def execRwr (cell thread : Fin 64) (issued : IssuedWord) (s : State) : Host.Outcome State Fault Refusal :=
  let w := issued.word.toNat
  s.run fun c => c.issue cell thread w 0x11 fun _ t c =>
    match t.resvOf (t.sreg (wA w)) with
    | none => c.except cell thread excRing 0 0
    | some h =>
      if h.pkg = c.pkg ∧ (c.resvOpen cell thread h).isNone = true then c.setThread cell thread Thread.step
      else if wY w = 0 ∨ h.words < wX w + wY w then c.except cell thread excRing 0 0
      else c.storeRead cell thread (t.sreg (wB w)).toNat (64 * wY w) 1 issued.ecc issued.line fun bs c =>
        if h.pkg ≠ c.pkg then
          c.askRing cell thread w h.pkg (2 ^ 31 + h.pkg * 2 ^ 16 + h.ring) (.rwr h.ring h.seq (wX w) bs)
        else
          let c := match c.resvOpen cell thread h with
            | none => c
            | some i => c.setRingWords h.ring (i.idx + wX w) bs
          c.setThread cell thread Thread.step

/-- RCOM (R243): OK, or VOID for a reservation that was voided or that breaks R243. -/
def execRcom (cell thread : Fin 64) (word : Qword) (s : State) : Host.Outcome State Fault Refusal :=
  let w := word.toNat
  s.run fun c => c.issue cell thread w 0x12 fun _ t c =>
    let v := t.sreg (wA w)
    match t.resvOf v with
    | none => c.except cell thread excRing 0 0
    | some h =>
      if h.pkg ≠ c.pkg then c.askRing cell thread w h.pkg (2 ^ 31 + h.pkg * 2 ^ 16 + h.ring) (.rcom h.ring h.seq)
      else
        let (ok, c) := match c.resvOpen cell thread h with
          | none => (false, c)
          | some i =>
            if hdrGood (c.ringWord h.ring i.idx) then (true, c.commitItem h.ring h.seq false) else (false, c.voidItem h.ring h.seq)
        c.setThread cell thread fun t =>
          ({ t with resv := t.resv.set (handleOf v) none }.setS (wD w)
            (statusWord h.seq h.words (handleOf v) (if ok then stOk else stVoid))).step

/-- RTAKE (R185–R188, R246). -/
def execRtake (cell thread : Fin 64) (word : Qword) (s : State) : Host.Outcome State Fault Refusal :=
  let w := word.toNat
  s.run fun c => c.issue cell thread w 0x13 fun _ t c =>
    let v := (t.sreg (wA w)).toNat
    let r := refRing v
    if (freeHandle t.takes).isNone then c.except cell thread excRing 0 0
    else if !refOk v || refRemote v || !c.cellMay r true then c.bareStatus cell thread (wD w) stDenied
    else if (c.ring r).st = .closed then c.bareStatus cell thread (wD w) stClosed
    else
      let c := c.clearHead r
      match c.deliverTake cell thread w r with
      | some c => c
      | none =>
        if wNw w then c.bareStatus cell thread (wD w) stEmpty
        else
          (c.setRing r fun x => { x with waitTake := x.waitTake ++ [{ cell := cell, thread := thread }] }).setThread cell thread
            fun t => { t with st := .waitTake r, word := w }

/-- RTAKE_WAIT_DELIVER (R187, R246): the first waiting thread of a ring receives the next item, or CLOSED. -/
def execRtakeWaitDeliver (ring : BitVec 14) (s : State) : Host.Outcome State Fault Refusal :=
  let r := ring.toNat
  s.run fun c =>
    match (c.ring r).waitTake.find? fun w => c.waiterRuns w.cell with
    | none => c
    | some q =>
      match c.thread? q.cell q.thread with
      | none => c
      | some t =>
        let gone := fun (c : Chip) => c.setRing r fun x => { x with waitTake := x.waitTake.erase q }
        if (c.ring r).st = .closed then (gone c).bareStatus q.cell q.thread (wD t.word) stClosed
        else
          let c := c.clearHead r
          match c.deliverTake q.cell q.thread t.word r with
          | some c => gone c
          | none => c

/-- RMILE (R189, R247); a cancelled item's milepost stays (log entry 17). -/
def execRmile (cell thread : Fin 64) (word : Qword) (s : State) : Host.Outcome State Fault Refusal :=
  let w := word.toNat
  s.run fun c => c.issue cell thread w 0x14 fun _ t c =>
    let v := t.sreg (wA w)
    match t.takeOf v with
    | none => c.except cell thread excRing 0 0
    | some h =>
      let gone := c.itemCancelled h
      let c := if gone then c else c.setMile h.ring h.seq ((t.sreg (wB w)).toNat % 65536)
      c.setThread cell thread fun t =>
        (t.setS (wD w) (statusWord h.seq h.words (handleOf v) (if gone then stCancelled else stOk))).step

/-- RDONE (R189, R246, R258). -/
def execRdone (cell thread : Fin 64) (word : Qword) (s : State) : Host.Outcome State Fault Refusal :=
  let w := word.toNat
  s.run fun c => c.issue cell thread w 0x15 fun _ t c =>
    let v := t.sreg (wA w)
    match t.takeOf v with
    | none => c.except cell thread excRing 0 0
    | some h =>
      let gone := c.itemCancelled h
      let c := c.completeItem h.ring h.seq (if gone then 0x02 else 0x00) 0
      let c := c.setPart cell fun p => p.freeTouches h.ring h.seq
      c.setThread cell thread fun t =>
        ({ t with takes := t.takes.set (handleOf v) none }.setS (wD w)
          (statusWord h.seq h.words (handleOf v) (if gone then stCancelled else stOk))).step

/-- END (R172, R189, R192): after the thread's transfers, and with the part's end when it is the last thread (R274). -/
def execCellEnd (cell thread : Fin 64) (word : Qword) (s : State) : Host.Outcome State Fault Refusal :=
  let w := word.toNat
  s.run fun c => c.issue cell thread w 0x01 fun _ _ c =>
    if (c.xfersOf cell thread).isEmpty then c.endThread cell thread fun c => c.partEnd cell
    else c.setThread cell thread fun t => { t with st := .waitEnd, word := w }

end Sys2Proof.Machine
end

