-- ==== Sys2Proof/Machine/CellScalar.lean ====
section
/-! DEFINITION. The scalar and control operations of a cell thread (06_cell_operations.md R172–R175, R183, R184). -/

namespace Sys2Proof.Machine

/-- NOP (R172). -/
def execNop (cell thread : Fin 64) (word : Qword) (s : State) : Host.Outcome State Fault Refusal :=
  s.run fun c => c.issueT cell thread word.toNat 0x00 fun _ t => t

/-- SLI: s[D] takes IMM (R172). -/
def execSli (cell thread : Fin 64) (word : Qword) (s : State) : Host.Outcome State Fault Refusal :=
  let w := word.toNat
  s.run fun c => c.issueT cell thread w 0x02 fun _ t => t.setS (wD w) (BitVec.ofNat 64 (wImm w))

/-- SALU (R173). -/
def execSalu (cell thread : Fin 64) (word : Qword) (s : State) : Host.Outcome State Fault Refusal :=
  let w := word.toNat
  s.run fun c => c.issueT cell thread w 0x03 fun _ t => t.setS (wD w) (salu (wX w) (t.sreg (wA w)) (t.opB w))

/-- SCMP (R173). -/
def execScmp (cell thread : Fin 64) (word : Qword) (s : State) : Host.Outcome State Fault Refusal :=
  let w := word.toNat
  s.run fun c => c.issueT cell thread w 0x04 fun _ t =>
    t.setS (wD w) (if scmp (wX w) (t.sreg (wA w)) (t.opB w) then 1 else 0)

/-- BR (R172, R173). -/
def execBr (cell thread : Fin 64) (word : Qword) (s : State) : Host.Outcome State Fault Refusal :=
  let w := word.toNat
  s.run fun c => c.issue cell thread w 0x05 fun _ t c =>
    c.setThread cell thread fun _ => if brTaken (wX w) (t.sreg (wA w)) then t.jump w else t.step

/-! ### Loop walkers (R175, R201–R205) -/

/-- The length-table reader of a part: none for an entry outside the store or a poisoned one (R202, R204). -/
def PartState.lengthAt (p : PartState) (off : Nat) : Option Nat :=
  if !inStore off 4 || p.bad off 4 then none else some (leNat (p.load off 4))

/-- What a walk that cannot read the entry at an offset raises: BOUNDS, else POISON. -/
def walkFault (off : Nat) : Nat := if !inStore off 4 then excBounds else excStorePoison

/-- A cell-store line holds entries of a length table that the walker reads (R202). -/
def Walker.tableLine (k : Walker) (line : Nat) : Bool :=
  (List.range k.desc.roles.length).any fun n =>
    match k.desc.roles[n]? with
    | some r => r.kind == 2 && (match foldOf k r.level with
        | some f =>
          let base := (k.bases.getD n 0).toNat
          let last := ((k.desc.levels.getD r.level ⟨0, false, false, false, 1, 1⟩).bound - 1) / f.inner
          decide (base / 64 ≤ line) && decide (line ≤ (base + 4 * last) / 64)
        | none => false)
    | none => false

/-- What a walker's reads of its length tables meet in the cell store's ECC, in one of their lines (R152). -/
def Chip.walkEcc (c : Chip) (cell : Nat) (k : Walker) (ecc line : Nat) : Chip := if k.tableLine line then c.storeEcc cell ecc line else c

/-- The length-table reader of a cell. -/
def Chip.lengthAt (c : Chip) (cell off : Nat) : Option Nat := (c.partAt cell).bind fun p => p.lengthAt off

def Thread.walker (t : Thread) (k : Nat) : Option Walker := if k = 0 then t.walk0 else t.walk1
def Thread.setWalker (t : Thread) (k : Nat) (w : Walker) : Thread :=
  if k = 0 then { t with walk0 := some w } else { t with walk1 := some w }

/-- CELL_WALK and CELL_WALKSKIP (R210). -/
def Chip.countWalk (c : Chip) (cell yielded skipped : Nat) : Chip :=
  let c := c.setReg (cellReg rCELL_WALK cell) (c.reg (cellReg rCELL_WALK cell) + yielded)
  c.setReg (cellReg rCELL_WALKSKIP cell) (c.reg (cellReg rCELL_WALKSKIP cell) + skipped)

/-- LBEGIN (R175, R201, R204, R205). `issued` says what its length-table reads meet in the store's ECC (R152, log entry 3). -/
def execLbegin (cell thread : Fin 64) (issued : IssuedWord) (s : State) : Host.Outcome State Fault Refusal :=
  let w := issued.word.toNat
  s.run fun c => c.issue cell thread w 0x06 fun p t c =>
    match c.im.loops.find? (fun l => l.id == wImm w) with
    | none => c.except cell thread excIllegal 0 0
    | some l =>
      let n := l.desc.roles.length
      if 31 < wD w + n - 1 then c.except cell thread excLoop 0 0
      else
        let k : Walker :=
          { loopId := BitVec.ofNat 32 l.id, dreg := wD w, desc := l.desc
            bases := l.desc.roles.map fun r => t.sreg r.baseReg
            splitP := p.part.p, splitQ := p.part.q, pos := 0, finished := false }
        let c := c.walkEcc cell k issued.ecc issued.line
        match walkSearch k (c.lengthAt cell) 0 with
        | .unreadable off => c.except cell thread (walkFault off) 0 off
        | .found pos vals sk =>
          (c.setThread cell thread fun t => ((t.setSs (wD w) vals).setWalker (wX w) { k with pos := pos }).step).countWalk cell 1 sk
        | .done sk =>
          (c.setThread cell thread fun t =>
            ((t.setSs (wD w) (List.replicate n (BitVec.allOnes 64))).setWalker (wX w) { k with finished := true }).step).countWalk cell 0 sk

/-- LNEXT (R175, R203, R205), with what its length-table reads meet in the store's ECC (R152). -/
def execLnext (cell thread : Fin 64) (issued : IssuedWord) (s : State) : Host.Outcome State Fault Refusal :=
  let w := issued.word.toNat
  s.run fun c => c.issue cell thread w 0x07 fun _ t c =>
    match t.walker (wX w) with
    | none => c.except cell thread excLoop 0 0
    | some k =>
      if k.finished then c.setThread cell thread Thread.step
      else
        let c := c.walkEcc cell k issued.ecc issued.line
        match walkSearch k (c.lengthAt cell) (k.pos + 1) with
        | .unreadable off => c.except cell thread (walkFault off) 0 off
        | .found pos vals sk =>
          (c.setThread cell thread fun t => ((t.setSs k.dreg vals).setWalker (wX w) { k with pos := pos }).jump w).countWalk cell 1 sk
        | .done sk =>
          (c.setThread cell thread fun t => (t.setWalker (wX w) { k with finished := true }).step).countWalk cell 0 sk

/-! ### Flags, fences and barriers -/

/-- FLGRD (R174). -/
def execFlgrd (cell thread : Fin 64) (word : Qword) (s : State) : Host.Outcome State Fault Refusal :=
  let w := word.toNat
  s.run fun c => c.issueT cell thread w 0x08 fun _ t =>
    { t.setS (wD w) (BitVec.ofNat 64 t.flags.toNat) with flags := t.flags &&& ~~~(BitVec.ofNat 4 (wX w)) }

/-- FLGTRAP (R174). -/
def execFlgtrap (cell thread : Fin 64) (word : Qword) (s : State) : Host.Outcome State Fault Refusal :=
  let w := word.toNat
  s.run fun c => c.issue cell thread w 0x09 fun _ t c =>
    if t.flags &&& BitVec.ofNat 4 (wX w) ≠ 0 then c.except cell thread excFptrap 0 0 else c.setThread cell thread Thread.step

/-- FENCE (R183). At cell scope every earlier store is performed already; a wider one waits for the thread's transfers. -/
def execFence (cell thread : Fin 64) (word : Qword) (s : State) : Host.Outcome State Fault Refusal :=
  let w := word.toNat
  s.run fun c => c.issue cell thread w 0x0A fun _ _ c =>
    if wX w = 0 ∨ (c.xfersOf cell thread).isEmpty then c.setThread cell thread Thread.step
    else c.setThread cell thread fun t => { t with st := .waitFence, word := w }

/-- BAR (R184; log entry 13); IMM = 0 takes BARRIER as a larger one does (log entry 89). -/
def execBar (cell thread : Fin 64) (word : Qword) (s : State) : Host.Outcome State Fault Refusal :=
  let w := word.toNat
  s.run fun c => c.issue cell thread w 0x0B fun p _ c =>
    let k := wX w % 4
    if wImm w = 0 ∨ p.part.threads < wImm w then c.except cell thread excBarrier 0 0
    else
      let b := p.bars.getD k {}
      let need := if b.waiting.isEmpty then wImm w else b.need
      let waiting := b.waiting ++ [thread.val]
      if need ≤ waiting.length then
        waiting.foldl (fun c t => c.setThread cell t Thread.step) (c.setPart cell fun p => { p with bars := p.bars.set k {} })
      else
        let c := c.setPart cell fun p => { p with bars := p.bars.set k { waiting := waiting, need := need } }
        (c.setThread cell thread fun t => { t with st := .waitBar k, word := w }).barCheck cell 8

/-- TNOW (R191): the replica, the turn number, the boundary's tick and TT_TURN. -/
def execTnow (cell thread : Fin 64) (word : Qword) (s : State) : Host.Outcome State Fault Refusal :=
  let w := word.toNat
  s.run fun c => c.issueT cell thread w 0x23 fun _ t =>
    t.setS (wD w) (BitVec.ofNat 64 (match wX w with
      | 0 => c.now
      | 1 => c.tt.turnNum
      | 2 => c.tt.boundary
      | _ => c.turnPeriod))

/-- DWAIT (R191): until the replica reaches s[A], or the next turn boundary; at once when the time has passed. -/
def execDwait (cell thread : Fin 64) (word : Qword) (s : State) : Host.Outcome State Fault Refusal :=
  let w := word.toNat
  s.run fun c => c.issue cell thread w 0x22 fun _ t c =>
    if wX w = 0 then
      let tick := (t.sreg (wA w)).toNat
      if tick ≤ c.now then c.setThread cell thread Thread.step
      else c.setThread cell thread fun t => { t with st := .waitTick tick, word := w }
    else c.setThread cell thread fun t => { t with st := .waitBoundary c.tt.turnNum, word := w }

/-- DWAIT_WAKE (R191, R128): a tick wait is woken at its tick, a boundary wait once the turn number has moved on. -/
def execDwaitWake (cell thread : Fin 64) (s : State) : Host.Outcome State Fault Refusal :=
  s.run fun c =>
    match c.thread? cell thread with
    | none => c
    | some t =>
      if (c.cell cell).st ≠ .run ∨ !c.islOpen (cellIsland cell) then c
      else match t.st with
        | .waitTick tick => (c.reachTick tick).setThread cell thread Thread.step
        | .waitBoundary turn => if c.tt.turnNum = turn then c else c.setThread cell thread Thread.step
        | _ => c

end Sys2Proof.Machine
end

