-- ==== Sys2Proof/Machine/CellVector.lean ====
section
/-! DEFINITION. The vector and special-function operations of a cell thread (05_cells.md R153–R159; 06_cell_operations.md R591, R179, R180). -/

namespace Sys2Proof.Machine

/-- A vector operation: lane results with flags into v[D]. -/
def Chip.lanes (c : Chip) (cell thread w op : Nat) (f : Thread → List FpRes) : Chip :=
  c.issue cell thread w op fun _ t c =>
    let r := f t
    (c.setThread cell thread fun t => (t.setV (wD w) (r.map (·.bits))).step).setFlags cell thread (orFlags (r.map (·.flags)))

/-- A vector operation that sets no flag. -/
def Chip.lanesQuiet (c : Chip) (cell thread w op : Nat) (f : Thread → List Word) : Chip :=
  c.issueT cell thread w op fun _ t => t.setV (wD w) (f t)

/-- VADD; a subtraction with X[0] = 1 (R155). -/
def execVadd (cell thread : Fin 64) (word : Qword) (s : State) : Host.Outcome State Fault Refusal :=
  let w := word.toNat
  s.run fun c => c.lanes cell thread w 0x50 fun t =>
    List.zipWith (fun a b => fpAdd a (if wX w = 1 then fpNeg b else b)) (t.vreg (wA w)) (t.vreg (wB w))

/-- VMUL (R155). -/
def execVmul (cell thread : Fin 64) (word : Qword) (s : State) : Host.Outcome State Fault Refusal :=
  let w := word.toNat
  s.run fun c => c.lanes cell thread w 0x51 fun t => List.zipWith fpMul (t.vreg (wA w)) (t.vreg (wB w))

/-- VFMA, rounded once (R155). -/
def execVfma (cell thread : Fin 64) (word : Qword) (s : State) : Host.Outcome State Fault Refusal :=
  let w := word.toNat
  s.run fun c => c.lanes cell thread w 0x52 fun t =>
    List.zipWith (fun (ab : Word × Word) x => fpFma ab.1 ab.2 x) (List.zip (t.vreg (wA w)) (t.vreg (wB w))) (t.vreg (wC w))

/-- VMIN (R155). -/
def execVmin (cell thread : Fin 64) (word : Qword) (s : State) : Host.Outcome State Fault Refusal :=
  let w := word.toNat
  s.run fun c => c.lanesQuiet cell thread w 0x53 fun t => List.zipWith fpMin (t.vreg (wA w)) (t.vreg (wB w))

/-- VMAX (R155). -/
def execVmax (cell thread : Fin 64) (word : Qword) (s : State) : Host.Outcome State Fault Refusal :=
  let w := word.toNat
  s.run fun c => c.lanesQuiet cell thread w 0x54 fun t => List.zipWith fpMax (t.vreg (wA w)) (t.vreg (wB w))

/-- VCMP (R591). -/
def execVcmp (cell thread : Fin 64) (word : Qword) (s : State) : Host.Outcome State Fault Refusal :=
  let w := word.toNat
  let cond := wX w % 8
  s.run fun c => c.lanesQuiet cell thread w 0x55 fun t =>
    List.zipWith (fun a b => if (if (wX w).testBit 3 then uintCmp cond a b else fpCmp cond a b) then 0xFFFFFFFF else 0)
      (t.vreg (wA w)) (t.vreg (wB w))

/-- VSEL (R172). -/
def execVsel (cell thread : Fin 64) (word : Qword) (s : State) : Host.Outcome State Fault Refusal :=
  let w := word.toNat
  s.run fun c => c.lanesQuiet cell thread w 0x56 fun t =>
    List.zipWith (fun (ab : Word × Word) x => if x ≠ 0 then ab.1 else ab.2) (List.zip (t.vreg (wA w)) (t.vreg (wB w))) (t.vreg (wC w))

/-- VBCAST: bits [31:0] of B (R172). -/
def execVbcast (cell thread : Fin 64) (word : Qword) (s : State) : Host.Outcome State Fault Refusal :=
  let w := word.toNat
  s.run fun c => c.lanesQuiet cell thread w 0x57 fun t => List.replicate 256 ((t.opB w).setWidth 32)

/-- One level of the fixed pairwise tree (05_cells.md, under R157). -/
def sumPairs : List Word → List Word × FpFlags
  | a :: b :: rest =>
    let r := fpAdd a b
    let q := sumPairs rest
    (r.bits :: q.1, r.flags ||| q.2)
  | l => (l, 0)

/-- The tree's levels. -/
def sumTree : Nat → List Word → List Word × FpFlags
  | 0, l => (l, 0)
  | n + 1, l =>
    let r := sumPairs l
    let q := sumTree n r.1
    (q.1, r.2 ||| q.2)

/-- VRED (R591): sum by the tree, max, or min. -/
def execVred (cell thread : Fin 64) (word : Qword) (s : State) : Host.Outcome State Fault Refusal :=
  let w := word.toNat
  s.run fun c => c.issue cell thread w 0x58 fun _ t c =>
    let v := t.vreg (wA w)
    let first := v.getD 0 0
    let r : Word × FpFlags := match wX w with
      | 0 => let q := sumTree 8 v; (q.1.getD 0 0, q.2)
      | 1 => ((v.drop 1).foldl fpMax first, 0)
      | _ => ((v.drop 1).foldl fpMin first, 0)
    (c.setThread cell thread fun t => (t.setS (wD w) (r.1.setWidth 64)).step).setFlags cell thread r.2

/-! ### Packing and unpacking (R179) -/

/-- A register's 1,024 bytes from packed elements and the scale bytes of its 8 blocks. -/
def packedReg (f : ElemFmt) (elems scales : List Nat) : List Word :=
  let body := packElems f elems
  let bytes := body ++ List.replicate (1016 - body.length) 0 ++
    (if f.isMx then scales.map (BitVec.ofNat 8) else List.replicate 8 0)
  lanesOf bytes

/-- Pack 256 lanes; `mode` gives each lane its rounding (R153, R154, R179). -/
def packLanes (f : ElemFmt) (mode : Nat → Rounding) (v : List Word) : List Word × FpFlags :=
  if f.isMx then
    let bs := (List.range 8).map fun b => convMx f (fun i => mode (32 * b + i)) ((v.drop (32 * b)).take 32)
    (packedReg f (bs.flatMap (·.elems)) (bs.map (·.scale)), orFlags (bs.map (·.flags)))
  else
    let rs := (List.range 256).map fun i => convPlain f (mode i) (v.getD i 0)
    (packedReg f (rs.map (·.bits)) [], orFlags (rs.map (·.flags)))

/-- Unpack 256 lanes (R179). -/
def unpackLanes (f : ElemFmt) (v : List Word) : List FpRes :=
  let bytes := bytesOfLanes v
  (List.range 256).map fun i => unpackElem f (leNat ((bytes.drop (1016 + i / 32)).take 1)) (elemAt f bytes i)

/-- VCVT (R179). -/
def execVcvt (cell thread : Fin 64) (word : Qword) (s : State) : Host.Outcome State Fault Refusal :=
  let w := word.toNat
  s.run fun c => c.issue cell thread w 0x59 fun _ t c =>
    match fmtOfCode (wX w) with
    | none => c.except cell thread excIllegal 0 0
    | some f =>
      let r : List Word × FpFlags :=
        if wY w = 0 then packLanes f (fun _ => .nearest) (t.vreg (wA w))
        else let u := unpackLanes f (t.vreg (wA w)); (u.map (·.bits), orFlags (u.map (·.flags)))
      (c.setThread cell thread fun t => (t.setV (wD w) r.1).step).setFlags cell thread r.2

/-- SFN (R156, R591, R592). -/
def execSfn (cell thread : Fin 64) (word : Qword) (s : State) : Host.Outcome State Fault Refusal :=
  let w := word.toNat
  s.run fun c => c.lanes cell thread w 0x60 fun t => (t.vreg (wA w)).map (sfnLane (wX w))

/-- ROPH (R157). -/
def execRoph (cell thread : Fin 64) (word : Qword) (s : State) : Host.Outcome State Fault Refusal :=
  let w := word.toNat
  s.run fun c => c.lanes cell thread w 0x61 fun t => (t.vreg (wB w)).map (rophLane ((t.sreg (wA w)).setWidth 32))

/-- The counter block at s[C] (R180). -/
def Thread.diceBlock (t : Thread) (n : Nat) : DiceBlock :=
  let lo := fun k => (t.sreg (n + k)).setWidth 32
  let hi := fun k => (t.sreg (n + k) >>> 32).setWidth 32
  { k0 := lo 0, k1 := hi 0, c0 := lo 1, c1 := hi 1, c2 := lo 2, c3 := hi 2 }

/-- DICE (R158, R159, R180). -/
def execDice (cell thread : Fin 64) (word : Qword) (s : State) : Host.Outcome State Fault Refusal :=
  let w := word.toNat
  s.run fun c => c.lanesQuiet cell thread w 0x62 fun t =>
    (List.range 256).map fun l =>
      let r := diceWord (t.diceBlock (wC w)) l
      if wX w = 1 then diceUniform r else r

/-- VCVTS (R154, R179, R180): purpose 0x0001 replaces c2[31:16]. -/
def execVcvts (cell thread : Fin 64) (word : Qword) (s : State) : Host.Outcome State Fault Refusal :=
  let w := word.toNat
  s.run fun c => c.issue cell thread w 0x63 fun _ t c =>
    match fmtOfCode (wX w) with
    | none => c.except cell thread excIllegal 0 0
    | some f =>
      let d := t.diceBlock (wC w)
      let d := { d with c2 := (d.c2 &&& 0xFFFF) ||| 0x10000 }
      let r := packLanes f (fun e => .dice (diceWord d e)) (t.vreg (wA w))
      (c.setThread cell thread fun t => (t.setV (wD w) r.1).step).setFlags cell thread r.2

end Sys2Proof.Machine
end

