-- ==== Sys2Proof/Machine/Collectives.lean ====
section
/-! DEFINITION. Collective commands, the turntable's stream, and two-phase arming over tree 0 (14_collectives.md R374–R385; 04 R129). -/

namespace Sys2Proof.Machine

/-- COLLECTIVE_LAUNCH (R380, R381): its departure fires with the descriptor read when it was armed (R368). -/
def execCollectiveLaunch (s : State) : Host.Outcome State Fault Refusal :=
  s.run fun c => c.fireDep (fun d => d.action == 0x0040) fun d _ c => c.launchEdge d

/-- COLLECTIVE_TIMEOUT (R383): a neighbour stayed silent past the express or the bulk timeout; packets held for a launch that did not come are let go (R381). -/
def execCollectiveTimeout (tree : Fin 64) (inst : Nat) (s : State) : Host.Outcome State Fault Refusal :=
  s.run fun c =>
    match c.colInst? tree.val inst with
    | none => c
    | some i =>
      if i.finished then c
      else
        let c := c.passTo (i.since + (if i.bulk then c.bulkTimeout else c.expTimeout))
        if i.desc.isSome then c.colFail tree.val inst 2 c.pkg none else c.dropInst tree.val inst

/-- Take the next express packet of a stream when its OP is one of those a command stands for. -/
def Chip.onPip (c : Chip) (l h : Nat) (isIt : Nat → Bool) (eff : Packet → Chip → Chip) : Chip :=
  match takePacket tPIP (c.half l h).recv with
  | none => c
  | some (p, _) => if isIt (fieldAt p.data 1 1) then c.onPacket l h tPIP eff else c

/-- What an express packet says of its instance. -/
def pipFacts (d : List Byte) : ColInst :=
  { tree := fieldAt d 0 1, inst := fieldAt d 4 4, op := fieldAt d 1 1, dtype := fieldAt d 2 1, bytes := fieldAt d 8 2
    yard := (fieldAt d 3 1).testBit 3, tick := fieldAt d 16 8 }

/-- EXPRESS_PIP_RECEIVE (R374, R375): an express packet that carries no two-phase arming. -/
def execExpressPipReceive (link : Fin 24) (half : Fin 2) (s : State) : Host.Outcome State Fault Refusal :=
  s.run fun c => c.onPip link.val half.val (fun op => !(op == pipArm || op == pipAck || op == pipCancel)) fun p c =>
    let d := p.data
    let flags := fieldAt d 3 1
    let fail := if flags.testBit 2 then some (fieldAt d 11 1, fieldAt d 12 2) else none
    c.colArrive (pipFacts d) p.src (flags.testBit 0) fail (if flags.testBit 1 then 224 else 0) (d.drop 32)

/-- A unit of a turntable stream (R319, R320, R385): on to every child, and into the target bank of a READY member; FAIL is the source's abort. -/
def Chip.turntableUnit (c : Chip) (p : Packet) : Chip :=
  let d := p.data
  let c := c.toChildren (fieldAt d 0 1) none 1 p
  let n := fieldAt d 20 1
  let version := fieldAt d 4 4
  if (fieldAt d 3 1).testBit 2 then c.sourceStopped n version
  else c.takeUnit n version (fieldAt d 8 8) (d.drop 32)

/-- What a bulk packet says of its instance. -/
def streamFacts (d : List Byte) : ColInst :=
  { tree := fieldAt d 0 1, inst := fieldAt d 4 4, op := fieldAt d 1 1, dtype := fieldAt d 2 1, yard := (fieldAt d 3 1).testBit 3, bulk := true }

/-- STREAM_RECEIVE (R319, R378, R379). -/
def execStreamReceive (link : Fin 24) (half : Fin 2) (s : State) : Host.Outcome State Fault Refusal :=
  s.run fun c => c.onPacket link.val half.val tSTREAM fun p c =>
    let d := p.data
    if fieldAt d 1 1 = opTurntable then c.turntableUnit p
    else
      let flags := fieldAt d 3 1
      let fail := if flags.testBit 2 then some (fieldAt d 17 1, fieldAt d 18 2) else none
      c.colArrive (streamFacts d) p.src (flags.testBit 0) fail (fieldAt d 8 8) (d.drop 32)

/-! ### Two-phase arming (R129, R385) -/

/-- PIP_ARM: the record is held for arming when it first comes, and goes on. -/
def execPipArm (link : Fin 24) (half : Fin 2) (s : State) : Host.Outcome State Fault Refusal :=
  s.run fun c => c.onPip link.val half.val (· == pipArm) fun p c =>
    let a := parseArm p.data
    let c := c.holdRecord a
    if (fieldAt p.data 3 1).testBit 0 then
      let c := c.setArm a.pkg a.dep fun a => { a with downSeen := true }
      (c.toChildren 0 a.span 0 (c.armPacket a pipArm true a.armBytes)).ackUp a.pkg a.dep
    else c.armOn a

/-- The record that an ARM_ACK or an ARM_CANCEL names. -/
def ackRecord (d : List Byte) : ArmRec := { parseArm d with pkg := fieldAt d 36 2, dep := fieldAt d 32 4 }

/-- PIP_ARM_ACK: a child's count on the way up, or the root's totals on the way down. -/
def execPipArmAck (link : Fin 24) (half : Fin 2) (s : State) : Host.Outcome State Fault Refusal :=
  s.run fun c => c.onPip link.val half.val (· == pipAck) fun p c =>
    let d := p.data
    let a := ackRecord d
    let armed := fieldAt d 38 2
    let refused := fieldAt d 40 2
    if (fieldAt d 3 1).testBit 0 then
      let c := c.toChildren 0 a.span 0 (c.armPacket a pipAck true (a.ackBytes armed refused (fieldAt d 42 1)))
      match c.armRec? a.pkg a.dep with
      | some r => c.armTotals r armed refused
      | none => c
    else
      (c.setArm a.pkg a.dep fun r =>
        if r.acks.any fun x => x.1 == p.src then r else { r with acks := r.acks ++ [(p.src, armed, refused, fieldAt d 42 1)] }).ackUp a.pkg a.dep

/-- PIP_ARM_CANCEL: a package that holds the record cancels it, and passes the message on as ARM goes. -/
def execPipArmCancel (link : Fin 24) (half : Fin 2) (s : State) : Host.Outcome State Fault Refusal :=
  s.run fun c => c.onPip link.val half.val (· == pipCancel) fun p c =>
    let a := ackRecord p.data
    let c := match c.armRec? a.pkg a.dep with
      | some r =>
        let c := c.dropArm a.pkg a.dep
        match r.localDep with | some id => c.unarm id depCancelled id | none => c
      | none => c
    if (fieldAt p.data 3 1).testBit 0 then c.toChildren 0 a.span 0 (c.armPacket a pipCancel true (a.ackBytes 0 0 0))
    else c.sendCancel a

/-- TWO_PHASE_ARM_TIMEOUT (R129): 10 µs after this package's oldest open request it returns PARTITION_ABORT and is cancelled everywhere. -/
def execTwoPhaseArmTimeout (s : State) : Host.Outcome State Fault Refusal :=
  s.run fun c =>
    match c.arms.find? fun a => a.asker.isSome with
    | none => c
    | some a => (c.passTo (a.askedAt + 10 * tUs)).cancelArm a

end Sys2Proof.Machine
end

