-- ==== Sys2Proof/Machine/MemoryCmds.lean ====
section
/-! DEFINITION. The events of memory: epochs, moves, a failed stack and the explicit clear (08_memory_tiers.md R218–R227). -/

namespace Sys2Proof.Machine

/-- MIGRATION_EPOCH (R218, R219), at the end of the epoch that runs. -/
def execMigrationEpoch (s : State) : Host.Outcome State Fault Refusal :=
  s.act fun o c =>
    if !c.islOpen 10 then c
    else
      let c := c.passTo (c.mem.epochAt + c.epochTicks)
      { c with mem := c.epoch o.assy }

/-- WAGON_MOVE_SWITCH (R220): the oldest move ends; `stalled` misses waited at its switch. -/
def execWagonMoveSwitch (stalled : Nat) (s : State) : Host.Outcome State Fault Refusal :=
  s.run fun c =>
    match c.mem.moves with
    | [] => c
    | v :: _ =>
      if !c.islOpen 10 then c
      else
        let incl := ((c.objAt (v.wagon * wagonBytes)).map (·.inclusive)).getD false
        let m := c.mem.finishMove v incl
        { c with mem := { m with migStall := satAdd 32 m.migStall stalled } }

/-- HBM_STACK_FAIL (R227): from now on frames in HBM read as poison, and an S4 fault is raised. -/
def execHbmStackFail (stack : Fin 8) (s : State) : Host.Outcome State Fault Refusal :=
  s.run fun c =>
    if !(c.reg rMEM_STAT).testBit (16 + stack) then c
    else
      ({ c with mem := { c.mem with stackFailed := true } }).raise
        { sev := 4, source := 0x09, cause := 0x11, scope := .package, unitId := 11, arg := stack }

/-- The pages a write to MEM_UCLR names (R224): none when the address is not an object page of this package. -/
def Chip.uclr (c : Chip) (addr : Nat) : Chip :=
  if addrSpace addr ≠ 0 ∨ addrPkg addr ≠ c.pkg ∨ (c.objAt (addrOff addr)).isNone then c
  else { c with mem := c.mem.clearPage (addrOff addr / 4096) }

/-- MEM_UCLR_HI_WRITE (R224, R234): Ohmax writes the high half, and the page is cleared. -/
def execMemUclrHiWrite (value : Word) (s : State) : Host.Outcome State Fault Refusal :=
  s.run fun c => if c.islOpen 10 then c.uclr (c.reg rMEM_UCLR_LO + value.toNat * 2 ^ 32) else c

end Sys2Proof.Machine
end

