-- ==== Sys2Proof/Machine/Dispatcher.lean ====
section
/-! DEFINITION. The dispatcher's events: selection, starts, light switches and weight streams (10_dispatch_and_switching.md R270–R284). -/

namespace Sys2Proof.Machine

/-- A candidate of R270: the sort key after the priority, its task and part, and whether it is a saved part. -/
structure Cand where
  key : Nat × Nat × Nat
  task : Task
  p : Nat
  resumed : Bool
  deriving DecidableEq, Repr

/-- Every candidate: saved parts in save order, posted tasks, tasks being placed and the items at TAKE, rings in turn. -/
def Chip.candidates (c : Chip) : List Cand :=
  let turn := fun (r : Nat) => (r + 0x3FFF - c.disp.lastRing) % 0x4000
  let saved := ((List.range c.disp.saved.length).filterMap fun k =>
    match c.disp.saved[k]? with
    | none => none
    | some ps =>
      if ps.resume.isSome then none
      else (c.disp.task? ps.part.ring ps.part.seq).map fun t => (⟨(0, k, 0), t, ps.part.p, true⟩ : Cand))
  let held := (c.disp.tasks.filter fun t => decide (t.next < t.q) && !t.claiming).map fun t =>
    (⟨(1, turn t.ring, if t.posted then t.seq - 2 ^ 32 else 2 ^ 32), t, t.next, false⟩ : Cand)
  let heads := (c.dispRings.filterMap c.headTask).map fun t => (⟨(1, turn t.ring, 2 ^ 32), t, 0, false⟩ : Cand)
  saved ++ held ++ heads

/-- The order of R270. -/
def candBefore (a b : Cand) : Bool :=
  decide (b.task.prio < a.task.prio) || (a.task.prio == b.task.prio &&
    (decide (a.key.1 < b.key.1) || (a.key.1 == b.key.1 &&
      (decide (a.key.2.1 < b.key.2.1) || (a.key.2.1 == b.key.2.1 && decide (a.key.2.2 < b.key.2.2))))))

/-- A candidate's item can be promised its completion (R257). -/
def Chip.canTakeTask (c : Chip) (k : Cand) : Bool :=
  k.resumed || k.task.taken || k.task.posted || (c.takeItem k.task.ring .dispatcher).isSome

/-- The candidate that is placed next, with its place. -/
def Chip.bestCand (c : Chip) : Option (Cand × Place) :=
  c.candidates.foldl (fun a k =>
    if !c.wsetReady k.task || !c.canTakeTask k then a
    else
      match c.placeOf k.task k.p with
      | none => a
      | some pl =>
        match a with
        | none => some (k, pl)
        | some (b, _) => if candBefore k b then some (k, pl) else a) none

/-- The item of a new task leaves TAKE with its first part. -/
def Chip.takeTask (c : Chip) (t : Task) : Chip :=
  if t.taken ∨ t.posted then c
  else match c.takeItem t.ring .dispatcher with
    | none => c
    | some (i, c) => c.setDisp fun d => { d with tasks := d.tasks ++ [{ t with seq := i.seq, taken := true, mile := i.mile }] }

/-- Place a candidate's part (R271, R276, R278). -/
def Chip.placeCand (c : Chip) (k : Cand) (pl : Place) : Chip :=
  let t := k.task
  let key := (t.ring, t.seq, k.p)
  let c := c.useSet t
  if k.resumed then
    match pl with
    | .idle n =>
      (c.setDisp fun d => d.setSaved key fun ps => { ps with resume := some n }).setCell n fun x => { x with
        st := .switch
        switch := some { phase := 2, since := c.elapsed, began := c.elapsed, incoming := some key, resumed := true, light := false
                         forClose := false } }
    | .preempt n => (c.setDisp fun d => d.setSaved key fun ps => { ps with resume := some n }).beginSwitch n (some key) true false
  else
    let c := (c.takeTask t).setDisp fun d => { d with lastRing := t.ring }
    match pl with
    | .idle n =>
      (c.setDisp fun d => d.setTask t.ring t.seq fun t => { t with next := t.next + 1 }).setCell n fun x => { x with
        st := .run, ps := some { part := t.part k.p c.elapsed, cell := n }, starting := some c.elapsed }
    | .preempt n =>
      (c.setDisp fun d => d.setTask t.ring t.seq fun t => { t with next := t.next + 1, claiming := true }).beginSwitch n (some key) false false

/-- TASK_SELECT (R269, R270, R276, R281): heads are checked, wanted weight sets start to stream, and the best candidate that can be
placed is placed. -/
def execTaskSelect (s : State) : Host.Outcome State Fault Refusal :=
  s.run fun c =>
    if !c.islOpen 10 then c
    else
      let c := c.clearTaskHeads
      let c := c.candidates.foldl (fun c k => if c.wsetReady k.task then c else c.wantSet k.task) c
      match c.bestCand with
      | none => c
      | some (k, pl) => c.placeCand k pl

/-- COLD_START_DONE (R272, R273): the part's state is made and its threads issue. At least 5 µs after the placement. -/
def execColdStartDone (cell : Fin 64) (s : State) : Host.Outcome State Fault Refusal :=
  s.run fun c =>
    match (c.cell cell).starting, c.partAt cell with
    | some since, some ps =>
      if !c.islOpen (cellIsland cell) then c
      else
        match c.disp.task? ps.part.ring ps.part.seq with
        | none => c
        | some t =>
          let c := c.passTo (since + 5 * tUs)
          c.setCell cell fun x => { x with ps := some (c.freshPart t ps.part.p cell), starting := none }
    | _, _ => c

/-- QUIESCE_DONE (R195, R278): nothing is outstanding, and the save begins. A line that the save finds bad raises S2 (R152). What was to
come and is gone leaves the part running. -/
def execQuiesceDone (cell : Fin 64) (ecc : Fin 3) (line : Nat) (s : State) : Host.Outcome State Fault Refusal :=
  s.run fun c =>
    match (c.cell cell).switch with
    | none => c
    | some w =>
      if w.phase ≠ 0 ∨ !c.quiet cell then c
      else
        let c := c.passTo (w.since + 2 * tUs)
        if !c.incomingOk w then c.setCell cell fun x => { x with st := .run, switch := none }
        else
          let c := match w.incoming with
            | some k => if w.resumed then c else c.setDisp fun d => d.setTask k.1 k.2.1 fun t => { t with claiming := false }
            | none => c
          let next := if (c.partAt cell).isNone then 2 else 1
          let c := c.setCell cell fun x => { x with switch := some { w with phase := next, since := c.elapsed } }
          let c := c.storeEcc cell ecc (line % 65536)
          match c.partAt cell with
          | none => c
          | some p =>
            if p.poison.isEmpty then c
            else c.raise { sev := 2, source := 0x02, cause := 0x10, scope := .cell cell, atCell := cell, blob := p.part.blob }

/-- QUIESCE_ABANDON (R279): 80 µs have passed. The part runs on; the candidate may pre-empt again 100 µs later. A save before a close
goes on waiting. -/
def execQuiesceAbandon (cell : Fin 64) (s : State) : Host.Outcome State Fault Refusal :=
  s.run fun c =>
    match (c.cell cell).switch with
    | none => c
    | some w =>
      if w.phase ≠ 0 ∨ w.forClose ∨ c.quiet cell then c
      else
        let c := (c.passTo (w.since + 80 * tUs)).unclaim w
        let c := match w.incoming with
          | none => c
          | some k => c.setDisp fun d => { d with
              blocked := (d.blocked.filter fun (e : Nat × Nat × Nat) => !(e.1 == k.1 && e.2.1 == k.2.1)) ++ [(k.1, k.2.1, c.elapsed + 100 * tUs)] }
        (c.setCell cell fun x => { x with st := .run, switch := none }).bump rDSP_ABANDON

/-- PREEMPT_RETRY_TIMER (R279). -/
def execPreemptRetryTimer (ring : BitVec 14) (seq : Nat) (s : State) : Host.Outcome State Fault Refusal :=
  s.run fun c =>
    match c.disp.blocked.find? fun (e : Nat × Nat × Nat) => e.1 == ring.toNat && e.2.1 == seq with
    | none => c
    | some e => (c.passTo e.2.2).setDisp fun d => { d with blocked := d.blocked.erase e }

/-- SWITCH_SAVE_DONE (R278): the outgoing part is in its frame. At least 70 µs after the save began. -/
def execSwitchSaveDone (cell : Fin 64) (s : State) : Host.Outcome State Fault Refusal :=
  s.run fun c =>
    match (c.cell cell).switch with
    | none => c
    | some w =>
      if w.phase ≠ 1 then c
      else
        let c := (c.passTo (w.since + 70 * tUs)).savePart cell w.forClose
        match w.incoming with
        | none => c.setCell cell fun x => { x with st := .idle, switch := none }
        | some _ => c.setCell cell fun x => { x with switch := some { w with phase := 2, since := c.elapsed } }

/-- SWITCH_LOAD_DONE (R278, R147): the incoming part is on the cell and issue starts. At least 70 µs of load and 8 µs of resume. -/
def execSwitchLoadDone (cell : Fin 64) (s : State) : Host.Outcome State Fault Refusal :=
  s.run fun c =>
    match (c.cell cell).switch with
    | none => c
    | some w =>
      if w.phase ≠ 2 then c
      else
        let c := c.passTo (w.since + 78 * tUs)
        let idle := c.setCell cell fun x => { x with st := .idle, switch := none }
        match w.incoming with
        | none => idle
        | some k =>
          let c' := if w.light then
              (c.bumpWrap rDSP_LIGHT).setReg rDSP_LASTSW (min ((c.elapsed - w.began) / tUs) 0xFFFF) else c
          if w.resumed then
            match c.disp.savedPart? k with
            | none => idle
            | some ps => (c'.setDisp fun d => d.dropSaved k).loadPart cell ps
          else
            match c.disp.task? k.1 k.2.1 with
            | none => idle
            | some t => c'.setCell cell fun x => { x with st := .run, switch := none, ps := some (c'.freshPart t k.2.2 cell) }

/-! ### Weight streams (R282, R283) -/

/-- Copy a range inside this package's memory: the bytes move, and dirty bits are set as for any write. No uncertain mark is cleared (R224). -/
def Mem.copyRange (m : Mem) (src dst n sm dm : Nat) : Mem :=
  let m := (m.touchLines sm src n false).touchLines dm dst n true
  let moved := (m.bytes.filter fun e => decide (src ≤ e.1) && decide (e.1 < src + n)).map fun e => (e.1 - src + dst, e.2)
  let m : Mem := { m with
    bytes := moved.foldl (fun b e => sput 0 b e.1 e.2) (sclear m.bytes dst n)
    poison := m.poison.filter fun e => decide (e.1 * 64 < dst ∨ dst + n ≤ e.1 * 64) }
  m.dirtyPages dst n

/-- The reads of a stream from this package fail (R283). -/
def Chip.streamFails (c : Chip) (w : Wset) (dst : Nat) : Bool :=
  let off := addrOff w.src
  !(addrSpace w.src == 0 && inObject c.objs c.pkg off w.bytes) || (c.mem.readFails off w.bytes).isSome ||
    !(c.mem.badUnits off w.bytes).isEmpty || c.mem.anyUnbacked dst w.bytes

/-- A stream failed (R283): the set is ABSENT, and every task that waits for it takes S1 with WSET_FAIL. -/
def Chip.wsetFail (c : Chip) (k : Nat) : Chip :=
  let id := (c.disp.wsets.getD k {}).id
  let c := c.setDisp fun d => { d with wsets := d.wsets.modify k fun w => { w with st := .absent } }
  let waiting := c.candidates.filter fun e => e.task.wset == id
  let c := waiting.foldl (fun c e => if e.resumed then c else c.takeTask e.task) c
  (c.disp.tasks.filter fun t => t.wset == id && waiting.any fun e => e.task.ring == t.ring && e.task.seq == t.seq).foldl
    (fun c t => c.raise { sev := 1, source := 0x03, cause := 0x21, scope := .task t.ring t.seq }) c

/-- The time a stream takes at least (R282): 0.5 ms and its bytes at 100 GB/s. -/
def streamTicks (bytes : Nat) : Nat := 500 * tUs + ceilDiv (bytes * tUs) 100000

/-- WSET_STREAM_DONE (R282). `data` is what another package answered when the source is there. -/
def execWsetStreamDone (wset : Fin 16) (data : List Byte) (s : State) : Host.Outcome State Fault Refusal :=
  s.run fun c =>
    let w := c.disp.wsets.getD wset {}
    if w.st ≠ .streaming then c
    else
      let c := c.passTo (w.since + streamTicks w.bytes)
      let dst := ((c.im.obj? w.dst).map (·.base)).getD 0
      let away := addrSpace w.src == 0 && addrPkg w.src != c.pkg
      if away && data.length != w.bytes then c
      else if (if away then c.mem.anyUnbacked dst w.bytes else c.streamFails w dst) then c.wsetFail wset
      else
        let c : Chip := if away then { c with mem := c.mem.write (c.depotMode dst) dst data false }
          else { c with mem := c.mem.copyRange (addrOff w.src) dst w.bytes (c.depotMode (addrOff w.src)) (c.depotMode dst) }
        c.setDisp fun d => { d with wsets := d.wsets.modify wset fun w => { w with st := .resident } }

/-- WSET_STREAM_FAIL (R283): a read of the stream failed, as this package's memory shows or another package answered. -/
def execWsetStreamFail (wset : Fin 16) (s : State) : Host.Outcome State Fault Refusal :=
  s.run fun c =>
    let w := c.disp.wsets.getD wset {}
    let dst := ((c.im.obj? w.dst).map (·.base)).getD 0
    if w.st = .streaming ∧ ((addrSpace w.src = 0 ∧ addrPkg w.src ≠ c.pkg) ∨ c.streamFails w dst) then c.wsetFail wset else c

/-- NO_CELL_TIMEOUT (R284): two turns after its platform left OPEN, the first compiler-static part that still waits for it takes S1 with
NO_CELL. -/
def execNoCellTimeout (s : State) : Host.Outcome State Fault Refusal :=
  s.run fun c =>
    match c.disp.saved.find? fun ps => ps.leftOpen.isSome && !c.islOpen (cellIsland ps.cell) &&
        ((c.disp.task? ps.part.ring ps.part.seq).map (·.isStatic)).getD false with
    | none => c
    | some ps =>
      let c := c.passTo ((c.island (cellIsland ps.cell)).leftOpen + 2 * c.turnPeriod)
      let c := c.setDisp fun d => d.setSaved (ps.part.ring, ps.part.seq, ps.part.p) fun x => { x with leftOpen := none }
      c.raise { sev := 1, source := 0x03, cause := 0x22, scope := .task ps.part.ring ps.part.seq, atCell := ps.cell }

end Sys2Proof.Machine
end

