-- ==== Sys2Proof/Machine/DebugOps.lean ====
section
/-! DEFINITION. Debug: the power state, tokens, levels, the gate of M4, halting and the cell debug space (20_security_and_debug.md R518–R527; 19 R484). -/

namespace Sys2Proof.Machine

/-! ### The power state (R484, R506) -/

/-- PWR_STAT.PSTATE. -/
def Chip.pstate (o : Otp) (c : Chip) : Nat :=
  let full := (platIslands ++ [12, 13]).all fun n => !c.plannedIsland o n || c.islOpen n
  match c.pwr.st with
  | .standby => 3
  | .railWait => 3
  | .retained => 2
  | .exiting => if !(c.islOpen 10 && c.islOpen 11) then 2 else if full then 0 else 1
  | _ => if full then 0 else 1

/-! ### Tokens (R522, R523) -/

/-- A token's fields after MAGIC and FORMAT. -/
structure Token where
  level : Nat
  device : List Byte
  nonce : List Byte
  islands : Nat
  duration : Nat
  hash : List Byte
  deriving DecidableEq, Repr

def parseToken (b : List Byte) : Token :=
  { level := fieldAt b 6 1, device := (b.drop 8).take 16, nonce := (b.drop 24).take 32, islands := fieldAt b 56 2, duration := fieldAt b 60 4
    hash := keyHash ((b.drop 128).take 97) ((b.drop 225).take 2592) }

/-- Check 1 (R523): a channel is 0 for debug and 1 for the lamp port. -/
def tokenForm (b : List Byte) (len channel : Nat) : Bool :=
  let level := fieldAt b 6 1
  len == 7540 && fieldAt b 0 4 == 0x4E4B5444 && fieldAt b 4 2 == 1 && fieldAt b 7 1 == channel && zeroAt b 58 2 && zeroAt b 64 64 &&
    (if channel = 1 then level == 0x10 else decide (1 ≤ level) && decide (level ≤ 3) && decide (1 ≤ fieldAt b 60 4) && decide (fieldAt b 60 4 ≤ 86400)) &&
    (level == 2 || fieldAt b 56 2 == 0)

/-- Check 4: the state's token authority. -/
def Chip.tokenAuth (o : Otp) (c : Chip) (hash : List Byte) : Bool :=
  match o.lc with
  | 0 => true
  | 3 => o.slotHash 0 == some hash
  | 4 => false
  | _ => c.image.isSome && c.im.policy.debugHash == hash

/-- The two signatures of a token, over its first 2,817 bytes (R522). -/
def tokenEcSig (b : List Byte) : SigCheck := ecSig (bytesAt b 128 97) (b.take 2817) (bytesAt b 2817 96)
def tokenMldsaSig (b : List Byte) : SigCheck :=
  mlSig ['A', 'M', 'I', 'B', 'O', '-', 'D', 'B', 'G'] (bytesAt b 225 2592) (sha384 (b.take 2817)) (bytesAt b 2913 4627)

/-- Checks 1 to 6 of R523: the first failure's reason. `valid` are the signatures that verify (log entry 3). -/
def Chip.tokenCheck (o : Otp) (c : Chip) (b : List Byte) (len channel : Nat) (nonce : Option (List Byte)) (valid : List SigCheck) : Option Nat :=
  let t := parseToken b
  if !tokenForm b len channel then some 1
  else if t.device ≠ o.deviceId then some 2
  else if nonce ≠ some t.nonce then some 3
  else if !c.tokenAuth o t.hash then some 4
  else if !valid.contains (tokenEcSig b) then some 5
  else if !valid.contains (tokenMldsaSig b) then some 6
  else none

/-- A 32-byte nonce: two free words. -/
def Chip.drawNonce (c : Chip) : List Byte × Chip :=
  let (a, c) := c.draw
  let (b, c) := c.draw
  (leBytes 16 a ++ leBytes 16 b, c)

/-! ### Levels (R524, R525) -/

/-- How a level is given: free, with a token, or refused. -/
inductive DbgGrant
  | free | token | refused
  deriving DecidableEq, Repr

/-- R525's table. -/
def dbgGrant (lc ps level : Nat) : DbgGrant :=
  if 2 < ps ∨ 4 ≤ lc then .refused
  else if level = 1 then (if lc = 2 then .token else .free)
  else if level = 2 then (if ps < 2 then .token else .refused)
  else match lc with
    | 0 => .free
    | 3 => .token
    | _ => .refused

/-- DBG_STAT.REASON takes a refusal. -/
def Chip.dbgRefuse (c : Chip) (reason : Nat) : Chip := c.setDbg fun d => { d with reason := reason }

/-- SECRET_ISLANDS in force (R519). -/
def Chip.secretMask (c : Chip) : Nat := if c.image.isNone then 0x3FFF else c.im.policy.secretIslands % 0x4000 ||| 1

/-- A level is granted: DBG_PERMIT and the end of the session with it. -/
def Chip.dbgSet (c : Chip) (level islands : Nat) (secs : Option Nat) : Chip :=
  c.setDbg fun d => { d with
    level := level, free := secs.isNone, endAt := c.elapsed + secs.getD 0 * tSec
    permit := if level = 3 then 0x3FFF else if level = 2 then islands &&& (c.secretMask ^^^ 0x3FFF) else 0 }

/-- DBG_CHALREQ (R524): a new nonce, for 60 s. -/
def Chip.dbgChallenge (c : Chip) : Chip :=
  let (n, c) := c.drawNonce
  c.setDbg fun d => { d with nonce := some n, nonceTill := c.elapsed + 60 * tSec }

/-- DBG_REQ (R523–R525). A request for a lower level ends the session first. -/
def Chip.dbgRequest (o : Otp) (c : Chip) (v : Nat) (valid : List SigCheck) : Chip :=
  let level := bitsOf v 1 0
  let len := bitsOf v 31 16
  let b := (c.regBytes rDBG_TOKBUF 1885).take 7540
  let nonce := c.sec.dbg.nonce
  let ps := c.pstate o
  let c := if level < c.sec.dbg.level then c.dbgEnd else c
  if level = 0 then c
  else match dbgGrant o.lc ps level with
    | .free => c.dbgSet level 0 none
    | .refused => c.dbgRefuse (if dbgGrant o.lc 0 level = .refused then 9 else 8)
    | .token =>
      let t := parseToken b
      match c.tokenCheck o b len 0 nonce valid with
      | some r => (if 3 < r then c.setDbg fun d => { d with nonce := none } else c).dbgRefuse r
      | none =>
        let c := c.setDbg fun d => { d with nonce := none }
        if t.level < level then c.dbgRefuse 7 else c.dbgSet level t.islands (some t.duration)

/-! ### The gate of M4 (R518, R519) -/

/-- The I0 blocks that D1 and the always-on port read: TT, ISL, PWR, FLT, WEAR, PIN and LAMP. -/
def telemetryBlock (a : Nat) : Bool := (a / 65536) ∈ [0x101, 0x102, 0x103, 0x105, 0x106, 0x109, 0x10A]

/-- The gate lets an M4 access pass. `ram` says that it reaches the working SRAM. -/
def Chip.gateOpen (c : Chip) (write ram : Bool) (a v : Nat) : Bool :=
  let d := c.sec.dbg
  let isl := regIsland a
  let reg := decide (0x01000000 ≤ a) && decide (a < 0x40000000)
  let sec := a / 65536 == 0x107
  let permits := d.permit.testBit isl
  let mailbox := (decide (rDBG_STAT ≤ a) && decide (a ≤ rDBG_PERMIT) && (!write || a == rDBG_CHALREQ || a == rDBG_REQ)) ||
    (decide (rDBG_TOKBUF ≤ a) && decide (a < rDBG_TOKBUF + 0x4000))
  let halting := fun (lo : Nat) => (v ^^^ c.reg (rDBG_HALT_LO + lo / 8)) % 2 ^ 32 |> maskList 32 |>.all fun k => d.permit.testBit (cellIsland (k + lo))
  let control := decide (rDBG_HALT_LO ≤ a) && decide (a ≤ rDBG_ABANDON)
  let controlled :=
    if !write then a != rDBG_DATA || d.permit.testBit (cellIsland (c.reg rDBG_CELLSEL % 64))
    else if a = rDBG_HALT_LO then halting 0
    else if a = rDBG_HALT_HI then halting 32
    else if a = rDBG_DATA then d.permit.testBit (cellIsland (c.reg rDBG_CELLSEL % 64))
    else a == rDBG_CELLSEL || a == rDBG_ADDR
  mailbox ||
    (decide (1 ≤ d.level) && !write && reg && !sec && (telemetryBlock a || !c.secretMask.testBit isl)) ||
    (d.level == 2 && ((control && controlled) || (reg && !sec && permits && !(control && write)) ||
      (ram && d.permit.testBit 1) || (decide (0x40000000 ≤ a) && d.permit.testBit 10 && d.permit.testBit 11))) ||
    d.level == 3

/-! ### Halting and the cell debug space (R520, R530) -/

/-- DBG_HALT takes a value: cells stop issue or resume. -/
def Chip.dbgHalt (c : Chip) (lo v : Nat) : Chip :=
  let reg := rDBG_HALT_LO + lo / 8
  let old := c.reg reg
  let c := (c.setReg reg v).setReg (reg + 8) v
  (List.range 32).foldl (fun (c : Chip) k =>
    if v.testBit k = old.testBit k then c
    else c.setCell (lo + k) fun x => { x with ps := x.ps.map fun p => { p with halted := v.testBit k } }) c

/-- DBG_CORE takes a value; it halts cores at D3 alone. -/
def Chip.dbgCore (c : Chip) (v : Nat) : Chip :=
  c.setDbg fun d => { d with coreHalt := v % 16, cores := if d.level = 3 then v % 16 &&& c.ctl.run else d.cores }

/-- Where an address of the cell debug space lies. -/
inductive DbgPlace
  | store (off : Nat)
  | scalar (t k half : Nat)
  | pc (t : Nat)
  | flags (t : Nat)
  | vec (t r lane : Nat)
  | tile (a k : Nat)
  | nowhere
  deriving DecidableEq, Repr

def dbgPlace (a : Nat) : DbgPlace :=
  if a < 0x400000 then .store a
  else if a < 0xC00000 then
    let t := (a - 0x400000) / 0x20000
    let x := (a - 0x400000) % 0x20000
    if x < 0x100 then .scalar t (x / 8) (x / 4 % 2)
    else if x = 0x100 then .pc t
    else if x = 0x104 then .flags t
    else if 0x10000 ≤ x then .vec t ((x - 0x10000) / 0x400) ((x - 0x10000) % 0x400 / 4)
    else .nowhere
  else if a < 0xC00000 + 16 * 0x1000 then .tile ((a - 0xC00000) / 0x1000) ((a - 0xC00000) % 0x1000 / 4)
  else .nowhere

/-- The thread and tile of an accumulator of the cell's allotment. -/
def PartState.tileAt (p : PartState) (a : Nat) : Nat × Nat := (a / max p.part.acc 1, a % max p.part.acc 1)

def PartState.dbgRead (p : PartState) : DbgPlace → Nat
  | .store off => leNat (p.load off 4)
  | .scalar t k half => match p.threads[t]? with | some x => (x.sreg k).toNat / 2 ^ (32 * half) % 2 ^ 32 | none => 0
  | .pc t => match p.threads[t]? with | some x => x.pc % 2 ^ 32 | none => 0
  | .flags t => match p.threads[t]? with | some x => x.flags.toNat | none => 0
  | .vec t r lane => match p.threads[t]? with | some x => if r < p.part.vregs then ((x.vreg r).getD lane 0).toNat else 0 | none => 0
  | .tile a k =>
    let e := p.tileAt a
    match p.threads[e.1]? with | some x => if e.2 < p.part.acc then ((x.tile e.2).getD k 0).toNat else 0 | none => 0
  | .nowhere => 0

def PartState.setTh (p : PartState) (t : Nat) (f : Thread → Thread) : PartState := { p with threads := setAt p.threads t f }

def PartState.dbgWrite (p : PartState) (v : Nat) : DbgPlace → PartState
  | .store off => p.put off (leBytes 4 v)
  | .scalar t k half => p.setTh t fun x =>
      let old := (x.sreg k).toNat
      let other := if half = 0 then old / 2 ^ 32 * 2 ^ 32 + v else v * 2 ^ 32 + old % 2 ^ 32
      x.setS k (BitVec.ofNat 64 other)
  | .pc t => p.setTh t fun x => { x with pc := v }
  | .flags t => p.setTh t fun x => { x with flags := BitVec.ofNat _ v }
  | .vec t r lane => p.setTh t fun x => if r < p.part.vregs then x.setV r ((x.vreg r).set lane (BitVec.ofNat 32 v)) else x
  | .tile a k =>
    let e := p.tileAt a
    p.setTh e.1 fun x => if e.2 < p.part.acc then x.setTile e.2 ((x.tile e.2).set k (BitVec.ofNat 32 v)) else x
  | .nowhere => p

/-- What a cell's arrays hold: its part's state, what the last part left, or zeros (R140). -/
def Cell.arrays (x : Cell) : PartState := x.ps.getD (x.last.getD { part := {} })
/-- Change what a cell's arrays hold. -/
def Cell.setArrays (x : Cell) (f : PartState → PartState) : Cell :=
  if x.ps.isSome then { x with ps := x.ps.map f } else { x with last := some (f x.arrays) }

/-- DBG_DATA (R520): 4 B of a halted cell, and DBG_ADDR moves on; the value read. -/
def Chip.dbgData (c : Chip) (write : Bool) (v : Nat) : Nat × Chip :=
  let n := c.reg rDBG_CELLSEL % 64
  let a := c.reg rDBG_ADDR % 2 ^ 24
  if !c.haltedCells.testBit n then (0, c.dbgRefuse 0x0A)
  else
    let place := dbgPlace (a / 4 * 4)
    let got := (c.cell n).arrays.dbgRead place
    let c := if write then c.setCell n fun x => x.setArrays fun p => p.dbgWrite (v % 2 ^ 32) place else c
    (if write then 0 else got, c.setReg rDBG_ADDR ((a + 4) % 2 ^ 24))

/-- 10 s pass without release (R526): what is halted ends, and the level becomes D1. -/
def Chip.dbgAbandon (c : Chip) : Chip :=
  match c.pwr.waitDebug with
  | none => c
  | some t =>
    let c := c.passTo (t + 10 * tSec)
    let cells := maskList 64 c.haltedCells
    let parts := (cells.filterMap c.partAt) ++ c.disp.saved.filter (·.halted)
    let c := (c.ledgerOwn { kind := kDEBUG, affected := parts.length, arg := c.haltedCells }).bump rDBG_ABANDON
    let c := parts.foldl (fun (c : Chip) p =>
      c.raise { sev := 1, source := 0x05, cause := 0x25, scope := .task p.part.ring p.part.seq, atCell := p.cell, arg := p.part.p }) c
    let c := c.resumeAll
    c.setDbg fun d => { d with level := 1, permit := 0 }

end Sys2Proof.Machine
end

