-- ==== Sys2Proof/Machine/LampOps.lean ====
section
/-! DEFINITION. The lamp codec: its receiver, frames, command checks and replies (18_service_pins_and_lamp_port.md R468–R480; 19 R503). -/

namespace Sys2Proof.Machine

def Chip.setLamp (c : Chip) (f : Lamp → Lamp) : Chip := { c with lamp := f c.lamp }

/-- A chip of the code (R469). -/
def lampChip : Nat := tUs

/-! ### Status codes (R472, R480) -/

def abDazzled : Nat := 1
def abSymbol : Nat := 2
def abCrc : Nat := 3
def abLength : Nat := 4
def abDir : Nat := 5

def lpOk : Nat := 0
def lpDenied : Nat := 1
def lpBadCmd : Nat := 2
def lpBusy : Nat := 3
def lpUnavailable : Nat := 4
def lpRange : Nat := 5
def lpAuthFail : Nat := 6
def lpNoReply : Nat := 7

/-! ### The receiver (R471, R472) -/

/-- An abort with its status: LAST_ABORT, and its count in LAMP_ERR. -/
def Chip.lampCount (c : Chip) (code : Nat) : Chip :=
  if code = abDazzled then c.bumpField rLAMP_ERR 31 24 1
  else if code = abSymbol then c.bumpField rLAMP_ERR 23 16 1
  else if code = abCrc then c.bumpField rLAMP_ERR 15 8 1
  else c.bumpField rLAMP_ERR 7 0 1

/-- Back to HUNT, or to another state, with nothing received. -/
def Lamp.clear (l : Lamp) (rx : LampRx) : Lamp := { l with rx := rx, pulses := 0, symbols := [], bad := false }

def Chip.lampAbort (c : Chip) (code : Nat) : Chip :=
  (c.lampCount code).setLamp fun l => { l.clear .hunt with lastAbort := code }

/-- The start of the first data chip that a preamble gives: its last pulse lies in its twelfth chip, and data five chips later. -/
def Lamp.dataStart (l : Lamp) : Int := l.grid / (max l.pulses 1 : Nat) + ((l.pulses + 4) * lampChip : Nat)

/-- A qualified pulse of a frame: it falls in a chip, moves the grid by a quarter of its offset, and gives its symbol. -/
def Lamp.framePulse (l : Lamp) (edge : Nat) : Lamp :=
  let x : Int := (edge : Int) - l.grid
  let chip := (2 * x + (lampChip : Int)) / (2 * lampChip : Nat)
  let off := x - chip * (lampChip : Int)
  let k := chip.toNat
  if l.bad then l
  else if chip < 0 || decide (250 * tNs < off.natAbs) || k / 4 != l.symbols.length then { l with bad := true }
  else { l with grid := l.grid + off / 4, symbols := l.symbols ++ [k % 4] }

/-- A qualified pulse. In PREAMBLE the next is 1 µs ± 5 % later; four empty chips after at least eight lead to FRAME, anything else to HUNT. -/
def Lamp.pulse (l : Lamp) (edge : Nat) : Lamp :=
  let d := edge - l.lastPulse
  match l.rx with
  | .hunt => { l.clear .preamble with pulses := 1, lastPulse := edge, grid := edge }
  | .preamble =>
    if 950 * tNs ≤ d ∧ d ≤ 1050 * tNs then
      { l with pulses := l.pulses + 1, lastPulse := edge, grid := l.grid + (edge : Int) - (l.pulses * lampChip : Nat) }
    else if 8 ≤ l.pulses ∧ l.dataStart - (250 * tNs : Nat) ≤ (edge : Int) then
      ({ l with rx := .frame, grid := l.dataStart, symbols := [], bad := false } : Lamp).framePulse edge
    else l.clear .hunt
  | .frame => l.framePulse edge
  | _ => l

/-- A high pulse on LAMP_RX, `gap` ns from now and `width` ns long (R471). A detached receiver sees none (R464). -/
def Chip.lampPulse (c : Chip) (gap width : Nat) : Chip :=
  let edge := c.elapsed + gap * tNs
  let c := c.passTo (edge + width * tNs)
  if !c.pinOn 41 fnLampRx || c.lamp.rx == .blanked || c.lamp.rx == .tx then c
  else if width < 125 ∨ 400 < width then c.bump rLAMP_REJECT
  else c.setLamp fun l => l.pulse edge

/-- The bytes of a frame: four symbols each, least significant bits first (R469). -/
def symbolBytes : List Nat → List Byte
  | a :: b :: d :: e :: rest => BitVec.ofNat 8 (a + 4 * b + 16 * d + 64 * e) :: symbolBytes rest
  | _ => []

/-- The end of a frame: it is whole, or it aborts with LENGTH, SYMBOL, CRC or DIR (R470, R472). -/
def Chip.lampFrameEnd (c : Chip) : Chip :=
  let l := c.lamp
  let b := symbolBytes l.symbols
  let len := fieldAt b 3 1
  let n := 6 + len
  match l.rx with
  | .preamble => if l.pulses < 8 then c.setLamp fun l => l.clear .hunt else c.lampAbort abSymbol
  | .frame =>
    if 4 ≤ b.length ∧ 248 < len then c.lampAbort abLength
    else if b.length < 4 ∨ b.length < n then c.lampAbort abSymbol
    else if crc16 (b.take (n - 2)) ≠ fieldAt b (n - 2) 2 then c.lampAbort abCrc
    else if fieldAt b 0 1 ≠ 0xC5 then c.lampAbort abDir
    else
      let c := c.passTo (l.grid + (16 * n * lampChip : Nat)).toNat
      c.setLamp fun l => { l.clear .hunt with
        good := some { cmd := fieldAt b 1 1, tag := fieldAt b 2 1, payload := (b.drop 4).take len, lastChip := c.elapsed } }
  | _ => c

/-- The slow-level tracker takes a code (R474). -/
def Chip.lampLevel (c : Chip) (level : Nat) : Chip :=
  c.setLamp fun l => { l with tracker := level, absent := l.absent && decide (level < c.regField rLAMP_CFG 15 8) }

/-- The receiver enters BLANKED, and what it was receiving aborts (R473). -/
def Chip.lampBlank (c : Chip) : Chip :=
  let lost := c.lamp.rx == .frame || c.lamp.rx == .preamble || (c.lamp.good.map fun g => decide (c.elapsed < g.lastChip + 8 * tUs)).getD false
  (c.lampCount abDazzled).setLamp fun l => { l.clear .blanked with
    good := l.good.filter fun g => decide (g.lastChip + 8 * tUs ≤ c.elapsed)
    lastAbort := if lost then abDazzled else l.lastAbort, dazzled := false }

/-- The 32nd sample at or above THRESH, `gap` ns from now. -/
def Chip.lampDazzle (c : Chip) (gap level : Nat) : Chip :=
  let c := (c.passTo (c.elapsed + gap * tNs)).lampLevel level
  match c.lamp.rx with
  | .blanked => c
  | .tx => c.setLamp fun l => { l with dazzled := true }
  | _ => c.lampBlank

/-- The 800th sample below THRESH. -/
def Chip.lampBlankEnd (c : Chip) (gap level : Nat) : Chip :=
  let c := (c.passTo (c.elapsed + gap * tNs)).lampLevel level
  if c.lamp.rx = .blanked then c.setLamp fun l => l.clear .hunt else c

/-- The tracker has stayed below PRESENT_MIN for 1 s. -/
def Chip.lampAbsent (c : Chip) (level : Nat) : Chip :=
  let c := c.lampLevel level
  if c.lamp.absent || decide (c.regField rLAMP_CFG 15 8 ≤ level) then c
  else (c.setLamp fun l => { l with absent := true }).notice 474 0

/-! ### Commands (R476, R477, R479) -/

/-- The payload length of a command; none for an unknown one. -/
def lampLenOk (cmd len : Nat) : Option Bool :=
  if cmd ∈ [0x01, 0x02, 0x10, 0x13] then some (len == 0)
  else if cmd = 0x03 then some (len == 1)
  else if cmd = 0x11 then some (decide (3 ≤ len) && decide (len ≤ 242))
  else if cmd = 0x12 then some (len == 2)
  else if cmd = 0x20 then some (decide (5 ≤ len) && decide (len ≤ 244))
  else if cmd = 0x21 then some (len == 12)
  else none

/-- The commands that I0 serves. -/
def lampI0 (cmd : Nat) : Bool := cmd ∈ [0x01, 0x02, 0x03, 0x10]

/-- LAMP_POLICY: 0 without an image. -/
def Chip.lampPolicy (c : Chip) : Nat := if c.image.isNone then 0 else c.im.policy.lampPolicy

/-- A command's class is permitted (R477). -/
def Chip.lampAllowed (o : Otp) (c : Chip) (cmd : Nat) : Bool :=
  if cmd < 0x10 then true
  else if cmd < 0x20 then o.lc != 4
  else o.lc != 4 && (c.lamp.session.isSome || (c.lampPolicy == 1 && o.lc != 2))

/-- Ohmax serves ring 0x0005 (R479, R503). -/
def Chip.lampOhmax (c : Chip) : Bool := c.ohmaxRuns && c.islOpen 10 && c.pwr.st != .retained && c.pwr.st != .standby && c.pwr.st != .railWait

/-- Put a reply in the queue; it starts 100 µs after its command's last chip at the earliest (R475). -/
def Chip.lampReply (c : Chip) (g : LampCmd) (payload : List Byte) : Chip :=
  c.setLamp fun l => { l with replies := l.replies ++ [{ cmd := g.cmd, tag := g.tag, payload := payload.take 248, ready := c.elapsed, earliest := g.lastChip + 100 * tUs }] }

/-- A reply of STATUS alone. -/
def Chip.lampStatus (c : Chip) (g : LampCmd) (status : Nat) : Chip := c.lampReply g (leBytes 1 status)

/-- The lamp service item of a command (R479). -/
def Chip.lampItem (c : Chip) (g : LampCmd) : List Byte :=
  let n := g.payload.length
  let pad := ceilDiv n 64 * 64 - n
  mkHeader (1 + ceilDiv n 64) 0x09 0 0 0 ++ leBytes 1 g.cmd ++ leBytes 1 g.tag ++ leBytes 1 n ++ leBytes 5 0 ++ leBytes 8 c.now ++ leBytes 32 0 ++
    g.payload ++ List.replicate pad 0

/-- A command is acted on. -/
def Chip.lampActs (c : Chip) (g : LampCmd) : Chip := (c.bumpField rLAMP_GOOD 31 16 1).setLamp fun l => { l with serving := some g }

/-- The action point (R472, R475–R477, R479). -/
def Chip.lampAct (o : Otp) (c : Chip) : Chip :=
  match c.lamp.good with
  | none => c
  | some g =>
    let c := (c.passTo (g.lastChip + 8 * tUs)).setLamp fun l => { l with good := none }
    match lampLenOk g.cmd g.payload.length with
    | none => c.lampStatus g lpBadCmd
    | some ok =>
      if !c.lampAllowed o g.cmd then (c.bump rLAMP_DENIED).lampStatus g lpDenied
      else if !ok then c.lampStatus g lpBadCmd
      else if c.lamp.serving.isSome then c.lampStatus g lpBusy
      else if lampI0 g.cmd then
        if g.cmd = 0x10 && c.flt.latch then c.lampStatus g lpUnavailable
        else if g.cmd = 0x03 && decide (64 ≤ fieldAt g.payload 0 1) then c.lampStatus g lpRange
        else c.lampActs g
      else if !c.lampOhmax then c.lampStatus g lpUnavailable
      else match c.enginePut 5 (c.lampItem g) with
        | none => c.lampStatus g lpBusy
        | some c => (c.lampActs g).setLamp fun l => { l with itemAt := some c.elapsed }

/-! ### Replies (R471, R475) -/

/-- A reply's frame (R470). -/
def lampFrame (r : LampReply) : List Byte :=
  let b := leBytes 1 0x3A ++ leBytes 1 (r.cmd + 0x80) ++ leBytes 1 r.tag ++ leBytes 1 r.payload.length ++ r.payload
  b ++ leBytes 2 (crc16 b)

/-- The transmitter works: LAMP_TX is on a pin that is not faulted. -/
def Chip.lampTxUp (c : Chip) : Bool := c.pinOn 40 fnLampTx

/-- The front reply starts, unless a frame arrives or the transmitter is busy or faulted. -/
def Chip.lampStart (c : Chip) : Chip :=
  match c.lamp.replies with
  | [] => c
  | r :: rest =>
    if c.lamp.rx = .tx then c
    else
      let c := c.passTo (max r.earliest r.ready)
      if !c.lampTxUp || c.lamp.rx == .preamble || c.lamp.rx == .frame then c
      else
        let f := lampFrame r
        (c.bumpField rLAMP_GOOD 15 0 1).setLamp fun l =>
          { l.clear .tx with replies := rest, sent := f, txEnd := c.elapsed + (16 + 16 * f.length) * lampChip, dazzled := l.rx == .blanked }

/-- A reply that could not be sent within 5 ms is dropped. -/
def Chip.lampDrop (c : Chip) : Chip :=
  match c.lamp.replies with
  | [] => c
  | r :: rest =>
    if c.lamp.rx = .tx then c
    else ((c.passTo (max r.earliest r.ready + 5 * tMs)).bumpField rLAMP_ERR 7 0 1).setLamp fun l => { l with replies := rest }

/-- 20 µs after the reply's last chip. A dazzle that came during it takes effect. -/
def Chip.lampTxEnd (c : Chip) : Chip :=
  if c.lamp.rx ≠ .tx then c
  else
    let c := c.passTo (c.lamp.txEnd + 20 * tUs)
    if c.lamp.dazzled then c.lampBlank else c.setLamp fun l => l.clear .hunt

/-- 100 ms without an Ohmax reply (R479). -/
def Chip.lampNoReply (c : Chip) : Chip :=
  match c.lamp.serving, c.lamp.itemAt with
  | some g, some t =>
    let c := c.passTo (t + 100 * tMs)
    (c.lampStatus g lpNoReply).setLamp fun l => { l with serving := none, itemAt := none }
  | _, _ => c

/-- LAMP_RSEND (R482): LEN bytes of LAMP_RBUF answer the command with that TAG. -/
def Chip.lampRsend (c : Chip) (v : Nat) : Chip :=
  match c.lamp.serving with
  | none => c
  | some g =>
    if c.lamp.itemAt.isNone || g.tag != bitsOf v 15 8 then c
    else (c.lampReply g ((c.regBytes rLAMP_RBUF 62).take (bitsOf v 7 0))).setLamp fun l => { l with serving := none, itemAt := none }

/-! ### What I0 returns (R476) -/

/-- Serve a command of I0 by its code. -/
def Chip.lampServe (c : Chip) (cmd : Nat) (f : LampCmd → Chip → List Byte × Chip) : Chip :=
  match c.lamp.serving with
  | none => c
  | some g =>
    if g.cmd ≠ cmd ∨ c.lamp.itemAt.isSome = true then c
    else
      let (b, c) := f g c
      (c.lampReply g b).setLamp fun l => { l with serving := none }

/-- A record of the retention ledger, the newest first (log entry 22). -/
def Chip.retained (c : Chip) (index : Nat) : List Byte :=
  let b := c.flt.ret.getD ((c.flt.retNext + 127 - index) % 64) []
  b ++ List.replicate (128 - b.length) 0

/-! ### What Ohmax does (R476, R478, R479) -/

/-- Ohmax takes the item of the command that is being served, the newest of ring 0x0005; an older one, whose command NO_REPLY answered, is taken
and completed without effect (R263, R479; log entry 76). -/
def Chip.takeLamp (c : Chip) : Nat → Option (RItem × Chip)
  | 0 => none
  | fuel + 1 =>
    match c.takeItem 5 .ohmax with
    | none => none
    | some (i, c') => if (c'.ring 5).atTake.isSome then (c'.completeItem 5 i.seq 0x00 0).takeLamp fuel else some (i, c')

/-- Ohmax takes the item of a command, acts, and places its reply in LAMP_RBUF. -/
def Chip.lampOhmaxServe (c : Chip) (cmd : Nat) (f : LampCmd → Chip → List Byte × Chip) : Chip :=
  match c.lamp.serving with
  | none => c
  | some g =>
    if g.cmd ≠ cmd ∨ c.lamp.itemAt.isNone = true ∨ c.lampOhmax = false then c
    else match c.takeLamp 256 with
      | none => c
      | some (i, c) =>
        let (b, c) := f g (c.completeItem 5 i.seq 0x00 0)
        c.setRegBytes rLAMP_RBUF (b ++ List.replicate (248 - b.length) 0)

def okReply (b : List Byte) : List Byte := leBytes 4 lpOk ++ b
def badReply (status : Nat) : List Byte := leBytes 1 status

/-- TOKEN_CHUNK: bytes of the token buffer. -/
def Chip.lampTokenChunk (g : LampCmd) (c : Chip) : List Byte × Chip :=
  let off := fieldAt g.payload 0 2
  let b := g.payload.drop 2
  if 16384 < off + b.length then (badReply lpRange, c)
  else
    let old := (c.regBytes rDBG_TOKBUF 4096)
    (badReply lpOk, c.setRegBytes rDBG_TOKBUF (spliceBytes old off b))

/-- UNLOCK: the token is verified (R522, R523). -/
def Chip.lampUnlock (o : Otp) (valid : List SigCheck) (g : LampCmd) (c : Chip) : List Byte × Chip :=
  let len := fieldAt g.payload 0 2
  let b := (c.regBytes rDBG_TOKBUF 1885).take 7540
  let nonce := if c.elapsed ≤ c.lamp.nonceTill then c.lamp.nonce else none
  let keyed := c.im.policy.debugHash.any (· != 0)
  let c := c.setLamp fun l => { l with nonce := none }
  if keyed && (c.tokenCheck o b len 1 nonce valid).isNone then
    (okReply (leBytes 2 600), c.setLamp fun l => { l with session := some (c.elapsed + 600 * tSec) })
  else (badReply lpAuthFail, c.clearTokens)

/-- AMD_CHUNK: bytes of a staging slot. -/
def Chip.lampAmdChunk (g : LampCmd) (c : Chip) : List Byte × Chip :=
  let slot := fieldAt g.payload 0 1
  let off := fieldAt g.payload 2 2
  let b := g.payload.drop 4
  if 8 ≤ slot ∨ 16384 < off + b.length then (badReply lpRange, c)
  else
    let st := (List.range b.length).foldl (fun st k => sput 0 st (slot * 16384 + off + k) (b.getD k 0)) c.amd.staging
    (badReply lpOk, { c with amd := { c.amd with staging := st } })

/-- AMD_POST: an amendment record with SOURCE 1 on ring 0x0000 (R407). -/
def Chip.lampAmdPost (g : LampCmd) (c : Chip) : List Byte × Chip :=
  let slot := fieldAt g.payload 0 1
  if 8 ≤ slot then (badReply lpRange, c)
  else
    let seq := (c.ring 0).nextSeq
    let w := mkHeader 1 0x07 0 (fieldAt g.payload 8 4) 0 ++ leBytes 8 0 ++ leBytes 4 (fieldAt g.payload 4 4) ++ leBytes 1 1 ++ leBytes 1 slot ++ leBytes 34 0
    match c.enginePut 0 w with
    | some c => (okReply (leBytes 4 seq), c)
    | none => (badReply lpBusy, c)

end Sys2Proof.Machine
end

