-- ==== Sys2Proof/Machine/Timetable.lean ====
section
/-! DEFINITION. Time transfer, the turn boundary, external sync, clocks and the plain departure actions (04_islands_and_timetable.md R106–R138;
05/06 DARM, DCAN; 09 R254; 10 R275). -/

namespace Sys2Proof.Machine

/-! ### Time transfer (R112, R360, R361) -/

/-- A timestamp of R360: ticks and sixteenths. -/
def stampBytes (v : Nat) : List Byte := leBytes 8 (v / 16) ++ leBytes 1 (v % 16) ++ leBytes 7 0
def stampAt (b : List Byte) (off : Nat) : Nat := fieldAt b off 8 * 16 + fieldAt b (off + 8) 1 % 16

/-- The lowest active logical transmit lane of a stream: the physical lane that carries the timestamps (R361). -/
def Chip.stampLane (c : Chip) (l h : Nat) : Lane :=
  let x := c.half l h
  let lanes := (c.link l).tx.zipIdx.filter fun e => x.txMask.testBit e.2
  (lanes.foldl (fun (a : Option Lane) e => match a with
    | none => some e.1
    | some b => if e.1.logical < b.logical then some e.1 else a) none).getD {}

/-- The body of a TIME flit (R360). -/
def Chip.timeBody (c : Chip) (l h : Nat) : List Byte :=
  let x := c.half l h
  stampBytes x.txPrev ++ stampBytes x.rxLast ++ leBytes 2 (x.tseq + 65535) ++ leBytes 2 x.rxSeqLast ++ leBytes 2 x.tseq ++ leBytes 2 0 ++
    leBytes 2 x.txLatPrev ++ leBytes 2 x.rxLatLast ++ leBytes 2 c.pkg ++ leBytes 1 l ++ leBytes 1 c.tt.st.code ++
    leBytes 1 (if c.tt.st = .root then 0 else if c.tt.parent.isSome then c.tt.depth else 0xFF) ++ leBytes 1 (bit c.tt.carries) ++
    leBytes 2 (c.tt.rootPkg.getD 0xFFFF) ++ leBytes 4 0 ++ leBytes 8 c.turnPeriod ++ leBytes 8 c.tt.boundary ++ leBytes 8 c.tt.turnNum ++
    leBytes 528 0

/-- TIME_FLIT_SEND (R360): at the first flit slot after the counter crosses a multiple of 64,000 ticks. `sentAt` gives the sixteenths of the stamp. -/
def execTimeFlitSend (link : Fin 24) (half : Fin 2) (sentAt : Nat) (s : State) : Host.Outcome State Fault Refusal :=
  let l := link.val
  let h := half.val
  s.run fun c =>
    if !c.hearsTime l h then c
    else
      let last := (c.half l h).txPrev / 16 / 64000
      let c := if last < c.now / 64000 then c else c.reachTick ((c.now / 64000 + 1) * 64000)
      let body := c.timeBody l h
      c.setHalf l h fun x => { x.frame 2 0 0 0 body with
        timeOut := body, tseq := (x.tseq + 1) % 65536, txPrev := c.now * 16 + sentAt % 16, txLatPrev := (c.stampLane l h).lat }

/-- TIME_FLIT_RECEIVE (R112, R361): one complete exchange with the peer, when both sequences are those of the last flits; the parent's steers.
`seenAt` gives the sixteenths of the stamp and `lane` the physical lane that carried it. -/
def execTimeFlitReceive (link : Fin 24) (half : Fin 2) (cw : Codeword) (seenAt : Nat) (lane : Fin 4) (s : State) :
    Host.Outcome State Fault Refusal :=
  let l := link.val
  let h := half.val
  let b := cw.flit.drop 24
  s.run fun c => c.onFlit (c.hearsTime l h) l h cw.flit cw.errs 2 fun c =>
      let c := c.flitHeader l h cw.flit
      let x := c.half l h
      let whole := fieldAt b 34 2 == (x.tseq + 65535) % 65536 && fieldAt b 32 2 == x.rxSeqLast && x.rxLast != 0
      let asym : Int := signed 32 (c.reg (rLNK_TTASYM + l * 0x800))
      let delta : Int := ((x.txLatPrev + fieldAt b 42 2 : Nat) : Int) - ((fieldAt b 40 2 + x.rxLatLast : Nat) : Int) + asym
      let off : Int := (((stampAt b 16 : Int) - (x.txPrev : Int)) - ((x.rxLast : Int) - (stampAt b 0 : Int))) / 2 - delta / 2
      let lat := ((c.link l).rx.getD lane.val {}).lat
      let c := c.setHalf l h fun x => { x with rxLast := c.now * 16 + seenAt % 16, rxSeqLast := fieldAt b 36 2, rxLatLast := lat }
      if !whole then c
      else
        let key := halfKey l h
        let e : Exchange :=
          { offset := off, st := fieldAt b 47 1, depth := fieldAt b 48 1, ptime := fieldAt b 49 1 == 1, root := fieldAt b 50 2
            turnPeriod := fieldAt b 56 8, grid := fieldAt b 64 8, turnNum := fieldAt b 72 8, seenAt := c.elapsed }
        let clear := if e.ptime then 0 else ((c.tt.clearRun.find? fun k => k.1 == key).map (·.2)).getD 0 + 1
        let c := c.setReg (rLNK_TTOFF + l * 0x800) (off % 2 ^ 32).toNat
        let c := c.setTt fun t => { t with
          exch := t.exch.filter (fun k => k.1 != key) ++ [(key, e)], clearRun := t.clearRun.filter (fun k => k.1 != key) ++ [(key, clear)] }
        if !c.listening l h then c else
        let c := c.chooseParent
        if c.tt.parent = some key then c.steer off e else c

/-- COLD_START_ROOT (R113): no reachable package carries partition time, and this package is the one that takes the root; one that runs free
takes it too, and keeps its own counter and grid. -/
def execColdStartRoot (s : State) : Host.Outcome State Fault Refusal :=
  s.run fun c =>
    let ups := c.upHalves
    let quiet := ups.all fun u => ((c.tt.clearRun.find? fun k => k.1 == halfKey u.1 u.2).map fun k => decide (16 ≤ k.2)).getD false
    let sync := c.im.syncStation.filter fun p => p == c.pkg || c.reachable false p
    let mine := match sync with
      | some p => p == c.pkg
      | none => c.net.map.all fun e => decide (c.pkg ≤ e.origin)
    if c.tt.carries || ups.isEmpty || !quiet || !mine || decide (c.boot.step < 16) || c.boot.stopped then c
    else (c.passTo (c.net.mapSince + 100 * tUs)).setTt (fun t => { t with rootPkg := some c.pkg, parent := none, depth := 0 }) |>.enterTime .root 0 0

/-! ### The turn boundary (R118, R120) -/

/-- A turn-sync code frame for a turn number (R132, R136). -/
def syncFrame (turn : Nat) : List Byte :=
  let b := leBytes 1 0xA5 ++ leBytes 4 turn
  b ++ leBytes 2 (crc16 b)

/-- At the first boundary ring 0x0000 and the image's rings open, and the start is READY (R66, R70, R71). -/
def Chip.firstBoundary (c : Chip) : Chip :=
  if c.boot.step ≠ 17 ∨ c.boot.stopped then c
  else
    let c := if c.mem.backed then c else c.backLate
    let c := c.openRing 0
    let c := c.im.rings.foldl (fun c e => c.openRing e.ring) c
    let b := c.boot
    let warn := b.unanchored || b.freerun || b.linkShort || b.hbmShort || b.degraded || b.fallback
    let c : Chip := { c with boot := { b with step := 18, code := if warn then 2 else 1 }, ctl := { c.ctl with beats := List.replicate 4 c.elapsed } }
    let c := c.setReg rSB_BOOTTIME ((c.elapsed - b.t0) / tMs)
    let sync := c.im.syncStation == some c.pkg && c.im.clk.syncMode != 0
    let c := if sync then c.setTt fun t => { t with sync := { t.sync with st := .acquire } } else c
    c.bootRecord.signal .bootCode

/-- TT_OUT (R136): the frame of the boundary; an output that does not read back sets OUT_FAULT with a
notice, and one that does clears it (log entry 83). -/
def Chip.driveOut (c : Chip) (readBack : Bool) : Chip :=
  if !(c.reg rTT_SYNC_CFG).testBit 2 then c.setTt fun t => { t with outFrame := [] }
  else
    let c := c.setTt fun t => { t with outFrame := syncFrame t.turnNum }
    if readBack then c.setTt fun t => { t with outFault := false }
    else if c.tt.outFault then c
    else (c.setTt fun t => { t with outFault := true }).notice 136 0

/-- The stretches over 0.30 ns of each island since the last boundary: counted, and the first in a turn with a notice that names the island (R109). -/
def Chip.countStretches (c : Chip) (stretch : List Nat) : Chip :=
  (stretch.take 14).zipIdx.foldl (fun c (e : Nat × Nat) =>
    if e.1 = 0 then c
    else
      let c := c.bumpBy (rISL_LONGSTRETCH + 8 * e.2) e.1
      if (c.island e.2).longNoted then c else (c.setIsland e.2 fun i => { i with longNoted := true }).notice 109 e.2) c

/-- What counts once a turn begins anew (R109, R251, R352). -/
def Chip.newTurn (c : Chip) : Chip :=
  let c : Chip := { c with net := { c.net with badNoted := false }, ctl := { c.ctl with noticed := 0 }, isl := c.isl.map fun i => { i with longNoted := false } }
  let c := (c.rings.filter fun e => e.2.alerted).foldl (fun c (e : Nat × Ring) => c.setRing e.1 fun x => { x with alerted := false }) c
  if c.islOpen 10 then (c.rings.map (·.1)).foldl (fun c r => c.alertCheck r) c else c

/-- TURN_SET takes effect (R126). -/
def Chip.takeTurnSet (c : Chip) : Chip :=
  match c.tt.turnSet with
  | some p => (c.setReg64 rTT_TURN_LO p).setTt fun t => { t with turnSet := none }
  | none => c

/-- After a lock that followed free-run the grid moves as sync moves it (R65). -/
def Chip.alignGrid (c : Chip) : Chip :=
  if c.tt.align then c.setTt fun t => { t with shift := c.gridShift, align := decide (c.gridShift ≠ 0) } else c

/-- The step of R117 at a boundary. -/
def Timetable.takeStep (t : Timetable) : Timetable := { t with counter := (t.counter + t.stepBy) % 2 ^ 64, stepBy := 0 }

/-- The grid moves on to a boundary (R118). -/
def Timetable.nextTurn (t : Timetable) (tick : Nat) : Timetable := { t with boundary := tick, turnNum := t.turnNum + 1, shift := 0 }

/-- The boundary work of every chapter, at the tick of a boundary. -/
def Chip.boundaryWork (c : Chip) (readBack : Bool) (stretch : List Nat) : Chip :=
  let c := c.countStretches stretch
  let tick := c.tt.nextBoundary c.turnPeriod
  let first := c.boot.step == 17
  let c := ((c.setTt fun t => t.nextTurn tick).takeTurnSet.alignGrid).setTt fun t => t.dueAtBoundary first
  let c := (c.firstBoundary.driveOut readBack).newTurn
  let c := if c.islOpen 10 then (c.trnBoundary c.tt.turnNum).seqBoundary c.tt.turnNum tick else c
  (if c.islOpen 1 then c.amdBoundary else c).setTt Timetable.takeStep

/-- TURN_BOUNDARY (R120): the standing boundary departure, when it is the next to fire, with what it finds (log entry 3). -/
def execTurnBoundary (seen : TurnObs) (s : State) : Host.Outcome State Fault Refusal :=
  s.run fun c =>
    if boundaryNext c.tt c.turnPeriod then (c.reachTick (c.tt.nextBoundary c.turnPeriod)).boundaryWork seen.readBack seen.stretch else c

/-! ### Plain actions (R126) -/

/-- LOG_MARK: the departure log takes ARG as the departure fires. -/
def execLogMark (s : State) : Host.Outcome State Fault Refusal :=
  s.run fun c => c.fireDep (fun d => d.action == 0x0001) fun _ _ c => c

/-- SYNC_ADJUST (R118): the pending shift takes ARG, in signed ticks. -/
def execSyncAdjust (s : State) : Host.Outcome State Fault Refusal :=
  s.run fun c => c.fireDep (fun d => d.action == 0x0010) fun d _ c => c.setTt fun t => { t with shift := signed 64 d.arg }

/-- TURN_SET (R126): TT_TURN takes ARG at this boundary; away from a boundary, at the next (log entry 21). -/
def execTurnSet (s : State) : Host.Outcome State Fault Refusal :=
  s.run fun c => c.fireDep (fun d => d.action == 0x0011) fun d _ c => (c.setTt fun t => { t with turnSet := some d.arg }).turnSetFired d.id

/-- TASK_POST (R275): the task that the item describes becomes a candidate of its ring without a place in it. -/
def execTaskPost (s : State) : Host.Outcome State Fault Refusal :=
  s.run fun c => c.fireDep (fun d => d.action == 0x0050) (fun d _ c => c.postEdge d) fun d c => c.postFails d

/-- DOORBELL (R254): everything held on a ring with HOLD is committed. -/
def execDoorbell (s : State) : Host.Outcome State Fault Refusal :=
  s.run fun c => c.fireDep (fun d => d.action == 0x0051) fun d _ c => c.doorbellEdge d

/-! ### Clocks (R106) -/

/-- CLOCK_SET (R106): until it settles a platform runs at the lower of the two frequencies. -/
def execClockSet (s : State) : Host.Outcome State Fault Refusal :=
  s.runO fun o c => c.fireDep (fun d => d.action == 0x0070) fun d isl c => c.clockEdge o d isl

/-- CLOCK_SETTLED (R106): the new frequency is in force. -/
def execClockSettled (isl : Fin 14) (s : State) : Host.Outcome State Fault Refusal :=
  s.run fun c => c.setIsland isl.val fun x => match x.change with
    | some f => { x.setRunning f c.elapsed with change := none }
    | none => x

/-! ### External sync (R132–R135) -/

def Chip.syncMode (c : Chip) : Nat := if c.im.syncStation = some c.pkg then c.im.clk.syncMode else 0
def Chip.setSync (c : Chip) (f : SyncStation → SyncStation) : Chip := c.setTt fun t => { t with sync := f t.sync }

/-- The boundary that an edge is expected at: the current one, or the next one, where a pending shift puts it, when that is nearer. -/
def Chip.edgeAtNext (c : Chip) (tick : Nat) : Bool :=
  decide ((c.tt.nextBoundary c.turnPeriod : Int) - (tick : Int) < (tick : Int) - (c.tt.boundary : Int))

/-- e of R134: the edge against its expected boundary, in (−T ÷ 2, T ÷ 2]. -/
def Chip.edgeError (c : Chip) (tick : Nat) : Int :=
  let t : Int := (max c.turnPeriod 1 : Nat)
  let r := ((tick : Int) - ((if c.edgeAtNext tick then c.tt.nextBoundary c.turnPeriod else c.tt.boundary : Nat) : Int)) % t
  if t < 2 * r then r - t else r

/-- The number of the interval that an edge falls in: in 1PPS mode the seconds since the first accepted edge, in code mode the turn (R132). -/
def Chip.edgeInterval (c : Chip) (tick interval : Nat) (pps : Bool) : Nat :=
  if pps then (tick + interval / 2 - (c.tt.sync.ref.getD tick)) / interval
  else if c.edgeAtNext tick then c.tt.turnNum + 1 else c.tt.turnNum

/-- Arm the SYNC_ADJUST of an accepted edge (R134): 5/8 of a turn after its boundary, or one turn later. -/
def Chip.armAdjust (c : Chip) (tick : Nat) (e shift : Int) : Chip :=
  let b := ((tick : Int) - e).toNat
  let t := b + c.turnPeriod * 5 / 8
  let t := if t < c.now + 22 * tUs then t + c.turnPeriod else t
  c.armAny { whenAt := .once t, action := 0x0010, scope := 0x0400, order := 0, arg := (shift % 2 ^ 64).toNat, log := false, src := .syncStation }

/-- A pulse or frame that shows the pair reversed, or one that does not (R133). -/
def Chip.polarity (c : Chip) (reversed : Bool) : Chip :=
  if !reversed then c.setSync fun x => { x with reversals := 0 }
  else if c.tt.sync.reversals = 0 then c.setSync fun x => { x with reversals := 1 }
  else
    let now := !c.tt.sync.inverted
    let c := (c.setSync fun x => { x with reversals := 0, inverted := now }).setTt fun t => { t with syncReversed := now }
    if now then c.notice 133 0 else c

/-- A qualifying edge at a tick (R132, R134, R135); `interval` is the length of an expected interval. -/
def Chip.syncEdge (c : Chip) (tick interval : Nat) (pps : Bool) : Chip :=
  let x := c.tt.sync
  let w : Int := (c.turnPeriod / 8 : Nat)
  let e := c.edgeError tick
  let n := c.edgeInterval tick interval pps
  if x.lastInt = some n then c.bump rTT_SYNC_EXTRA
  else
    let c := c.setSync fun x => { x with lastInt := some n, missing := 0, ref := if x.ref.isNone && pps then some tick else x.ref }
    let spaced := match x.lastEdge with
      | some t => decide (interval ≤ tick - t + 1600) && decide (tick - t ≤ interval + 1600)
      | none => false
    let run := if spaced then x.consistent + 1 else 1
    let c := c.setSync fun y => { y with lastEdge := some tick, consistent := run, st := if y.st = .freerun then .acquire else y.st }
    let near := decide (-w ≤ e) && decide (e ≤ w)
    if x.st = .track then
      if near then (c.setSync fun y => { y with misses := 0 }).armAdjust tick e e
      else
        let c := (c.bump rTT_SYNC_MISS).setSync fun y => { y with misses := y.misses + 1 }
        if 8 ≤ c.tt.sync.misses then (c.setSync fun y => { y with st := .acquire, misses := 0, consistent := 0 }).notice 135 0 else c
    else if run < 3 then c
    else if near then (c.setSync fun y => { y with st := .track, misses := 0 }).armAdjust tick e e
    else c.armAdjust tick e (max (-w) (min e w))

/-- SYNC_PPS_EDGE (R132): the rising edge of a pulse of `high` ticks. -/
def execSyncPpsEdge (tick high : Nat) (s : State) : Host.Outcome State Fault Refusal :=
  s.run fun c =>
    if c.syncMode ≠ 1 ∨ c.tt.sync.st = .off then c
    else
      let c := (c.reachTick tick).polarity (decide (800 * tMs ≤ high))
      if tUs ≤ high ∧ high ≤ 200 * tMs then c.syncEdge tick tSec true else c

/-- SYNC_CODE_FRAME (R132): a frame whose rising edge came at a tick, as decoded with the polarity in force. -/
def execSyncCodeFrame (tick : Nat) (frame : List Byte) (s : State) : Host.Outcome State Fault Refusal :=
  s.run fun c =>
    if c.syncMode ≠ 2 ∨ c.tt.sync.st = .off then c
    else
      let c := (c.reachTick tick).polarity (fieldAt frame 0 1 == 0x5A)
      if frame.length = 7 ∧ fieldAt frame 0 1 = 0xA5 ∧ crc16 (frame.take 5) = fieldAt frame 5 2 then
        let c := if fieldAt frame 1 4 = c.tt.turnNum % 2 ^ 32 then c else c.bump rTT_SYNC_NUMERR
        c.syncEdge tick c.turnPeriod false
      else c

/-- SYNC_INTERVAL_MISSING (R135): an expected interval ended without a qualifying edge. -/
def execSyncIntervalMissing (s : State) : Host.Outcome State Fault Refusal :=
  s.run fun c =>
    let x := c.tt.sync
    if c.syncMode = 0 ∨ x.st = .off ∨ x.st = .freerun then c
    else
      let c := c.setSync fun y => { y with missing := y.missing + 1, consistent := 0 }
      if 4 ≤ x.missing + 1 then (c.setSync fun y => { y with st := .freerun, missing := 0 }).notice 135 1 else c

/-! ### Registers (R137) -/

/-- TT_NOW_LO_READ (R137): the read latches the high half. -/
def execTtNowLoRead (s : State) : Host.Outcome State Fault Refusal :=
  s.run fun c => c.setReg rTT_NOW_HI (c.now / 2 ^ 32)

/-- TT_CNTCLR (R137): writing 1 clears every saturating count of the block, TT_LOGLOST among them (log entry 84). -/
def Chip.clearTtCounts (c : Chip) (v : Nat) : Chip :=
  if v.testBit 0 then [rTT_SYNC_MISS, rTT_SYNC_EXTRA, rTT_SYNC_NUMERR, rTT_DEPREJ, rTT_LOGLOST].foldl (fun c r => c.setReg r 0) c else c

def execTtCntclr (value : Word) (s : State) : Host.Outcome State Fault Refusal := s.run fun c => c.clearTtCounts value.toNat

/-! ### Departures of threads (R190, R191) -/

/-- DARM (R190). -/
def execDarm (cell thread : Fin 64) (word : Qword) (s : State) : Host.Outcome State Fault Refusal :=
  let w := word.toNat
  s.run fun c => c.issue cell thread w 0x20 fun p t c =>
    let imm := wImm w
    let a := (t.sreg (wA w)).toNat
    let period := (t.sreg (wC w)).toNat % 2 ^ 32
    let rel := (wX w).testBit 0
    let q : DepReq :=
      { whenAt := if period = 0 then .once (if rel then (a + c.now) % 2 ^ 64 else a) else .periodic period a
        action := bitsOf imm 15 0, scope := bitsOf imm 31 16, order := bitsOf imm 47 32, arg := (t.opB w).toNat, log := imm.testBit 48
        src := .thread, armedBy := some (p.part.ring, p.part.seq) }
    let done := fun (st id : Nat) (c : Chip) =>
      let (v, c) := c.draw
      c.setThread cell thread fun t => (t.setS (wD w) (BitVec.ofNat 64 (id * 2 ^ 32 + v % 2 ^ 24 * 256 + st))).step
    if rel && period != 0 then done depInvalid 0xFFFFFFFF (c.refuseDep q depInvalid)
    else if scopeWide q.scope then
      let c := c.setThread cell thread fun t => { t with st := .waitArm, word := w }
      match c.armWide q (.thread cell thread) with
      | (some st, c) => done st 0xFFFFFFFF c
      | (none, c) => c
    else
      let (st, id, c) := c.armDep q
      done st id c

/-- DCAN (R191): a departure that a thread of the same task armed; a yard or partition departure is cancelled over the tree too. One that has
left its slot returns TOO_LATE (R124), also when it left by an earlier cancel (log entry 63). -/
def execDcan (cell thread : Fin 64) (word : Qword) (s : State) : Host.Outcome State Fault Refusal :=
  let w := word.toNat
  s.run fun c => c.issue cell thread w 0x21 fun p t c =>
    let id := (t.sreg (wA w)).toNat
    let done := fun (st : Nat) (c : Chip) => c.setThread cell thread fun t => (t.setS (wD w) (BitVec.ofNat 64 st)).step
    let mine := fun (d : Departure) => d.id == id && d.armedBy == some (p.part.ring, p.part.seq)
    match c.tt.deps.find? mine with
    | none =>
      match c.tt.spent.find? mine with
      | none => done depInvalid c
      | some d => done depTooLate (c.logDep depTooLate (c.depTick d) 0 id d)
    | some d =>
      match c.cancelDep id with
      | (false, c) => done depTooLate c
      | (true, c) =>
        let a : ArmRec :=
          { pkg := c.pkg, dep := id, yard := d.scope == 0x401, launch := c.now, time := 0, period := 0, action := d.action, scope := d.scope
            order := d.order, arg := d.arg, log := d.log }
        done depCancelled (if scopeWide d.scope then c.sendCancel a else c)

end Sys2Proof.Machine
end

