-- ==== Sys2Proof/Machine/RegRead.lean ====
section
/-! DEFINITION. What every control register reads (17_signal_box.md R453, R455 and the settings rules of every chapter). -/

namespace Sys2Proof.Machine

/-- Words of 32 bits of a 64-bit value. -/
def loWord (v : Nat) : Nat := v % 2 ^ 32
def hiWord (v : Nat) : Nat := v / 2 ^ 32 % 2 ^ 32
/-- One 32-bit word of a byte string. -/
def wordAt (b : List Byte) (k : Nat) : Nat := fieldAt b (4 * k) 4

/-! ### SB and NVM (R35, R36, R69, R71, R455) -/

def Otp.pkgId (o : Otp) : Nat :=
  packFields [(4, o.pdMinor), (4, o.pdStep), (4, o.dieMinor), (4, o.dieStep), (4, 0), (4, o.ship), (4, o.grade), (4, o.assy)]

/-- The stack positions of an assembly (R23). -/
def Otp.stackMask (o : Otp) : Nat := if o.assy = 2 then 0x77 else if o.assy = 3 then 0x66 else 0xFF

def Otp.fit (o : Otp) : Nat := packFields [(8, o.stackMask), (2, if o.assy = 4 then 1 else 3), (6, 0), (8, 0x24)]

def Chip.bootStat (c : Chip) : Nat :=
  packFields [(4, c.boot.strap), (4, min (c.boot.step - 2) 15), (8, c.boot.slotB), (8, c.boot.slotA), (8, c.boot.code)]

def Chip.bootFlags (c : Chip) : Nat :=
  let b := c.boot
  packFields [(2, b.attempt), (1, bit b.fallback), (1, bit b.degraded), (1, bit b.hbmShort), (1, bit b.linkShort), (1, bit b.freerun), (1, bit b.unanchored)]

/-- Cores that did not write their heartbeat in time stay LATE in the store's place of SB_CORESTAT (R436). -/
def Chip.coreStat (c : Chip) : Nat := c.ctl.run % 16 + bitsOf (c.reg rSB_CORESTAT) 7 4 * 16

/-! ### TT and ISL (R137, R138) -/

def Chip.ttStat (c : Chip) : Nat :=
  let t := c.tt
  packFields [(3, t.st.code), (1, 0), (4, t.depth), (5, (t.parent.map fun k => k / 2).getD 0x1F), (3, 0), (2, t.sync.st.code), (2, 0),
    (1, bit (3 < t.depth)), (1, bit t.gridMismatch), (1, bit t.syncReversed), (1, bit t.outFault)]

/-- The frequency of an island in MHz (R105, R106); a clock that is off is 0. -/
def Chip.islMhz (c : Chip) (n : Nat) : Nat :=
  if (c.island n).st = .closed then 0
  else if n = 0 then (if c.pwr.st = .standby ∨ c.pwr.st = .railWait then 25 else 1000)
  else if n = 1 then 1200 else if n = 10 then 2000 else if n = 11 then 1953 else if 12 ≤ n then 1562
  else (c.island n).running

def Chip.islClk (o : Otp) (c : Chip) (n : Nat) : Nat :=
  if absentIsland o n then 0 else packFields [(2, (c.island n).st.code), (14, 0), (12, c.islMhz n)]

/-! ### Cells (R164) -/

def Chip.cellStat (c : Chip) (n : Nat) : Nat :=
  let x := c.cell n
  let p := c.partAt n
  let f := fun (g : Part → Nat) => (p.map fun (s : PartState) => g s.part).getD 0
  packFields [(3, x.st.code), (5, f fun p => p.threads * p.acc), (8, f (·.vregs)), (8, f (·.threads))]

/-- Cycles of the platform's clock since it opened. -/
def Chip.cellCycles (c : Chip) (n : Nat) : Nat :=
  let i := c.island (cellIsland n)
  (i.cycles + (c.elapsed - i.cycAt) * i.running) / 16000

/-! ### MEM (R234) -/

def Chip.unbackedCount (c : Chip) : Nat := (c.allWagons.filter fun (e : Nat × ObjEntry) => decide ((c.mem.wagon e.1).loc = .unbacked)).length

def Chip.memStat (c : Chip) : Nat :=
  let up := maskOf ([0, 1].filter fun n => c.im.fxMode n == 2 && (c.fx n).link == 2)
  packFields [(1, bit (!c.mem.moves.isEmpty)), (1, bit (0 < c.unbackedCount)), (1, bit (decide (c.mem.hbmFree < c.lowWater))), (5, 0), (2, up), (6, 0),
    (8, c.regField rMEM_STAT 23 16)]

/-- A register of MEM, by its address. -/
def Chip.memReg (c : Chip) (a : Nat) : Nat :=
  let m := c.mem
  if a = rMEM_STAT then c.memStat
  else if a = rMEM_HBMFREE then m.hbmFree
  else if a = rMEM_SDGFREE then m.sdgFree
  else if a = rMEM_MIGUP then m.migUp
  else if a = rMEM_MIGDN then m.migDn
  else if a = rMEM_MIGSTALL then min m.migStall (2 ^ 32 - 1)
  else if a = rMEM_UNCERT then m.uncertainCount
  else if a = rMEM_UNBACKED then c.unbackedCount
  else if a = rMEM_DHIT then m.hits
  else if a = rMEM_DMISS then m.misses
  else if a = rMEM_ECC then packFields [(16, min m.eccUncorr 0xFFFF), (16, min m.eccCorr 0xFFFF)]
  else if a = rMEM_POISONADDR_LO then loWord ((m.poisonAddr.map (globalAddr c.pkg)).getD 0)
  else if a = rMEM_POISONADDR_HI then hiWord ((m.poisonAddr.map (globalAddr c.pkg)).getD 0)
  else 0

/-! ### Rings and the dispatcher (R265, R285) -/

def Chip.ringState (c : Chip) (r : Nat) : Nat :=
  let x := c.ring r
  packFields [(2, x.st.code), (2, 0), (2, if x.drainSince.isSome then 1 else if x.st = .flushing then 2 else 0), (1, bit (c.ringAlert r)), (1, bit x.anyHeld)]

def Chip.ringReg (c : Chip) (a : Nat) : Nat :=
  let r := (a - rRING_CFG) / 0x20
  let x := c.ring r
  match (a - rRING_CFG) % 0x20 / 4 with
  | 3 => c.ringState r
  | 4 => x.resv
  | 5 => x.cmt
  | 6 => x.take
  | 7 => x.free
  | _ => c.reg a

def Chip.dspReg (c : Chip) (a : Nat) : Nat :=
  let sel := c.ring (c.reg rDSP_RSEL)
  if a = rDSP_STAT then
    packFields [(7, ((List.range 64).filter fun n => decide ((c.cell n).st = .run) || decide ((c.cell n).st = .switch)).length), (9, 0), (8, c.framesUsed)]
  else if a = rDSP_RCNT0 then packFields [(16, min sel.dbRefused 0xFFFF), (16, min sel.voids 0xFFFF)]
  else if a = rDSP_RCNT1 then min sel.complLost 0xFFFF
  else if rDSP_WSET ≤ a ∧ a < rDSP_WSET + 256 then
    let w := c.disp.wsets.getD ((a - rDSP_WSET) / 16) {}
    match (a - rDSP_WSET) % 16 / 4 with
    | 0 => packFields [(16, w.id), (2, w.st.code)]
    | 1 => w.bytes
    | 2 => w.dst
    | _ => 0
  else c.reg a

/-! ### Sequences and the turntable (R306, R333) -/

def Chip.seqReg (c : Chip) (a : Nat) : Nat :=
  let e := c.seq
  if a = rSEQ_STAT then packFields [(1, bit c.seqPlan.isSome), (1, bit e.busy.isSome), (1, bit e.headWait)]
  else if a = rSEQ_PARKFREE then (match c.seqPlan with | some p => c.parkFree p | none => 0)
  else if a = rSEQ_LIVE then e.live.length
  else if a = rSEQ_QUEUED then e.queue.length
  else if a = rSEQ_HELD then (e.live.filter fun s => decide (s.st = .held) && !s.cancel).length
  else c.reg a

def Chip.trnReg (c : Chip) (a : Nat) : Nat :=
  if a = rTRN_STAT then
    packFields [(16, maskOf ((List.range 16).filter fun n => (c.trnCh n).shown != .idle)), (1, bit c.im.trnPlan.isSome)]
  else
    let x := c.trnCh ((a - rTRN_CH_CUR) / 32)
    match (a - rTRN_CH_CUR) % 32 / 4 with
    | 0 => x.current
    | 1 => x.other
    | 2 => x.shownStage
    | 3 => packFields [(3, x.shown.code), (1, x.curBank), (20, 0), (8, x.lastFail)]
    | _ => c.reg a

/-! ### Links (R363, R364) -/

/-- LNK_STAT of a stream. -/
def Chip.lnkStat (c : Chip) (l h : Nat) : Nat :=
  let x := c.half l h
  let kind := (c.plan l).kind
  let tx := popCount 4 x.txMask
  let rx := popCount 4 x.rxMask
  let up := x.st == .up || x.st == .widthchg
  let degraded := up && kind != 0 && (decide (tx < maxLanes kind) || decide (rx < maxLanes kind))
  packFields [(8, 0), (8, x.lastFail), (3, if up then rx else 0), (1, 0), (3, if up then tx else 0), (1, 0), (1, bit x.mismatch), (1, bit degraded),
    (3, kind), (3, x.st.code)]

def Chip.lnkPeer (c : Chip) (l h : Nat) : Nat := packFields [(8, 0), (5, (c.half l h).peerLink), (3, 0), (12, (c.half l h).peerPkg)]

def laneByte (k : Lane) (rx : Bool) : Nat := packFields [(3, k.status), (1, if rx then bit k.inverted else 0), (2, k.logical), (2, 0)]
def laneWord (l : List Lane) (rx : Bool) : Nat := packFields ((List.range 4).map fun k => (8, laneByte (l.getD k {}) rx))

def Chip.lnkReg (c : Chip) (a : Nat) : Nat :=
  let l := (a - rLNK_STAT) / 0x800
  let split := (c.plan l).kind == 3
  match (a - rLNK_STAT) % 0x800 / 4 with
  | 0 => c.lnkStat l 0
  | 1 => c.lnkPeer l 0
  | 2 => laneWord (c.link l).tx false
  | 3 => laneWord (c.link l).rx true
  | 4 => if split then c.lnkStat l 1 else 0
  | 5 => if split then c.lnkPeer l 1 else 0
  | 15 => packFields [(16, (c.half l 0).rxLatLast), (16, (c.stampLane l 0).lat)]
  | _ => c.reg a

/-! ### Collectives and ports (R386, R406) -/

def Chip.treeStat (c : Chip) (t : Nat) : Nat :=
  if c.image.isNone then 0x1F
  else if !(c.im.trees.any fun e => e.tree == t) then 0
  else packFields [(5, ((c.im.treeParent t c.pkg).map fun (e : Nat × Nat) => e.1).getD 0x1F), (3, c.im.treeDepth t 16 c.pkg), (2, c.treeState t none)]

/-- Express collectives whose lines are held, from arming until completion (R376). -/
def Chip.colHeld (c : Chip) : Nat :=
  (c.col.armed.filter fun (e : Nat × ColDesc × Bool) => e.2.2).length + (c.col.launches.filter (·.held)).length

def Chip.colReg (c : Chip) (a : Nat) : Nat :=
  if a = rCOL_STAT then
    let live := c.col.insts.filter fun i => i.desc.isSome && !i.finished
    packFields [(10, live.length), (6, 0), (7, c.colHeld)]
  else if rCOL_TREE_STAT ≤ a then c.treeStat ((a - rCOL_TREE_STAT) / 4)
  else c.reg a

def Chip.portReg (o : Otp) (c : Chip) (a : Nat) : Nat :=
  let n := (a - rPORT_FX_STAT) % 0x100 / 0x40
  let x := c.fx n
  let e := c.eth n
  let w := c.ports.wall
  if a = rPORT_WALL then loWord w.1
  else if a = rPORT_WALL + 4 then hiWord w.1
  else if a = rPORT_WALL + 8 then loWord w.2
  else if a = rPORT_WALL + 12 then hiWord w.2
  else if rPORT_ETH_STAT ≤ a then packFields [(1, bit e.up), (1, bit e.ptpLocked), (1, bit (e.up && fieldAt (c.im.ethEntry n) 1 1 != 0xFF))]
  else if a % 0x40 = 0 then packFields [(3, x.link), (5, x.width), (4, x.speed), (2, c.im.fxMode n)]
  else if a % 0x40 = 4 then o.portId.toNat
  else c.reg a

/-! ### Amendments, power and faults (R429, R506, R554, R589) -/

def Chip.amdReg (c : Chip) (a : Nat) : Nat :=
  let m := c.amd
  if a = rAMD_STAT then packFields [(3, m.procs.length), (13, 0), (9, m.pendingB.length)]
  else if a = rAMD_EPOCH_LO then loWord m.epoch
  else if a = rAMD_EPOCH_HI then hiWord m.epoch
  else if a = rAMD_SINCE_LO then loWord m.since
  else if a = rAMD_SINCE_HI then hiWord m.since
  else c.reg a

/-- PWR_STAT; CLOSED holds its reset value until the image is applied (R15). -/
def Chip.pwrStat (o : Otp) (c : Chip) : Nat :=
  let p := c.pwr
  let waking := p.st == .exiting || p.st == .railWait || (c.boot.wake && decide (c.boot.step < 15) && !c.boot.stopped)
  packFields [(2, c.pstate o), (2, 0), (1, bit (p.st == .entering || p.waitDebug.isSome)), (1, bit waking), (2, 0), (3, p.lastWake), (5, 0),
    (14, if c.image.isNone then 0 else maskOf ((List.range 14).filter fun n => n != 0 && !c.islOpen n))]

def Chip.pwrThr (c : Chip) : Nat :=
  let p := c.pwr
  packFields [(1, bit c.throttled), (1, bit (p.pgate || p.sgate)), (1, bit p.hbmHot), (1, bit p.hbm2x), (1, bit p.portHot), (3, 0),
    (8, maskOf ((List.range 8).filter c.hotPlat))]

def Chip.pwrReg (o : Otp) (c : Chip) (a : Nat) : Nat :=
  if a = rPWR_STAT then c.pwrStat o else if a = rPWR_THR then c.pwrThr else if a = rPWR_PCEIL then c.pwr.pceil else c.reg a

def Chip.fltStat (c : Chip) : Nat :=
  let f := c.flt
  packFields [(7, f.queue.length), (17, 0), (2, min f.stack.length 3), (3, c.faultHighest), (1, bit f.pstop), (1, bit f.stop), (1, bit f.latch)]

def Chip.fltReg (c : Chip) (a : Nat) : Nat :=
  let f := c.flt
  if a = rFLT_STAT then c.fltStat
  else if a = rFLT_RECNO then f.recNo
  else if a = rFLT_RET then packFields [(6, f.retNext), (2, 0), (1, bit f.frozen)]
  else if rFLT_ACT_SCOPE ≤ a ∧ a < rFLT_ACT_SCOPE + 24 then
    match f.stack[(a - rFLT_ACT_SCOPE) / 8]? with
    | none => 0
    | some h => if a % 8 = 0 then packFields [(14, h.scope.id c.pkg), (10, 0), (3, h.scope.kind), (2, 0), (3, h.sev)] else h.recNo
  else c.reg a

/-! ### WEAR (R567) -/

def Chip.wearReg (c : Chip) (a : Nat) : Nat :=
  let w := c.wear
  let e : WearPred := (w.eol.map fun k => w.preds.getD k {}).getD {}
  if a = rWEAR_STAT then
    packFields [(1, bit w.restored), (1, bit w.eol.isSome), (1, bit (w.stale || (c.image.isSome && !c.islOpen 1))), (5, 0), (1, 0), (1, 0), (6, 0), (4, w.crossed), (4, 0), (4, w.inNotice), (3, 0),
      (1, bit c.wearNotice)] + (w.eol.getD 0) % 4 * 256
  else if a = rWEAR_EOL then e.median
  else if a = rWEAR_BAND then packFields [(16, e.p10), (16, e.p90)]
  else if a = rWEAR_AGE then w.age / (3600 * tSec)
  else if rWEAR_CRIT ≤ a ∧ a < rWEAR_CRIT + 32 then
    let p : WearPred := w.preds.getD ((a - rWEAR_CRIT) / 8) {}
    if a % 8 = 0 then packFields [(16, p.p10), (16, p.median)] else p.p90
  else if rWEAR_FLASH ≤ a ∧ a < rWEAR_FLASH + 12 then c.erasesOf ((a - rWEAR_FLASH) / 4)
  else c.reg a

/-! ### SEC and DBG (R529, R530) -/

def Otp.slotMask (o : Otp) (p : KeySlot → Bool) : Nat := maskOf ((List.range 16).filter fun n => p (o.slots.getD n {}))
def Otp.kekMask (o : Otp) (p : KekSlot → Bool) : Nat := maskOf ((List.range 4).filter fun n => p (o.keks.getD n {}))

def secReg (o : Otp) (c : Chip) (a : Nat) : Nat :=
  if a = rSEC_LC then o.lc
  else if a = rSEC_KSSTAT then packFields [(16, o.slotMask (·.programmed)), (16, o.slotMask (·.revoked))]
  else if a = rSEC_KEKSTAT then packFields [(4, o.kekMask (·.programmed)), (4, o.kekMask (·.erased))]
  else if a = rSEC_RBFLOOR then o.floor
  else if a = rSEC_RBLEFT then 16 - o.rollback.length
  else if a = rSEC_GO then 0
  else if a = rSEC_IDCODE then o.idcode.toNat
  else if rSEC_DEVID ≤ a ∧ a < rSEC_DEVID + 16 then wordAt o.deviceId ((a - rSEC_DEVID) / 4)
  else if rSEC_MLOG ≤ a ∧ a < rSEC_MLOG + 48 then wordAt c.sec.log ((a - rSEC_MLOG) / 4)
  else c.reg a

/-- Session seconds left (R530). -/
def Chip.dbgSecs (c : Chip) : Nat :=
  let d := c.sec.dbg
  if d.level = 0 then 0 else if d.free then 65535 else min (ceilDiv (d.endAt - c.elapsed) tSec) 65535

def Chip.dbgReg (c : Chip) (a : Nat) : Nat :=
  let d := c.sec.dbg
  if a = rDBG_STAT then packFields [(2, d.level), (1, bit c.pwr.waitDebug.isSome), (5, 0), (8, d.reason), (16, c.dbgSecs)]
  else if a = rDBG_PERMIT then d.permit
  else if a = rDBG_HALTED_LO then loWord c.haltedCells
  else if a = rDBG_HALTED_HI then hiWord c.haltedCells
  else if a = rDBG_CORE then packFields [(4, d.coreHalt), (4, d.cores)]
  else if rDBG_CHAL ≤ a ∧ a < rDBG_CHAL + 32 then (match d.nonce with | some n => wordAt n ((a - rDBG_CHAL) / 4) | none => 0)
  else c.reg a

/-! ### PIN and LAMP (R481, R482) -/

/-- The pins with a property, as a mask. -/
def pinMask (p : Nat → Bool) : Nat := maskOf ((List.range 48).filter p)

def Chip.pinLevels (c : Chip) : Nat := pinMask c.padLevel
def Chip.pinFaults (c : Chip) : Nat := pinMask fun n => (c.pin n).fault

def Chip.pinReg (c : Chip) (a : Nat) : Nat :=
  if a < rPIN_CFG + 48 * 16 then
    let n := (a - rPIN_CFG) / 16
    let p := c.pin n
    match a % 16 / 4 with
    | 0 => p.cfg.word
    | 1 => loWord p.cfg.param
    | 2 => hiWord p.cfg.param
    | _ => packFields [(1, bit (c.padLevel n)), (1, bit (!c.pinDrives n)), (1, bit (p.change.isSome && decide (0 < p.phase))), (1, bit p.fault)]
  else if a = rPIN_GPIO_IN_LO then loWord c.pinLevels
  else if a = rPIN_GPIO_IN_HI then hiWord c.pinLevels
  else if a = rPIN_FAULTS_LO then loWord c.pinFaults
  else if a = rPIN_FAULTS_HI then hiWord c.pinFaults
  else c.reg a

def Chip.lampStat (c : Chip) : Nat :=
  let l := c.lamp
  let thresh := c.regField rLAMP_CFG 7 0
  packFields [(3, l.rx.code), (1, 0), (1, bit (c.pin 40).fault), (1, bit l.session.isSome), (1, bit l.absent),
    (1, bit (decide (thresh * 10 < l.tracker * 13))), (8, 0), (8, l.tracker), (8, l.lastAbort)]

/-! ### Every register -/

/-- The blocks of I1: SB, DBG, AMD and NVM. -/
def Chip.regI1 (o : Otp) (c : Chip) (a : Nat) : Nat :=
  match a / 65536 with
  | 0x100 =>
    if a = rSB_PKGID then o.pkgId else if a = rSB_FIT then o.fit else if a = rSB_BOOTSTAT then c.bootStat else if a = rSB_BOOTFLAGS then c.bootFlags
    else if a = rSB_CORESTAT then c.coreStat else c.reg a
  | 0x108 => c.dbgReg a
  | 0x10B => c.amdReg a
  | _ => c.reg a

/-- The blocks of I0: TT, ISL, PWR, FLT, WEAR, SEC, PIN and LAMP. -/
def Chip.regI0 (o : Otp) (c : Chip) (a : Nat) : Nat :=
  match a / 65536 with
  | 0x101 =>
    if a = rTT_NOW_LO then loWord c.now else if a = rTT_STAT then c.ttStat
    else if a = rTT_TURNNUM_LO then loWord c.tt.turnNum else if a = rTT_TURNNUM_HI then hiWord c.tt.turnNum
    else if a = rTT_GRID_LO then loWord c.tt.boundary else if a = rTT_GRID_HI then hiWord c.tt.boundary
    else if a = rTT_DEP then packFields [(16, c.tt.deps.length), (16, max (c.reg rTT_DEP) c.tt.deps.length)]
    else c.reg a
  | 0x102 => if a % 8 = 0 then c.islClk o ((a - rISL_CLK) / 8) else if absentIsland o ((a - rISL_CLK) / 8) then 0 else c.reg a
  | 0x103 => c.pwrReg o a
  | 0x105 => c.fltReg a
  | 0x106 => c.wearReg a
  | 0x107 => secReg o c a
  | 0x109 => c.pinReg a
  | 0x10A => if a = rLAMP_STAT then c.lampStat else c.reg a
  | _ => c.reg a

/-- The blocks of I10, the port dies and the cells. -/
def Chip.regRest (o : Otp) (c : Chip) (a : Nat) : Nat :=
  if 0x03000000 ≤ a then
    (if a % 65536 = 0 then c.cellStat ((a - rCELL_STAT) / 65536) else if a % 65536 = 0x10 then c.cellCycles ((a - rCELL_STAT) / 65536) else c.reg a)
  else if 0x02000000 ≤ a then c.ringReg a
  else match a / 65536 with
    | 0x10C => c.dspReg a
    | 0x10D => c.seqReg a
    | 0x10E => c.trnReg a
    | 0x10F => (match regSpecAt a with | some s => if s.derived then c.memReg a else c.reg a | none => 0)
    | 0x110 => if a = rLNK_RTSTAT then c.unreachable else if rLNK_RTSTAT < a then c.reg a else c.lnkReg a
    | 0x111 => c.colReg a
    | 0x112 => (match regSpecAt a with | some s => if s.derived then c.portReg o a else c.reg a | none => 0)
    | _ => c.reg a

/-- The current value of the register at an address, reserved fields 0. -/
def Chip.regNow (o : Otp) (c : Chip) (a : Nat) : Nat :=
  match regSpecAt a with
  | none => 0
  | some s =>
    let v := match a / 65536 with
      | 0x100 | 0x108 | 0x10B | 0x113 => c.regI1 o a
      | _ => if 0x1010000 ≤ a ∧ a < 0x10B0000 then c.regI0 o a else c.regRest o a
    v % 2 ^ 32 &&& (s.wo.toNat ^^^ 0xFFFFFFFF)

/-- The read-only pairs, by the address of _LO (R453): a read of it latches _HI. -/
def latchedPairs : List Nat :=
  [rTT_NOW_LO, rTT_TURNNUM_LO, rTT_GRID_LO, rAMD_EPOCH_LO, rAMD_SINCE_LO, rMEM_POISONADDR_LO, rPORT_WALL, rPORT_WALL + 8,
   rPIN_GPIO_IN_LO, rPIN_FAULTS_LO, rDBG_HALTED_LO]

/-- CELL_BANKSTALL of some cell. -/
def isBankStall (a : Nat) : Bool := decide (rCELL_BANKSTALL ≤ a) && decide (a < rCELL_BANKSTALL + 64 * 0x10000) && (a - rCELL_BANKSTALL) % 0x10000 == 0

/-- The cycles that requesters lost to others since the last read are a free number (R151; log entry 75). -/
def Chip.countStalls (c : Chip) (a : Nat) : Chip :=
  let (n, c) := c.draw
  c.bumpBy a n

/-- What a read of a register returns, and what it changes: pairs latch, DBG_DATA moves on, and lost cycles have been counted. -/
def Chip.regRead (o : Otp) (c : Chip) (a : Nat) : Nat × Chip :=
  if a = rTT_NOW_LO then (loWord c.now, c.setReg rTT_NOW_HI (hiWord c.now))
  else if a = rDBG_DATA then c.dbgData false 0
  else if isBankStall a then ((c.countStalls a).reg a, c.countStalls a)
  else if latchedPairs.contains a then (c.regNow o a, c.setReg (a + 4) (c.regNow o (a + 4)))
  else if latchedPairs.contains (a - 4) then (c.reg a, c)
  else (c.regNow o a, c)

end Sys2Proof.Machine
end

