-- ==== Sys2Proof/Machine/ControlOps.lean ====
section
/-! DEFINITION. The control bus matrix: targets, paths, decode errors, closed islands, and what a register write does
(17_signal_box.md R437–R451; 00_scope.md R13–R17; 20_security_and_debug.md R518). -/

namespace Sys2Proof.Machine

def Chip.setCtl (c : Chip) (f : Ctl → Ctl) : Chip := { c with ctl := f c.ctl }

/-- An access of a master (R442). `sets` are the W1C bits that hardware sets at the edge of a write (R16). `foreign` says that a global control address named another package or an OFFSET beyond 32 bits. -/
structure Access where
  master : Nat
  foreign : Bool := false
  addr : Nat
  size : Nat := 4
  write : Bool := false
  fetch : Bool := false
  data : Nat := 0
  sets : Nat := 0
  deriving DecidableEq, Repr

/-! ### Targets (R438, R441) -/

def blockTarget (a : Nat) : Nat :=
  let blk := a / 65536
  if blk = 0x100 ∨ blk = 0x108 ∨ blk = 0x10B ∨ blk = 0x113 then 2
  else if blk < 0x10B then 3
  else if regIsland a = 12 then 5
  else if regIsland a = 13 then 6
  else if 0x300 ≤ blk then 7
  else 4

def Chip.remap (c : Chip) : Bool := (c.reg rSB_REMAP).testBit 0

/-- The target that an address decodes to. -/
def Chip.target (o : Otp) (c : Chip) (a : Nat) : Option Nat :=
  if a < 0x00100000 then (if c.remap then some 1 else if a < 0x00040000 then some 0 else none)
  else if a < 0x00140000 then some 0
  else if 0x00200000 ≤ a ∧ a < 0x00300000 then some 1
  else if 0x40000000 ≤ a ∧ a < 0x80000000 then some 8
  else if (regSpecAt (a / 4 * 4)).isSome && !absentReg o a then some (blockTarget a)
  else none

/-- The island of a target's unit. -/
def targetIsland (t a : Nat) : Nat := if t ≤ 1 then 1 else if t = 8 then 10 else regIsland a

/-- The path table (R444). -/
def hasPath (m t a : Nat) (write : Bool) : Bool :=
  if m < 4 then t != 0 || !write
  else if m = 4 then t != 0
  else if m = 5 then write && decide (2 ≤ t) && decide (t ≤ 7)
  else if m = 6 then t == 4 && !write && decide (rRING_CFG ≤ a)
  else write && (t == 1 || t == 8)

/-! ### Decode errors (R449) -/

def sizeOk (t : Nat) (x : Access) : Bool :=
  if t ≤ 1 ∨ t = 8 then x.size ∈ [1, 2, 4, 8] && x.addr % (max x.size 1) == 0 else x.size == 4 && x.addr % 4 == 0

/-- The first cause that holds, in the order of the table; 0 where none does. -/
def Chip.decodeCause (o : Otp) (c : Chip) (x : Access) : Nat :=
  if x.foreign ∨ 2 ^ 32 ≤ x.addr then 6
  else match c.target o x.addr with
    | none => 1
    | some t =>
      if x.fetch ∧ 1 < t then 5
      else if !sizeOk t x then 3
      else if x.write ∧ t = 0 then 4
      else if !hasPath x.master t x.addr x.write then 2
      else if x.master = 4 ∧ !c.gateOpen x.write (t == 1) x.addr x.data then 7
      else 0

/-- A decode error: reads return 0, and the access is recorded with at most one notice a master a turn. -/
def Chip.decodeError (c : Chip) (x : Access) (cause : Nat) : Chip :=
  let c := c.setReg rSB_DECERR (2 ^ 31 + bit x.write * 2 ^ 30 + x.master % 8 * 256 + cause)
  let c := ((c.setReg rSB_DECADDR x.addr).bump rSB_DECCNT).setCtl fun k => { k with answer := leBytes x.size 0 }
  if c.ctl.noticed.testBit x.master then c
  else (c.setCtl fun k => { k with noticed := k.noticed ||| 2 ^ x.master }).notice 449 (x.master + cause * 256 + x.addr % 2 ^ 32 * 65536)

/-- An access whose unit's island is not OPEN (R450). -/
def Chip.closedAccess (c : Chip) (x : Access) : Chip :=
  (c.bump rSB_CLOSEDACC).setCtl fun k => { k with answer := leBytes x.size 0 }

/-! ### Register writes (R14, R16, R17) -/

/-- The value a register holds after a write of its RW and W1C bits. A W1C bit that hardware sets at the same edge reads 1 (R16). -/
def RegSpec.after (s : RegSpec) (old v sets : Nat) : Nat :=
  let rw := s.rw.toNat
  let kept := (old &&& (rw ^^^ 0xFFFFFFFF)) ||| (v &&& rw)
  (kept &&& ((v &&& s.w1c.toNat) ^^^ 0xFFFFFFFF)) ||| (sets &&& s.w1c.toNat)

/-- REMAP is set by a 1 and cleared by t0 alone (R441). -/
def Chip.remapWrite (c : Chip) (v : Nat) : Chip := if v.testBit 0 then c.setReg rSB_REMAP 1 else c

/-- Heartbeats (R436). -/
def Chip.heartbeat (c : Chip) (v : Nat) : Chip :=
  c.setCtl fun k => { k with beats := k.beats.zipIdx.map fun (e : Nat × Nat) => if v.testBit e.2 then c.elapsed else e.1 }

/-- The action of a write-only register, and of registers whose write is more than a value. -/
def Chip.regAction (o : Otp) (c : Chip) (a v : Nat) (valid : List SigCheck) : Option Chip :=
  if a = rSB_REMAP then some (c.remapWrite v)
  else if a = rSB_HBEAT then some (c.heartbeat v)
  else if a = rTT_CNTCLR then some (c.clearTtCounts v)
  else if a = rMEM_UCLR_LO then some (c.setReg a v)
  else if a = rMEM_UCLR_HI then some (c.uclr (c.reg rMEM_UCLR_LO + v * 2 ^ 32))
  else if a = rLAMP_RSEND then some (c.lampRsend v)
  else if a = rDBG_CHALREQ then some (if v.testBit 0 then c.dbgChallenge else c)
  else if a = rDBG_REQ then some (c.dbgRequest o v valid)
  else if a = rDBG_HALT_LO then some (c.dbgHalt 0 v)
  else if a = rDBG_HALT_HI then some (c.dbgHalt 32 v)
  else if a = rDBG_CORE then some (c.dbgCore v)
  else if a = rDBG_DATA then some (c.dbgData true v).2
  else none

/-- A write to a register by a master that is not the applier. A write on an AM field changes nothing and is noticed (R17). -/
def Chip.regWrite (o : Otp) (c : Chip) (writer a v sets : Nat) (valid : List SigCheck) : Chip :=
  match regSpecAt a with
  | none => c
  | some s =>
    match c.regAction o a v valid with
    | some c => c
    | none =>
      let c := if s.rw = 0 ∧ s.w1c = 0 then c else c.setReg a (s.after (c.reg a) v sets)
      if s.am = 0 then c else c.notice 17 (writer + a * 65536)

/-! ### The memory regions (R438–R441) -/

def romWord (a n : Nat) : List Byte := (List.range n).map fun k => Config.romByte (a % 0x40000 + k)

def Chip.sramWrite (c : Chip) (a : Nat) (bs : List Byte) : Chip :=
  let addrs := (List.range bs.length).map fun i => a % 0x100000 + i
  c.setCtl fun k => { k with
    sram := addrs.zipIdx.foldl (fun m (e : Nat × Nat) => sput 0 m e.1 (bs.getD e.2 0)) k.sram
    handed := k.handed ++ addrs.filter fun x => k.hand.isSome && decide (0xF0000 ≤ x) && decide (x ∉ k.handed) }

/-- Read working SRAM. What the boot ROM wrote into the hand-over block is a free value (R90). -/
def Chip.sramRead (c : Chip) (a n : Nat) : List Byte :=
  (List.range n).map fun i =>
    let x := a % 0x100000 + i
    match c.ctl.hand with
    | some d => if decide (0xF0000 ≤ x) && decide (x ∉ c.ctl.handed) then Config.handByte d x else sget 0 c.ctl.sram x
    | none => sget 0 c.ctl.sram x

/-- PKG and BASE of a bridge window. -/
def Chip.bridgePkg (c : Chip) (n : Nat) : Nat := c.regField (rSB_BRIDGE_HI + 8 * n) 29 18
def Chip.bridgeBase (c : Chip) (n : Nat) : Nat := c.reg (rSB_BRIDGE_LO + 8 * n) / 2 ^ 28 * 2 ^ 28 + c.regField (rSB_BRIDGE_HI + 8 * n) 17 0 * 2 ^ 32

/-- A bridged access (R440). What another package answers comes with the command: the bytes read, or nothing where it failed (log entry 3). -/
def Chip.bridge (c : Chip) (x : Access) (far : Option (List Byte)) : Chip :=
  let n := x.addr / 2 ^ 28 % 4
  let off := c.bridgeBase n + x.addr % 2 ^ 28
  let fail := fun (cause : Nat) => (c.bridgeFail n cause).setCtl fun k => { k with answer := leBytes x.size 0 }
  if c.bridgePkg n ≠ c.pkg then
    match (if c.reachable false (c.bridgePkg n) then far else none) with
    | none => fail 5
    | some b => c.setCtl fun k => { k with answer := if x.write then leBytes x.size 0 else (b ++ leBytes x.size 0).take x.size }
  else match c.bridgeCause off x.size with
    | some cause => fail cause
    | none =>
      if x.write then (c.memWrite off (leBytes x.size x.data)).setCtl fun k => { k with answer := leBytes x.size 0 }
      else
        let r := c.memRead off x.size
        r.2.2.setCtl fun k => { k with answer := r.1 }

/-! ### An access -/

/-- A control access that meets no cause, to an OPEN island. The applier's writes come with its amendments. -/
def Chip.serve (o : Otp) (c : Chip) (x : Access) (t : Nat) (valid : List SigCheck) (far : Option (List Byte)) : Chip :=
  if x.master = 5 then c
  else if t = 0 then c.setCtl fun k => { k with answer := romWord x.addr x.size }
  else if t = 1 then
    (if x.write then c.sramWrite x.addr (leBytes x.size x.data) else c.setCtl fun k => { k with answer := c.sramRead x.addr x.size })
  else if t = 8 then c.bridge x far
  else if x.write then c.regWrite o x.master x.addr (x.data % 2 ^ 32) x.sets valid
  else
    let r := c.regRead o x.addr
    r.2.setCtl fun k => { k with answer := leBytes 4 r.1 }

/-- A control access (R437–R450). Without I1 there is no matrix to make it. -/
def Chip.access (o : Otp) (c : Chip) (x : Access) (valid : List SigCheck) (far : Option (List Byte)) : Chip :=
  if !c.islOpen 1 then c
  else
    let cause := c.decodeCause o x
    if cause ≠ 0 then c.decodeError x cause
    else match c.target o x.addr with
      | none => c
      | some t => if targetIsland t x.addr != 0 && !c.islOpen (targetIsland t x.addr) then c.closedAccess x else c.serve o x t valid far

/-! ### The mirrors of Ohmax (R391, R435, R565) -/

/-- What the status window shows of this package, but for PORT_FXn_STAT. -/
def Chip.statusMirror (o : Otp) (c : Chip) : List Byte :=
  [rSB_PKGID, rSB_FIT, rSB_BOOTSTAT, rSB_BOOTFLAGS, rSB_BOOTTIME, rNVM_IMGID, rNVM_IMGID + 4, rNVM_IMGID + 8, rNVM_IMGID + 12, rNVM_RUNSEQ, rNVM_RUNSECVER,
   rNVM_RUNSIG, rTT_STAT].flatMap fun a => leBytes 4 (c.regNow o a)

end Sys2Proof.Machine
end

