-- ==== Sys2Proof/Machine/Control.lean ====
section
/-! DEFINITION. Accesses to the control space, heartbeats and the watchdog, and the calls of Ohmax (17_signal_box.md R433–R451). -/

namespace Sys2Proof.Machine

/-- CONTROL_REGISTER_WRITE (R14): a master writes a 32-bit value. The verdicts are those of a token that the write asks to check
(log entry 3), and `sets` the W1C bits of the register that hardware sets at the same edge (R16). -/
def execControlRegisterWrite (master : Fin 8) (addr value sets : Word) (valid : List SigCheck) (s : State) : Host.Outcome State Fault Refusal :=
  s.runO fun o c => c.access o { master := master, addr := addr.toNat, write := true, data := value.toNat, sets := sets.toNat } valid none

/-- CONTROL_DECODE_ERROR (R449): an access of any size, direction and target; one that meets no cause is served. -/
def execControlDecodeError (master : Fin 8) (foreign : Bool) (addr : Nat) (size : Nat) (write fetch : Bool) (data : Dword) (s : State) :
    Host.Outcome State Fault Refusal :=
  s.runO fun o c => c.access o { master := master, foreign := foreign, addr := addr, size := size, write := write, fetch := fetch, data := data.toNat } [] none

/-- CLOSED_ISLAND_ACCESS (R450): a register access to a unit whose island is not OPEN is answered at once. -/
def execClosedIslandAccess (master : Fin 8) (addr : Word) (write : Bool) (data : Word) (s : State) : Host.Outcome State Fault Refusal :=
  s.runO fun o c => c.access o { master := master, addr := addr.toNat, write := write, data := data.toNat } [] none

/-- BRIDGE_ACCESS (R440): an access through bridge window `window` at an offset. -/
def execBridgeAccess (master : Fin 8) (window : Fin 4) (off : BitVec 28) (size : Nat) (write : Bool) (data : Dword) (far : Option (List Byte)) (s : State) :
    Host.Outcome State Fault Refusal :=
  s.runO fun o c => c.access o { master := master, addr := 0x40000000 + window * 2 ^ 28 + off.toNat, size := size, write := write, data := data.toNat } [] far

/-- SB_REMAP_WRITE (R441). -/
def execSbRemapWrite (value : Word) (s : State) : Host.Outcome State Fault Refusal :=
  s.run fun c => if c.islOpen 1 then c.remapWrite value.toNat else c

/-- SB_HBEAT_WRITE (R436). -/
def execSbHbeatWrite (value : Word) (s : State) : Host.Outcome State Fault Refusal :=
  s.run fun c => if c.islOpen 1 then c.heartbeat value.toNat else c

/-- CORE_WATCHDOG_EXPIRY (R436, R546): a core silent for 100 ms after the first turn boundary. -/
def execCoreWatchdogExpiry (core : Fin 4) (s : State) : Host.Outcome State Fault Refusal :=
  s.run fun c =>
    if c.boot.step < 18 ∨ !c.islOpen 1 ∨ c.flt.latch then c
    else
      let c := c.passTo (c.ctl.beats.getD core.val 0 + 100 * tMs)
      (c.setField rSB_CORESTAT 7 4 (c.regField rSB_CORESTAT 7 4 ||| 2 ^ core.val)).takeLatch 0x34

/-! ### OHMAX_CALL (R126, R435) -/

/-- TELEMETRY_SNAPSHOT (R391, R435): the status mirrors take what they mirror, as of the firing tick; a reserved handler or ARG does nothing but a notice. -/
def execTelemetrySnapshot (s : State) : Host.Outcome State Fault Refusal :=
  s.runO fun o c => c.fireDep (fun d => d.action == 0x0002 && d.arg != 2) fun d _ c =>
    if d.arg = 1 then c.setCtl fun k => { k with mirrors := c.statusMirror o } else c.notice 435 d.arg

end Sys2Proof.Machine
end

