-- ==== Sys2Proof/Machine/Faults.lean ====
section
/-! DEFINITION. Commands of the fault service: the end of a handling, package stop, quarantine, discard and hardware failures (21_faults.md). -/

namespace Sys2Proof.Machine

/-- FAULT_HANDLING_END (R537, R541). -/
def execFaultHandlingEnd (s : State) : Host.Outcome State Fault Refusal := s.run Chip.endHandling

/-- PACKAGE_STOP_PASS_END (R544): the pass completed `done` items; it ends at 5 ms where some are left. -/
def execPackageStopPassEnd (done : Nat) (s : State) : Host.Outcome State Fault Refusal :=
  s.run fun c =>
    let c := if c.flt.passing && decide (done < c.takenItems.length) then c.passTo (c.flt.stopAt + 5 * tMs) else c
    c.endStop done

/-- LOST_RECORD (R550). -/
def execLostRecord (s : State) : Host.Outcome State Fault Refusal := s.run Chip.lostRecord

/-- QUARANTINE_RELEASE (R542): a class-A amendment writes 0 to the bits of these cells and islands. -/
def execQuarantineRelease (cells : Dword) (isl : BitVec 14) (s : State) : Host.Outcome State Fault Refusal :=
  s.run fun c =>
    let keep := fun (a m : Nat) (c : Chip) => c.setReg a (c.reg a &&& (m ^^^ 0xFFFFFFFF))
    keep rFLT_QUARISL isl.toNat (keep rFLT_QUAR_HI (cells.toNat / 2 ^ 32) (keep rFLT_QUAR_LO (cells.toNat % 2 ^ 32) c))

/-- FAULT_DISCARD (R552): FLT_DISCARD takes the RECORD_NO of one of the 256 most recent END records; any other is rejected with VALUE. -/
def execFaultDiscard (rec : Word) (s : State) : Host.Outcome State Fault Refusal :=
  s.run fun c => if c.flt.ends.any fun (x : Nat × List Nat) => x.1 == rec.toNat then (c.setReg rFLT_DISCARD rec.toNat).fltDiscard rec.toNat else c

/-- The island of an engine: 0 rings, 1 sequences, 2 turntable, 3 collectives, 4 dispatcher, 5 and 6 the link routers of I12 and I13. -/
def engineIsland (k : Nat) : Nat := if k < 5 then 10 else k + 7

/-- ENGINE_INTERNAL_ERROR (R534): S4 for an engine of I10, S3 for a router. -/
def execEngineInternalError (engine : Fin 7) (s : State) : Host.Outcome State Fault Refusal :=
  s.run fun c =>
    let n := engineIsland engine.val
    if !c.islOpen n then c
    else if n = 10 then c.raise { sev := 4, source := 0x08, cause := 0x13, scope := .package, unitId := engine.val }
    else c.raise { sev := 3, source := 0x08, cause := 0x13, scope := .island n, unitId := n }

/-- SIGNAL_BOX_HARDWARE_FAILURE (R546): of working SRAM or an I1 block, or of I1's power switch or clock generator, whose CAUSE the spec does not state. -/
def execSignalBoxHardwareFailure (memory : Bool) (s : State) : Host.Outcome State Fault Refusal :=
  s.run fun c =>
    if (c.island 1).st = .closed then c
    else if memory then c.takeLatch 0x35
    else
      let (v, c) := c.draw
      c.takeLatch (v % 65536)

end Sys2Proof.Machine
end

