-- ==== Sys2Proof/Machine/Pins.lean ====
section
/-! DEFINITION. The events of service pins, and the console (18_service_pins_and_lamp_port.md R460–R467). -/

namespace Sys2Proof.Machine

/-- POINTS_CHANGE (R463): Park. -/
def execPointsChange (pin : Fin 48) (s : State) : Host.Outcome State Fault Refusal :=
  s.run fun c => if c.pinOff pin then c else c.parkPin pin

/-- POINTS_CHANGE_QUIET (R463): the pin has been parked for 2 µs. For a pin whose class-C procedure runs, its scope is quiet and the operations apply (R425). -/
def execPointsChangeQuiet (pin : Fin 48) (s : State) : Host.Outcome State Fault Refusal :=
  s.runO fun o c =>
    if c.pinOff pin ∨ (c.pin pin).phase ≠ 1 then c
    else match c.proc? (0x400 + pin) with
      | some _ => (c.passTo ((c.pin pin).changeAt + 2 * tUs)).procDrained o (0x400 + pin)
      | none => c.quietPin pin

/-- POINTS_CHANGE_INPUT_READY (R463): four equal samples of a level, then the new output. -/
def execPointsChangeInputReady (pin : Fin 48) (level : Bool) (s : State) : Host.Outcome State Fault Refusal :=
  s.run fun c => if c.pinOff pin then c else c.readyPin pin level

/-- GPIO_OUT_WRITE (R464, R481): an amendment's write of the pins of a mask. -/
def execGpioOutWrite (mask value : BitVec 48) (s : State) : Host.Outcome State Fault Refusal :=
  s.run fun c =>
    let m := mask.toNat
    let v := (c.reg64 rPIN_GPIO_OUT_LO &&& (m ^^^ (2 ^ 64 - 1))) ||| (value.toNat &&& m)
    (c.setReg64 rPIN_GPIO_OUT_LO v).setCtl fun k => { k with gpioSet := k.gpioSet ||| (bit (m % 2 ^ 32 != 0) + 2 * bit (m / 2 ^ 32 != 0)) }

/-- PIN_SHORT_DETECT (R466): 64 consecutive mismatches. -/
def execPinShortDetect (pin : Fin 48) (s : State) : Host.Outcome State Fault Refusal := s.run fun c => c.pinShort pin

/-- PIN_FAULT_RETRY (R467): a check one second after the last, clean or not. -/
def execPinFaultRetry (pin : Fin 48) (clean : Bool) (s : State) : Host.Outcome State Fault Refusal := s.run fun c => c.pinRetry pin clean

/-- PHASE and WIDTH of a TURN_STROBE, in ticks (R457). -/
def strobePhase (e : PinEntry) : Nat := bitsOf e.param 31 0 * tNs
def strobeWidth (e : PinEntry) : Nat := bitsOf e.param 47 32 * tUs

/-- TURN_STROBE_ASSERT (R460): PHASE after this turn's boundary, once a turn. -/
def execTurnStrobeAssert (pin : Fin 48) (s : State) : Host.Outcome State Fault Refusal :=
  s.run fun c =>
    let p := c.pin pin
    let t := c.tt.boundary + strobePhase p.cfg
    if !c.pinOn pin fnStrobe ∨ !c.tt.running ∨ p.strobed = some c.tt.turnNum ∨ c.tt.nextBoundary c.turnPeriod ≤ t then c
    else (c.reachTick t).setPin pin fun p => { p with strobe := some t, strobed := some c.tt.turnNum }

/-- TURN_STROBE_DEASSERT (R460): after WIDTH, or one tick before the next boundary. -/
def execTurnStrobeDeassert (pin : Fin 48) (s : State) : Host.Outcome State Fault Refusal :=
  s.run fun c =>
    match (c.pin pin).strobe with
    | none => c
    | some t => (c.reachTick (min (t + strobeWidth (c.pin pin).cfg) (c.tt.nextBoundary c.turnPeriod - 1))).setPin pin fun p => { p with strobe := none }

/-! ### The console (R461) -/

/-- What IDENT, STATUS and LEDGER_READ report, after STATUS (R476). -/
def Chip.identBytes (o : Otp) (c : Chip) : List Byte :=
  leBytes 1 0 ++ leBytes 1 o.lc ++ leBytes 1 c.lampPolicy ++ leBytes 1 (bit c.lamp.session.isSome) ++ leBytes 4 o.pkgId ++
    (o.deviceId ++ List.replicate (16 - o.deviceId.length) 0).take 16 ++ leBytes 2 (c.reg rSB_PKGNUM)
def Chip.statusBytes (o : Otp) (c : Chip) : List Byte :=
  leBytes 4 0 ++ leBytes 4 c.bootStat ++ leBytes 4 c.bootFlags ++ leBytes 4 c.ttStat ++ leBytes 4 (c.regNow o rAMD_LAST) ++
    leBytes 4 (c.regNow o rAMD_LASTSERIAL) ++ leBytes 1 c.faultHighest ++ leBytes 1 (bit c.flt.latch)
def Chip.ledgerBytes (c : Chip) (index : Nat) : List Byte := leBytes 1 0 ++ leBytes 1 index ++ leBytes 2 0 ++ c.retained index

/-- A decimal number of one or two digits. -/
def decimal (b : List Byte) : Option Nat :=
  let d := b.map fun x => x.toNat - 48
  if b.any fun x => decide (x.toNat < 48) || decide (57 < x.toNat) then none
  else match d with
    | [x] => some x
    | [x, y] => some (10 * x + y)
    | _ => none

/-- The console's answer to a line: the fields of the lamp reply of that name; nothing for any other input (log entry 27). -/
def Chip.consoleReply (o : Otp) (c : Chip) (line : List Byte) : List Byte :=
  let ledger := ascii ['L', 'E', 'D', 'G', 'E', 'R', '_', 'R', 'E', 'A', 'D', ' ']
  if line = ascii ['I', 'D', 'E', 'N', 'T'] then c.identBytes o
  else if line = ascii ['S', 'T', 'A', 'T', 'U', 'S'] then c.statusBytes o
  else if line.take 12 = ledger then
    match decimal (line.drop 12) with
    | some n => if n < 64 then c.ledgerBytes n else []
    | none => []
  else []

/-- CONSOLE_COMMAND (R461): a line received on UART_RX; the reader runs on I1's cores. -/
def execConsoleCommand (line : List Byte) (s : State) : Host.Outcome State Fault Refusal :=
  s.runO fun o c =>
    if !c.anyPin fnUartRx ∨ !c.anyPin fnUartTx ∨ !c.islOpen 1 ∨ c.ctl.run % 2 = 0 then c
    else c.setCtl fun k => { k with console := c.consoleReply o line }

end Sys2Proof.Machine
end

