-- ==== Sys2Proof/Machine/Lamp.lean ====
section
/-! DEFINITION. The events of the lamp port (18_service_pins_and_lamp_port.md R468–R483). -/

namespace Sys2Proof.Machine

/-- LAMP_RX_PULSE (R471): a pulse `gap` ns from now, `width` ns wide. -/
def execLampRxPulse (gap width : Nat) (s : State) : Host.Outcome State Fault Refusal := s.run fun c => c.lampPulse gap width

/-- LAMP_FRAME_END (R472): the last chip of a frame, or its abort. -/
def execLampFrameEnd (s : State) : Host.Outcome State Fault Refusal := s.run Chip.lampFrameEnd

/-- LAMP_ACTION_POINT (R472): 8 µs after the last chip. -/
def execLampActionPoint (s : State) : Host.Outcome State Fault Refusal := s.runO fun o c => c.lampAct o

/-- LAMP_DAZZLE (R473): the 32nd sample at or above THRESH comes `gap` ns from now; `level` is the tracker's code. -/
def execLampDazzle (gap : Nat) (level : BitVec 8) (s : State) : Host.Outcome State Fault Refusal := s.run fun c => c.lampDazzle gap level.toNat

/-- LAMP_BLANK_END (R473): the 800th sample below THRESH. -/
def execLampBlankEnd (gap : Nat) (level : BitVec 8) (s : State) : Host.Outcome State Fault Refusal := s.run fun c => c.lampBlankEnd gap level.toNat

/-- LAMP_ABSENT (R474): the tracker has stayed below PRESENT_MIN for 1 s. -/
def execLampAbsent (level : BitVec 8) (s : State) : Host.Outcome State Fault Refusal := s.run fun c => c.lampAbsent level.toNat

/-- LAMP_REPLY_START (R475). -/
def execLampReplyStart (s : State) : Host.Outcome State Fault Refusal := s.run Chip.lampStart

/-- LAMP_REPLY_DROP (R475): 5 ms without a chance to send. -/
def execLampReplyDrop (s : State) : Host.Outcome State Fault Refusal := s.run Chip.lampDrop

/-- LAMP_TX_END (R471). -/
def execLampTxEnd (s : State) : Host.Outcome State Fault Refusal := s.run Chip.lampTxEnd

/-- LAMP_NO_REPLY (R479, R483). -/
def execLampNoReply (s : State) : Host.Outcome State Fault Refusal := s.run Chip.lampNoReply

/-! ### What I0 serves (R476) -/

/-- LAMP_IDENT. -/
def execLampIdent (s : State) : Host.Outcome State Fault Refusal :=
  s.runO fun o c => c.lampServe 0x01 fun _ c => (c.identBytes o, c)

/-- LAMP_STATUS. -/
def execLampStatus (s : State) : Host.Outcome State Fault Refusal :=
  s.runO fun o c => c.lampServe 0x02 fun _ c => (c.statusBytes o, c)

/-- LAMP_LEDGER_READ. -/
def execLampLedgerRead (s : State) : Host.Outcome State Fault Refusal :=
  s.run fun c => c.lampServe 0x03 fun g c => (c.ledgerBytes (fieldAt g.payload 0 1), c)

/-- LAMP_CHALLENGE (R478): a nonce for 60 s. -/
def execLampChallenge (s : State) : Host.Outcome State Fault Refusal :=
  s.run fun c => c.lampServe 0x10 fun _ c =>
    let r := c.drawNonce
    (okReply r.1, r.2.setLamp fun l => { l with nonce := some r.1, nonceTill := c.elapsed + 60 * tSec })

/-! ### What Ohmax serves (R476, R478, R479): the reply stands in LAMP_RBUF until LAMP_RSEND is written -/

/-- LAMP_TOKEN_CHUNK. -/
def execLampTokenChunk (s : State) : Host.Outcome State Fault Refusal := s.run fun c => c.lampOhmaxServe 0x11 Chip.lampTokenChunk

/-- LAMP_UNLOCK: the verdicts of the token's signatures come with the command (log entry 3). -/
def execLampUnlock (ecdsa mldsa : List SigCheck) (s : State) : Host.Outcome State Fault Refusal :=
  s.runO fun o c => c.lampOhmaxServe 0x12 (Chip.lampUnlock o (ecdsa ++ mldsa))

/-- LAMP_LOCK. -/
def execLampLock (s : State) : Host.Outcome State Fault Refusal :=
  s.run fun c => c.lampOhmaxServe 0x13 fun _ c => (badReply lpOk, c.lampEnd)

/-- LAMP_AMD_CHUNK. -/
def execLampAmdChunk (s : State) : Host.Outcome State Fault Refusal := s.run fun c => c.lampOhmaxServe 0x20 Chip.lampAmdChunk

/-- LAMP_AMD_POST. -/
def execLampAmdPost (s : State) : Host.Outcome State Fault Refusal := s.run fun c => c.lampOhmaxServe 0x21 Chip.lampAmdPost

/-- LAMP_SESSION_EXPIRY (R478): the session's 600 s are over. -/
def execLampSessionExpiry (s : State) : Host.Outcome State Fault Refusal :=
  s.run fun c => match c.lamp.session with
    | none => c
    | some t => (c.passTo t).lampEnd

/-- LAMP_NONCE_EXPIRY (R478). -/
def execLampNonceExpiry (s : State) : Host.Outcome State Fault Refusal :=
  s.run fun c => if c.lamp.nonce.isNone then c else (c.passTo c.lamp.nonceTill).setLamp fun l => { l with nonce := none }

/-- LAMP_RSEND_WRITE (R482). -/
def execLampRsendWrite (value : Word) (s : State) : Host.Outcome State Fault Refusal := s.run fun c => c.lampRsend value.toNat

end Sys2Proof.Machine
end

