-- ==== Sys2Proof/Machine/Links.lean ====
section
/-! DEFINITION. The commands of the links: training, width changes, flits and packets (13_bilsal_links.md R337–R365). -/

namespace Sys2Proof.Machine

/-- LINK_TRAIN_START (R337). -/
def execLinkTrainStart (link : Fin 24) (half : Fin 2) (s : State) : Host.Outcome State Fault Refusal :=
  s.run fun c =>
    let x := c.half link half
    if c.mayTrain link half ∧ (x.st = .disabled ∨ (x.st = .down ∧ x.lastFail = 0)) then
      (c.startTraining link half).originate [(link.val, half.val)]
    else c

/-- LINK_TRAIN_PHASE_END (R337). -/
def execLinkTrainPhaseEnd (link : Fin 24) (half : Fin 2) (seen : TrainObs) (s : State) : Host.Outcome State Fault Refusal :=
  s.run fun c => if (c.half link half).st = .training ∧ c.islOpen (linkIsland link) then c.phaseEnd link half seen else c

/-- LINK_TRAIN_RETRY (R342): 10 ms after a failed attempt. -/
def execLinkTrainRetry (link : Fin 24) (half : Fin 2) (s : State) : Host.Outcome State Fault Refusal :=
  s.run fun c =>
    let x := c.half link half
    if c.mayTrain link half ∧ x.st = .down ∧ x.lastFail ≠ 0 then
      ((c.passTo (x.since + 10 * tMs)).startTraining link half).originate [(link.val, half.val)]
    else c

/-- LANE_EXCLUDE (R343): a receive lane in service leaves its stream, and a LINKCTL with the new lane mask and the last SEQ accepted asks the peer to
drop it. -/
def execLaneExclude (link : Fin 24) (lane : Fin 4) (s : State) : Host.Outcome State Fault Refusal :=
  s.run fun c =>
    let a := (c.link link).rx.getD lane {}
    match [0, 1].find? fun h =>
        ((c.half link h).st == .up || (c.half link h).st == .widthchg) && a.status == 0 && (c.half link h).rxPhys.testBit lane with
    | none => c
    | some h =>
      let c := c.setLink link fun y => { y with rx := y.rx.set lane { a with status := 6 } }
      let x := c.half link h
      let mask := (x.mask.getD x.rxMask) &&& (15 - 2 ^ a.logical)
      if mask = 0 then c.retrain link h 8
      else
        let c := c.bumpField (rLNK_TRAINS + link * 0x800) 15 0 1
        (c.setHalf link h fun x =>
          { x.frame 4 0 0 0 (leBytes 1 mask ++ leBytes 1 0 ++ leBytes 2 (x.rxSeq + 65535)) with
            st := .widthchg, mask := some mask, rxPhys := x.rxPhys &&& (15 - 2 ^ lane.val), since := c.elapsed }).originate [(link.val, h)]

/-- LINKCTL_RECEIVE (R343): the sender stripes over the new mask and replays from the SEQ after the last one accepted; its flits wait until the change
has finished. -/
def execLinkctlReceive (link : Fin 24) (half : Fin 2) (cw : Codeword) (s : State) : Host.Outcome State Fault Refusal :=
  s.run fun c => c.onFlit (c.listening link half) link half cw.flit cw.errs 4 fun c =>
    let mask := (c.half link half).txMask &&& fieldAt cw.flit 24 1
    let last := fieldAt cw.flit 26 2
    let c := c.flitHeader link half cw.flit
    if mask = 0 then c.retrain link half 8
    else
      let c := c.bumpField (rLNK_TRAINS + link * 0x800) 15 0 1
      let c := c.setHalf link half fun x =>
        ({ x with st := .widthchg, mask := none, since := c.elapsed, txMask := mask, sent := ackDrop x.sent last, ackAt := c.elapsed } : LinkHalf).resend
          ((last + 1) % 65536)
      c.originate [(link.val, half.val)]

/-- WIDTH_CHANGE_LOCKED (R343): the change has finished, at the receiver that asked for it or at the sender. -/
def execWidthChangeLocked (link : Fin 24) (half : Fin 2) (s : State) : Host.Outcome State Fault Refusal :=
  s.run fun c =>
    if (c.half link half).st ≠ .widthchg then c
    else ((c.setHalf link half fun x => { x with st := .up, rxMask := x.mask.getD x.rxMask, mask := none }).originate [(link.val, half.val)]).pump link half

/-- WIDTH_CHANGE_TIMEOUT (R343): 50 µs. Where the sender's codewords never showed the new mask the LINKCTL exchange was lost (R344). -/
def execWidthChangeTimeout (link : Fin 24) (change : LateChange) (s : State) : Host.Outcome State Fault Refusal :=
  s.run fun c =>
    let x := c.half link change.half
    if x.st ≠ .widthchg then c else (c.passTo (x.since + 50 * tUs)).retrain link change.half (if change.lost then 10 else 9)

/-- DATA_FLIT_RECEIVE (R347). `errs` are the symbol errors of its codeword (R335). -/
def execDataFlitReceive (link : Fin 24) (half : Fin 2) (flit : List Byte) (errs : Nat) (s : State) : Host.Outcome State Fault Refusal :=
  s.run fun c => c.dataFlit link half flit errs

/-- IDLE_FLIT_RECEIVE (R347). -/
def execIdleFlitReceive (link : Fin 24) (half : Fin 2) (cw : Codeword) (s : State) : Host.Outcome State Fault Refusal :=
  s.run fun c => c.onFlit (c.listening link half) link half cw.flit cw.errs 0 fun c => c.flitHeader link half cw.flit

/-- NAK_RECEIVE (R347): replay from the SEQ that the receiver expects. -/
def execNakReceive (link : Fin 24) (half : Fin 2) (cw : Codeword) (s : State) : Host.Outcome State Fault Refusal :=
  s.run fun c => c.onFlit (c.listening link half) link half cw.flit cw.errs 3 fun c =>
    let seq := fieldAt cw.flit 24 2
    ((c.flitHeader link half cw.flit).setHalf link half fun x => x.gotAck ((seq + 65535) % 65536) c.elapsed).replayFrom link half seq

/-- REPLAY_TIMEOUT (R347): 4 µs with no progress in ACK. -/
def execReplayTimeout (link : Fin 24) (half : Fin 2) (s : State) : Host.Outcome State Fault Refusal :=
  s.run fun c =>
    let x := c.half link half
    match x.sent with
    | [] => c
    | f :: _ => if x.st = .up then (c.passTo (x.ackAt + 4 * tUs)).replayFrom link half f.seq else c

/-- The class-C procedure whose quiet scope is the link applies, when its envelope writes a value to the bits of a mask of a link register (R365). -/
def Chip.linkProc (o : Otp) (c : Chip) (link a mask value : Nat) : Chip :=
  if c.procSets (0x200 + link) a mask value then c.procDrained o (0x200 + link) else c

/-- LINK_RETRAIN (R344, R365): an amendment writes LNK_CTL.RETRAIN. -/
def execLinkRetrain (link : Fin 24) (s : State) : Host.Outcome State Fault Refusal :=
  s.runO fun o c => c.linkProc o link (rLNK_CTL + link * 0x800) 2 2

/-- LINK_ENABLE_CHANGE (R344, R365): an amendment writes LNK_CTL.EN. -/
def execLinkEnableChange (link : Fin 24) (en : Bool) (s : State) : Host.Outcome State Fault Refusal :=
  s.runO fun o c => c.linkProc o link (rLNK_CTL + link * 0x800) 1 (bit en)

/-- LANE_MAP_CHANGE (R344, R365): an amendment writes LNK_LANEMAP. -/
def execLaneMapChange (link : Fin 24) (value : Word) (s : State) : Host.Outcome State Fault Refusal :=
  s.runO fun o c => c.linkProc o link (rLNK_LANEMAP + link * 0x800) 0xFF (value.toNat % 256)

/-- A packet command: it acts on a stream whose port die is open. -/
def State.packet (s : State) (link : Fin 24) (half : Fin 2) (typ : Nat) (eff : Packet → Chip → Chip) : Host.Outcome State Fault Refusal :=
  s.run fun c => if c.islOpen (linkIsland link) then c.onPacket link half typ eff else c

/-- READ_RECEIVE (R352). `obs` and `line` say what the read meets in the memory's ECC. -/
def execReadReceive (link : Fin 24) (half : Fin 2) (obs : Fin 4) (line : Nat) (s : State) : Host.Outcome State Fault Refusal :=
  s.packet link half tREAD fun p c => c.serveRead p obs line

/-- READ_DATA_RECEIVE (R352). -/
def execReadDataReceive (link : Fin 24) (half : Fin 2) (s : State) : Host.Outcome State Fault Refusal :=
  s.packet link half tREADDATA fun p c => c.gotReadData p

/-- WRITE_RECEIVE (R352, R492). -/
def execWriteReceive (link : Fin 24) (half : Fin 2) (s : State) : Host.Outcome State Fault Refusal :=
  s.packet link half tWRITE fun p c => c.serveWrite p

/-- WRITE_ACK_RECEIVE (R352). -/
def execWriteAckReceive (link : Fin 24) (half : Fin 2) (s : State) : Host.Outcome State Fault Refusal :=
  s.packet link half tWRITEACK fun p c => c.gotWriteAck p

/-- ATOMIC_RECEIVE (R182, R352). -/
def execAtomicReceive (link : Fin 24) (half : Fin 2) (obs : Fin 4) (s : State) : Host.Outcome State Fault Refusal :=
  s.packet link half tATOMIC fun p c => c.serveAtomic p obs

/-- ATOMIC_RESP_RECEIVE (R352). -/
def execAtomicRespReceive (link : Fin 24) (half : Fin 2) (s : State) : Host.Outcome State Fault Refusal :=
  s.packet link half tATOMICRESP fun p c => c.gotAtomicResp p

/-- RING_OP_RECEIVE (R241–R243, R352). -/
def execRingOpReceive (link : Fin 24) (half : Fin 2) (s : State) : Host.Outcome State Fault Refusal :=
  s.packet link half tRINGOP fun p c => c.serveRing p

/-- RING_RESP_RECEIVE (R352). -/
def execRingRespReceive (link : Fin 24) (half : Fin 2) (s : State) : Host.Outcome State Fault Refusal :=
  s.packet link half tRINGRESP fun p c => c.gotRingResp p

/-- CLOSED_RECEIVE (R492). -/
def execClosedReceive (link : Fin 24) (half : Fin 2) (s : State) : Host.Outcome State Fault Refusal :=
  s.packet link half tCLOSED fun p c => c.gotClosed p

/-- BOUNCE_RECEIVE (R492, R493). -/
def execBounceReceive (link : Fin 24) (half : Fin 2) (s : State) : Host.Outcome State Fault Refusal :=
  s.packet link half tBOUNCE fun p c => c.gotBounce p

/-- ERROR_RECEIVE (R352). -/
def execErrorReceive (link : Fin 24) (half : Fin 2) (s : State) : Host.Outcome State Fault Refusal :=
  s.packet link half tERROR fun p c => c.requestFails p.src p.tag p.status

/-- LSA_RECEIVE (R357, R545): newer entries are kept and relayed. -/
def execLsaReceive (link : Fin 24) (half : Fin 2) (s : State) : Host.Outcome State Fault Refusal :=
  s.run fun c =>
    if !c.islOpen (linkIsland link) then c
    else match takePacket tLSA (c.half link half).recv with
      | none => c
      | some (p, rest) =>
        (c.keepBuffers link half rest).takeLsas
          ((List.range (p.data.length / 32)).map fun k => (p.data.drop (32 * k)).take 32) (link.val, half.val)

/-- LSA_REFRESH (R357): every 10 ms the entries of the own links go out again. -/
def execLsaRefresh (s : State) : Host.Outcome State Fault Refusal :=
  s.run fun c =>
    let c := c.passTo (c.net.lsaAt + 10 * tMs)
    let c : Chip := { c with net := { c.net with lsaAt := c.elapsed } }
    c.originate c.plannedHalves

/-- EYE_REMEASURE (R363): the eye heights of a link in service. -/
def execEyeRemeasure (link : Fin 24) (eyes : Word) (s : State) : Host.Outcome State Fault Refusal :=
  s.run fun c =>
    if c.islOpen (linkIsland link) ∧ ((c.half link 0).st = .up ∨ (c.half link 1).st = .up) then c.setReg (rLNK_EYE + link * 0x800) eyes.toNat else c

end Sys2Proof.Machine
end

