-- ==== Sys2Proof/Machine/Ports.lean ====
section
/-! DEFINITION. The flex ports: link, configuration, BAR accesses, doorbells and the CXL host port (02_start_up.md R63; 15_host_and_memory_ports.md
R388–R398; 09_rings.md R252, R253). -/

namespace Sys2Proof.Machine

/-- A command of a flex port: the messages its function sent since the command before are gone from `sent`. -/
def State.runFx (s : State) (n : Nat) (f : Otp → Chip → Chip) : Host.Outcome State Fault Refusal :=
  s.runO fun o c => f o (c.setFx n fun x => { x with sent := [] })

/-! ### Link and function (R63, R388, R389) -/

/-- FX_PERST_DEASSERT: FXn_PERST_N goes high; an endpoint whose die is OPEN begins link training. -/
def execFxPerstDeassert (fx : Fin 2) (s : State) : Host.Outcome State Fault Refusal :=
  s.runFx fx.val fun _ c => (c.setFx fx.val fun x => { x with perst := false }).fxTrain fx.val

/-- FX_PERST_ASSERT: FXn_PERST_N goes low; an endpoint's link goes down, and its MSI-X and BAR settings return to reset. -/
def execFxPerstAssert (fx : Fin 2) (s : State) : Host.Outcome State Fault Refusal :=
  let n := fx.val
  s.runFx n fun _ c =>
    let c := c.setFx n fun x => { x with perst := true }
    if c.im.fxMode n = 1 ∧ c.islOpen (portIsland n) then c.fxDown n 0 true else c

/-- The lanes of a width operand. -/
def portLanes (w : Nat) : Nat := 4 * 2 ^ w

/-- FX_LINK_L0: a training endpoint link reaches L0, at most FX_WIDTH wide. A function that was set up before completes requests at once. -/
def execFxLinkL0 (fx : Fin 2) (speed : Fin 6) (width : Fin 3) (s : State) : Host.Outcome State Fault Refusal :=
  let n := fx.val
  s.runFx n fun _ c =>
    if c.im.fxMode n ≠ 1 ∨ (c.fx n).link ≠ 1 ∨ c.im.fxWidth n < portLanes width.val then c
    else c.setFx n fun x => { x with link := 2, speed := speed.val + 1, width := portLanes width.val, ready := x.setUp, since := c.elapsed }

/-- FX_FUNCTION_READY: Ohmax finishes setting up the function of a link in L0. -/
def execFxFunctionReady (fx : Fin 2) (s : State) : Host.Outcome State Fault Refusal :=
  let n := fx.val
  s.runFx n fun _ c =>
    if c.im.fxMode n ≠ 1 ∨ (c.fx n).link ≠ 2 ∨ !c.ohmaxRuns then c else c.setFx n fun x => { x with ready := true, setUp := true }

/-! ### Configuration requests (R63, R388, R390) -/

def FxPort.answer (x : FxPort) (status : Nat) (data : List Byte) (poisoned : Bool) : FxPort :=
  { x with cpl := { status := status, poisoned := poisoned, data := data } }

/-- A configuration word as it was written. -/
def FxPort.cfgWord (x : FxPort) (off : Nat) : Nat := ((x.cfg.find? fun e => e.1 == off).map fun e => e.2.toNat).getD 0

/-- The base-address registers at their PCI Express places (log entry 31): BAR0 is 64-bit, non-prefetchable, 16 MiB; BAR2 is 64-bit, prefetchable,
2^WIN_LOG2 bytes, and absent when WIN_LOG2 is 0. -/
def FxPort.bar (x : FxPort) (winLog2 off : Nat) : Nat :=
  let pair := fun (lo size flags : Nat) =>
    let v := x.cfgWord lo + x.cfgWord (lo + 4) * 2 ^ 32
    let w := v - v % size + flags
    if off = lo then w % 2 ^ 32 else w / 2 ^ 32
  if off < 0x18 then pair 0x10 (2 ^ 24) 4 else if winLog2 = 0 then 0 else pair 0x18 (2 ^ winLog2) 12

/-- A configuration read: the identity, the class code and the base-address registers; the spec gives no other word (log entry 31). -/
def Chip.cfgRead (o : Otp) (c : Chip) (n off : Nat) : Nat × Chip :=
  let r := c.draw
  if off = 0 then (o.portId.toNat, c)
  else if off = 8 then (0x12000000 + r.1 % 256, r.2)
  else if 0x10 ≤ off ∧ off < 0x20 then ((c.fx n).bar (c.im.winLog2 n) off, c)
  else (r.1 % 2 ^ 32, r.2)

/-- Vectors that are pending and no longer masked fire (R395). -/
def FxPort.firePending (x : FxPort) : FxPort :=
  (List.range 64).foldl (fun (x : FxPort) v => if x.pba.testBit v then x.fire v else x) x

/-- A configuration write. `kind` says what the word holds beside a plain value: 1 the Max Payload Size of Device Control, 2 MSI-X Message Control,
3 the power state of Power Management, D0 or D3hot (R388, log entry 31). -/
def FxPort.cfgWrite (x : FxPort) (off : Nat) (v : Word) (kind : Nat) : FxPort :=
  match kind with
  | 1 => { x with mps := min 512 (128 * 2 ^ bitsOf v.toNat 7 5) }
  | 2 => ({ x with msixCtl := v.toNat % 2 ^ 16 } : FxPort).firePending
  | 3 => if v.toNat % 4 = 0 then ({ x with d3 := false } : FxPort).firePending else if v.toNat % 4 = 3 then { x with d3 := true } else x
  | _ => { x with cfg := x.cfg.filter (fun (e : Nat × Word) => e.1 != off) ++ [(off, v)] }

/-- PCIE_CONFIG_REQUEST: Request Retry Status until the function is set up; then the request completes. -/
def execPcieConfigRequest (fx : Fin 2) (write : Bool) (off : BitVec 12) (value : Word) (kind : Fin 4) (s : State) :
    Host.Outcome State Fault Refusal :=
  let n := fx.val
  let a := off.toNat / 4 * 4
  s.runFx n fun o c =>
    if c.im.fxMode n ≠ 1 ∨ (c.fx n).link ≠ 2 then c
    else if !(c.fx n).ready then c.setFx n fun x => x.answer 2 [] false
    else if write then c.setFx n fun x => (x.cfgWrite a value kind.val).answer 0 [] false
    else
      let r := c.cfgRead o n a
      r.2.setFx n fun x => x.answer 0 (leBytes 4 r.1) false

/-! ### Memory requests (R390–R394) -/

/-- A memory write of a host reaches a live function: one over the Max Payload Size is malformed and a poisoned one is discarded (R394). A
function in D3hot takes none. -/
def Chip.hostTlp (c : Chip) (n : Nat) (poisoned : Bool) (data : List Byte) (k : Chip → Chip) : Chip :=
  if !c.fxLive n then c
  else if (c.fx n).d3 then c.fxUncorr n
  else if (c.fx n).mps < data.length then c.fxUncorr n
  else if poisoned then (c.fxUncorr n).notice 394 n
  else k c

/-- BAR2_WRITE. -/
def execBar2Write (fx : Fin 2) (off : BitVec 40) (poisoned : Bool) (data : List Byte) (s : State) : Host.Outcome State Fault Refusal :=
  let n := fx.val
  s.runFx n fun _ c => c.hostTlp n poisoned data fun c =>
    if c.im.winLog2 n = 0 ∨ 2 ^ c.im.winLog2 n < off.toNat + data.length then c.fxUncorr n
    else c.portWrite n (c.im.winBase n + off.toNat) data

/-- A byte of BAR0 but for the doorbell windows (R390, R391). -/
def Chip.bar0Word (o : Otp) (c : Chip) (n a : Nat) : Nat :=
  let own := (([rSB_PKGID, rSB_FIT, rSB_BOOTSTAT, rSB_BOOTFLAGS, rSB_BOOTTIME] : List Nat).find? fun r => r % 65536 == a)
  let nvm := (([rNVM_IMGID, rNVM_IMGID + 4, rNVM_IMGID + 8, rNVM_IMGID + 12, rNVM_RUNSEQ, rNVM_RUNSECVER, rNVM_RUNSIG] : List Nat).find? fun r => r % 65536 == a)
  let x := c.fx n
  if a < 0x1000 then
    if a = 0x100 then c.regNow o rTT_STAT
    else if a = 0x104 then c.regNow o (rPORT_FX_STAT + 0x40 * n)
    else match own, nvm with
      | some r, _ => c.regNow o r
      | none, some r => c.regNow o r
      | none, none => 0
  else if 0x40000 ≤ a ∧ a < 0x40400 then x.msixField (a - 0x40000) 4
  else if a = 0x41000 then x.pba % 2 ^ 32
  else if a = 0x41004 then x.pba / 2 ^ 32
  else if 0x100000 ≤ a ∧ a < 0x180000 then c.regNow o (rRING_CFG + (a - 0x100000))
  else 0

/-- A read of BAR0. -/
def Chip.bar0Read (o : Otp) (c : Chip) (n off len : Nat) : List Byte :=
  let words := (List.range ((off + len + 3) / 4 - off / 4)).flatMap fun k => leBytes 4 (c.bar0Word o n (4 * (off / 4 + k)))
  (words.drop (off % 4)).take len

/-- A read of memory for a port: none for a range that some object does not hold, its failure, or its bytes and its poison. `obs` and `line` say
what one of its units meets in the memory's ECC (R226). -/
def Chip.portRead (c : Chip) (off len obs line : Nat) : Option (Option (List Byte × Bool)) × Chip :=
  if !c.covered off len then (none, c)
  else if (c.mem.readFails off len).isSome then (some none, c)
  else
    let c : Chip := { c with mem := c.mem.readEcc obs (64 * pickLine (unitsOf off len) line) }
    let r := c.memRead off len
    (some (some (r.1, r.2.1)), r.2.2)

/-- BAR2_READ, of BAR2, or of BAR0. While the memory's islands are closed the read retries for 1 ms and then completes with an abort (R495). -/
def execBar2Read (fx : Fin 2) (bar0 : Bool) (off : BitVec 40) (len : Nat) (obs : Fin 4) (line : Nat) (s : State) :
    Host.Outcome State Fault Refusal :=
  let n := fx.val
  s.runFx n fun o c =>
    if !c.fxLive n then c
    else if (c.fx n).d3 then c.setFx n fun x => x.answer 1 [] false
    else if bar0 then c.setFx n fun x => x.answer 0 (c.bar0Read o n (off.toNat % 2 ^ 24) (min len 4096)) false
    else if c.im.winLog2 n = 0 ∨ 2 ^ c.im.winLog2 n < off.toNat + len then c.setFx n fun x => x.answer 1 [] false
    else if !c.memOpen then (c.pass tMs).setFx n fun x => x.answer 4 [] false
    else
      let r := c.portRead (c.im.winBase n + off.toNat) len obs.val line
      match r.1 with
      | none => r.2.setFx n fun x => x.answer 1 [] false
      | some none => r.2.setFx n fun x => x.answer 4 [] false
      | some (some d) => r.2.setFx n fun x => x.answer 0 d.1 d.2

/-- Bytes of the MSI-X table as they are written. -/
def FxPort.msixStore (x : FxPort) (k : Nat) (data : List Byte) : FxPort :=
  let kept := x.msix.filter fun (e : Nat × Byte) => decide (e.1 < k ∨ k + data.length ≤ e.1)
  { x with msix := kept ++ data.zipIdx.map fun (e : Byte × Nat) => (k + e.2, e.1) }

/-- The registers of the ring table that bytes of BAR0 show. -/
def ringWindowRegs (a len : Nat) : List Nat :=
  ((List.range ((a + len + 3) / 4 - a / 4)).map fun k => 4 * (a / 4 + k)).filterMap fun x =>
    if 0x100000 ≤ x ∧ x < 0x180000 then some (rRING_CFG + (x - 0x100000)) else none

/-- A host's write on AM fields is noticed, with the host path (master 6) as the writer (R17). -/
def Chip.hostAmWrite (c : Chip) (a len : Nat) : Chip :=
  (ringWindowRegs a len).foldl (fun (c : Chip) r => if ((regSpecAt r).map fun s => s.am != 0).getD false then c.notice 17 (6 + r * 65536) else c) c

/-- STATUS_WINDOW_WRITE: a write to BAR0 outside the doorbell windows. The MSI-X table takes it; elsewhere it is discarded and counted (R391, R406),
and an AM field's notice is logged (R17). -/
def execStatusWindowWrite (fx : Fin 2) (off : BitVec 24) (poisoned : Bool) (data : List Byte) (s : State) :
    Host.Outcome State Fault Refusal :=
  let n := fx.val
  let a := off.toNat
  s.runFx n fun _ c => c.hostTlp n poisoned data fun c =>
    if 0x10000 ≤ a ∧ a < 0x40000 then c
    else if 0x40000 ≤ a ∧ a + data.length ≤ 0x40400 then
      c.setFx n fun x => (x.msixStore (a - 0x40000) data).firePending
    else (c.fxUncorr n).hostAmWrite a data.length

/-! ### Doorbells (R252, R253, R392) -/

/-- A doorbell of a host: one memory write at a 64-byte-aligned offset of its window; any other is refused. -/
def Chip.hostDoorbell (c : Chip) (n window : Nat) (off : Nat) (poisoned : Bool) (data : List Byte) : Chip :=
  c.hostTlp n poisoned data fun c =>
    if off % 64 = 0 then c.portWrite n (dbBase + 65536 * window + off) data
    else if fieldAt data 0 2 ≤ 0x3FFF then (c.refuseDb (fieldAt data 0 2)).msix n 1
    else c.msix n 1

/-- ITEM_DOORBELL. -/
def execItemDoorbell (fx : Fin 2) (off : BitVec 16) (poisoned : Bool) (data : List Byte) (s : State) : Host.Outcome State Fault Refusal :=
  s.runFx fx.val fun _ c => c.hostDoorbell fx.val 1 off.toNat poisoned data

/-- TAIL_DOORBELL. -/
def execTailDoorbell (fx : Fin 2) (off : BitVec 16) (poisoned : Bool) (data : List Byte) (s : State) : Host.Outcome State Fault Refusal :=
  s.runFx fx.val fun _ c => c.hostDoorbell fx.val 2 off.toNat poisoned data

/-- CONSUME_DOORBELL. -/
def execConsumeDoorbell (fx : Fin 2) (off : BitVec 16) (poisoned : Bool) (data : List Byte) (s : State) : Host.Outcome State Fault Refusal :=
  s.runFx fx.val fun _ c => c.hostDoorbell fx.val 3 off.toNat poisoned data

/-! ### The CXL host port (R397, R398) -/

/-- CXL_LINK_UP: the link trains, Ohmax enumerates the device, whose volatile capacity `bytes` gives at most 2 TiB of frames, and the wagons that wait
at step 15 are backed once every CXL port is up. -/
def execCxlLinkUp (fx : Fin 2) (bytes : Nat) (speed : Fin 6) (width : Fin 2) (s : State) : Host.Outcome State Fault Refusal :=
  let n := fx.val
  let lanes := portLanes (width.val + 1)
  s.runFx n fun _ c =>
    if c.im.fxMode n ≠ 2 ∨ (c.fx n).link ≠ 1 ∨ c.im.fxWidth n < lanes ∨ !c.islOpen (portIsland n) ∨ !c.ohmaxRuns then c
    else
      let c := c.setFx n fun x => { x with link := 2, speed := speed.val + 1, width := lanes, since := c.elapsed }
      let frames := min bytes (2 ^ 41) / 65536
      let c : Chip := { c with mem := { c.mem with sdgFrames := sput 0 c.mem.sdgFrames n frames } }
      if c.mem.backed || ([0, 1].any fun k => c.im.fxMode k == 2 && (c.fx k).link != 2) then c else c.backLate

/-- CXL_CORRECTABLE_ERROR. -/
def execCxlCorrectableError (fx : Fin 2) (s : State) : Host.Outcome State Fault Refusal :=
  s.runFx fx.val fun _ c => if c.im.fxMode fx.val = 2 ∧ (c.fx fx.val).link = 2 then c.fxCorr fx.val else c

/-- A fatal error of a CXL port (R228, R398). -/
def Chip.cxlFatal (c : Chip) (n : Nat) : Chip := if c.im.fxMode n = 2 ∧ (c.fx n).link = 2 then c.fxDown n 3 false else c

/-- CXL_FATAL_ERROR: 0 an uncorrectable error, 1 a viral indication, 2 link down, 3 removal. -/
def execCxlFatalError (fx : Fin 2) (kind : Fin 4) (s : State) : Host.Outcome State Fault Refusal :=
  let n := fx.val
  s.runFx n fun _ c => (if kind.val = 0 ∧ c.im.fxMode n = 2 ∧ (c.fx n).link = 2 then c.fxUncorr n else c).cxlFatal n

/-- CXL_READ_TIMEOUT. -/
def execCxlReadTimeout (fx : Fin 2) (s : State) : Host.Outcome State Fault Refusal :=
  s.runFx fx.val fun _ c => c.cxlFatal fx.val

/-- FX_RETRAIN: the class-C procedure of the flex port's scope whose envelope writes PORT_FXn_CTL.RETRAIN applies, and the port retrains (R398, R425,
log entry 60). -/
def execFxRetrain (fx : Fin 2) (s : State) : Host.Outcome State Fault Refusal :=
  s.runFx fx.val fun o c =>
    if c.procSets (0x300 + fx.val) (rPORT_FX_CTL + 0x40 * fx.val) 1 1 then c.procDrained o (0x300 + fx.val) else c

end Sys2Proof.Machine
end

