-- ==== Sys2Proof/Machine/Network.lean ====
section
/-! DEFINITION. The 800GbE ports: RoCEv2 queue pairs, ingest and egress, and PTP (15_host_and_memory_ports.md R399–R404). -/

namespace Sys2Proof.Machine

/-- A command of an Ethernet port: what the port sent since the command before is gone from `sent`. -/
def State.runEth (s : State) (n : Nat) (f : Chip → Chip) : Host.Outcome State Fault Refusal :=
  s.run fun c => f (c.setEth n fun x => { x with sent := [] })

/-- The port exchanges frames. -/
def Chip.ethLive (c : Chip) (n : Nat) : Bool := c.im.ethEn n && (c.eth n).up && c.islOpen (portIsland n)

/-- A packet for a queue pair of the plan that is not in error: an ECN mark sends a CNP, and the message advances the expected PSN (R400). -/
def Chip.qpMessage (c : Chip) (n qpn len : Nat) (ecn : Bool) (k : List Byte → Chip → Chip) : Chip :=
  match c.im.qpEntry n qpn with
  | none => c
  | some e =>
    if !c.ethLive n || (c.qp e).error then c
    else
      let c := if ecn then c.ethSend n (.cnp qpn) else c
      k e (c.setQp e fun q => { q with epsn := (q.epsn + max 1 (ceilDiv len (max 1 (c.im.ethPmtu n)))) % 2 ^ 24 })

/-- ETHERNET_LINK_CHANGE (R399). -/
def execEthernetLinkChange (eth : Fin 2) (up : Bool) (s : State) : Host.Outcome State Fault Refusal :=
  let n := eth.val
  s.runEth n fun c =>
    if up then (if c.im.ethEn n ∧ c.islOpen (portIsland n) ∧ 15 ≤ c.boot.step then c.setEth n fun x => { x with up := true } else c)
    else c.ethDown n

/-! ### Ingest (R402) -/

/-- Word 0 of an ingest item, and its payload. -/
def ingestItem (n qpn op imm time want : Nat) (data : List Byte) : List Byte :=
  let words := 1 + ceilDiv data.length 64
  mkHeader words 0x0A 0 imm want ++ leBytes 4 qpn ++ leBytes 1 n ++ leBytes 1 op ++ leBytes 2 0 ++ leBytes 4 data.length ++ leBytes 4 imm ++
    leBytes 8 time ++ leBytes 24 0 ++ data ++ List.replicate (64 * (words - 1) - data.length) 0

/-- Deliver a message into its entry's ring, which must admit the network (R241, log entry 77): an invalid-request NAK, an RNR NAK, or the item
and `before` it what the message writes. A message that gets the RNR NAK comes again with its PSN, `psn`. -/
def Chip.ingest (c : Chip) (n psn : Nat) (e : List Byte) (op : Nat) (imm : Nat) (data : List Byte) (before : Chip → Chip × Bool) : Chip :=
  let qpn := qpNum e
  let r := qpRing e
  let words := 1 + ceilDiv data.length 64
  if !(qpFlags e).testBit 0 || !(c.ringProd r).testBit 3 || decide (c.ringMaxWords r < words) then c.ethSend n (.invalid qpn)
  else if !c.memOpen then (c.pass tMs).ethSend n (.access qpn)
  else if (c.ring r).st ≠ .opened ∨ (c.ring r).narrowed ∨ c.ringFree r < words then
    ((c.setQp e fun q => { q with epsn := psn }).bump (rPORT_ETH_RNR + 0x40 * n)).ethSend n (.rnr qpn (qpTimer e))
  else
    let b := before c
    if !b.2 then b.1.ethSend n (.access qpn)
    else
      let g := b.1.grant r words .network
      let item := ingestItem n qpn op imm c.now (bit ((qpFlags e).testBit 2)) data
      ((g.2.setRingWords r g.1.idx item).commitItem r g.1.seq false).ethSend n (.ack qpn)

/-- ROCE_SEND_RECEIVE: a SEND, or a SEND with immediate. -/
def execRoceSendReceive (eth : Fin 2) (qpn : BitVec 24) (imm : Option Word) (data : List Byte) (ecn : Bool) (s : State) :
    Host.Outcome State Fault Refusal :=
  let n := eth.val
  s.runEth n fun c0 => c0.qpMessage n qpn.toNat data.length ecn fun e c =>
    c.ingest n (c0.qp e).epsn e (bit imm.isSome) ((imm.map (·.toNat)).getD 0) data fun c => (c, true)

/-! ### RDMA (R401) -/

/-- Where a network write goes: an OFFSET whose bytes all lie in objects, or a doorbell, under `dbBase`. -/
def Chip.rdmaTarget (c : Chip) (n : Nat) (va rkey len : Nat) : Option Nat :=
  if rkey ≠ c.im.ethKey n then none
  else if va < 2 ^ 50 then (if c.covered va len then some va else none)
  else if dbBase + 0x10000 ≤ va ∧ va + len ≤ dbBase + 0x30000 then some va
  else none

/-- RDMA_WRITE_RECEIVE: acknowledged once every byte is performed. -/
def execRdmaWriteReceive (eth : Fin 2) (qpn : BitVec 24) (va : Dword) (rkey : Word) (data : List Byte) (ecn : Bool) (s : State) :
    Host.Outcome State Fault Refusal :=
  let n := eth.val
  s.runEth n fun c => c.qpMessage n qpn.toNat data.length ecn fun _ c =>
    match c.rdmaTarget n va.toNat rkey.toNat data.length with
    | none => c.ethSend n (.access qpn.toNat)
    | some a => c.portWrite (2 + n + 4 * qpn.toNat) a data

/-- What the write of a WRITE with immediate does, and whether it is performed whole. -/
def Chip.rdmaStore (c : Chip) (n va rkey : Nat) (data : List Byte) : Chip × Bool :=
  if data.isEmpty then (c, true)
  else match c.rdmaTarget n va rkey data.length with
    | none => (c, false)
    | some a =>
      if a < dbBase then let r := c.writeInside a data; (r.1, !r.2)
      else ((c.ring3 true ((a - dbBase) / 65536) data).1, true)

/-- ROCE_WRITE_IMM_RECEIVE: the write is performed, and the item follows it. -/
def execRoceWriteImmReceive (eth : Fin 2) (qpn : BitVec 24) (imm : Word) (va : Dword) (rkey : Word) (data : List Byte) (ecn : Bool) (s : State) :
    Host.Outcome State Fault Refusal :=
  let n := eth.val
  s.runEth n fun c0 => c0.qpMessage n qpn.toNat data.length ecn fun e c =>
    c.ingest n (c0.qp e).epsn e 2 imm.toNat [] fun c => c.rdmaStore n va.toNat rkey.toNat data

/-- The bytes of the ring table window (R390, R401). -/
def Chip.ringTable (o : Otp) (c : Chip) (n off len : Nat) : List Byte := c.bar0Read o n (0x100000 + off) len

/-- RDMA_READ_REQUEST: of objects, or of the ring table. -/
def execRdmaReadRequest (eth : Fin 2) (qpn : BitVec 24) (va : Dword) (rkey : Word) (len : Nat) (obs : Fin 4) (line : Nat) (ecn : Bool) (s : State) :
    Host.Outcome State Fault Refusal :=
  let n := eth.val
  let a := va.toNat
  let q := qpn.toNat
  s.runEth n fun c => c.qpMessage n q len ecn fun _ c =>
    if rkey.toNat ≠ c.im.ethKey n then c.ethSend n (.access q)
    else if dbBase + 0x100000 ≤ a ∧ a + len ≤ dbBase + 0x180000 then c.ethSend n (.resp q (c.ringTable s.otp n (a - (dbBase + 0x100000)) len))
    else if 2 ^ 50 ≤ a ∨ !c.covered a len then c.ethSend n (.access q)
    else if !c.memOpen then (c.pass tMs).ethSend n (.access q)
    else
      let r := c.portRead a len obs.val line
      match r.1 with
      | some (some d) => r.2.ethSend n (if d.2 then .access q else .resp q d.1)
      | _ => r.2.ethSend n (.access q)

/-! ### Rate control (R400) -/

/-- CNP_RECEIVE: the queue pair's rate halves. -/
def execCnpReceive (eth : Fin 2) (qpn : BitVec 24) (s : State) : Host.Outcome State Fault Refusal :=
  let n := eth.val
  s.runEth n fun c =>
    match c.im.qpEntry n qpn.toNat with
    | none => c
    | some e =>
      if !c.ethLive n then c
      else
        let slowed := c.ports.qps.any fun q => q.port == n && decide (q.rate < 2 ^ 20)
        let c := if slowed then c else c.setEth n fun x => { x with recovered := c.elapsed }
        c.setQp e fun q => { q with rate := q.rate / 2 }

/-- CNP_RATE_RECOVERY: 55 µs after the last recovery the slowed queue pairs of the port gain 1/16 of the full rate. -/
def execCnpRateRecovery (eth : Fin 2) (s : State) : Host.Outcome State Fault Refusal :=
  let n := eth.val
  s.runEth n fun c =>
    if !(c.ports.qps.any fun q => q.port == n && decide (q.rate < 2 ^ 20)) then c
    else
      let c := c.passTo ((c.eth n).recovered + 55 * tUs)
      let c := c.setEth n fun x => { x with recovered := c.elapsed }
      (c.im.qpEntries.filter fun e => qpPort e == n).foldl (fun (c : Chip) e =>
        if (c.qp e).rate = 2 ^ 20 then c else c.setQp e fun q => { q with rate := min (2 ^ 20) (q.rate + 2 ^ 16) }) c

/-! ### Egress (R403) and errors (R400) -/

/-- The bytes of a taken item. -/
def Chip.egressBytes (c : Chip) (r seq : Nat) : List Byte :=
  match (c.ring r).item? seq with
  | none => []
  | some i => c.ringWords r i.idx i.words

/-- EGRESS_SEND: the engine takes the item at TAKE and sends it; a SEND that a lost link or a reset left unacknowledged goes again. -/
def execEgressSend (eth : Fin 2) (qpn : BitVec 24) (s : State) : Host.Outcome State Fault Refusal :=
  let n := eth.val
  let q := qpn.toNat
  s.runEth n fun c =>
    match c.im.qpEntry n q with
    | none => c
    | some e =>
      let r := qpRing e
      if !(qpFlags e).testBit 1 || !c.ethLive n || (c.qp e).error || !c.memOpen then c
      else match (c.qp e).item with
        | some (_, true) => c
        | some (seq, false) => (c.setQp e fun x => { x with item := some (seq, true) }).ethSend n (.send q (c.egressBytes r seq))
        | none => match c.takeItem r .network with
          | none => c
          | some (i, c) => (c.setQp e fun x => { x with item := some (i.seq, true) }).ethSend n (.send q (c.egressBytes r i.seq))

/-- EGRESS_ACK: the item completes with DONE and its milepost. -/
def execEgressAck (eth : Fin 2) (qpn : BitVec 24) (s : State) : Host.Outcome State Fault Refusal :=
  let n := eth.val
  s.runEth n fun c =>
    match c.im.qpEntry n qpn.toNat with
    | none => c
    | some e => match (c.qp e).item with
      | some (seq, true) =>
        if !c.ethLive n || (c.qp e).error || !c.memOpen then c
        else
          let bytes := (c.egressBytes (qpRing e) seq).length
          (c.setQp e fun x => { x with item := none, spsn := (x.spsn + max 1 (ceilDiv bytes (max 1 (c.im.ethPmtu n)))) % 2 ^ 24 }).completeItem
            (qpRing e) seq 0x00 0
      | _ => c

/-- QP_RESET. -/
def execQpReset (eth : Fin 2) (qpn : BitVec 24) (s : State) : Host.Outcome State Fault Refusal :=
  s.runEth eth.val fun c => c.qpReset eth.val qpn.toNat

/-- QUEUE_PAIR_ERROR. -/
def execQueuePairError (eth : Fin 2) (qpn : BitVec 24) (s : State) : Host.Outcome State Fault Refusal :=
  let n := eth.val
  s.runEth n fun c =>
    match c.im.qpEntry n qpn.toNat with
    | none => c
    | some e =>
      if !c.im.ethEn n || (c.qp e).error then c
      else (c.setQp e fun q => { q.stall with error := true }).bump (rPORT_ETH_QPERR + 0x40 * n)

/-! ### PTP (R404) -/

/-- PTP_EVENT_MESSAGE: a timestamp of the port die's replica, to within ±8 ns (a free value within ±128 ticks). -/
def execPtpEventMessage (eth : Fin 2) (s : State) : Host.Outcome State Fault Refusal :=
  let n := eth.val
  s.runEth n fun c =>
    if !c.ethLive n then c
    else
      let d := c.draw
      d.2.setEth n fun x => { x with ptpSeen := true, stamp := c.now + d.1 % 257 - 128 }

/-- PORT_WALL_PUBLISH: Ohmax publishes the tick and the TAI nanoseconds that its servo gives. -/
def execPortWallPublish (tai : Dword) (s : State) : Host.Outcome State Fault Refusal :=
  s.run fun c =>
    if !c.ohmaxRuns || !((c.eth 0).ptpSeen || (c.eth 1).ptpSeen) then c
    else
      let c := c.passTo (c.ports.wallAt + 125 * tMs)
      let lock := fun (x : EthPort) => if x.ptpSeen then { x with ptpLocked := true } else x
      c.setPorts fun p => { p with wallAt := c.elapsed, wall := (c.now, tai.toNat), eth := p.eth.map lock }

end Sys2Proof.Machine
end

