-- ==== Sys2Proof/Machine/ImageParse.lean ====
section
/-! DEFINITION. The Amibo image as bytes: the header and its directory, and what each section spells (03_amibo_image.md R75–R101, R593). -/

namespace Sys2Proof.Machine

/-- Bytes of a flash device; none are read at or beyond its density (R48), and an unlisted byte is erased (log entry 4). -/
def Flash.read (f : Flash) (off n : Nat) : List Byte :=
  (List.range (min n (f.density - off))).map fun k => sget 0xFF f.data (off + k)

/-- Consecutive entries of `n` bytes. -/
def chunks (n count : Nat) (b : List Byte) : List (List Byte) := (List.range count).map fun k => (b.drop (n * k)).take n

def allZero (b : List Byte) : Bool := b.all (· == 0)

/-- Strictly ascending. -/
def ascending : List Nat → Bool
  | [] => true
  | a :: rest => (match rest with | [] => true | b :: _ => decide (a < b)) && ascending rest

def inRange (lo hi n : Nat) : Bool := decide (lo ≤ n) && decide (n ≤ hi)

/-! ### Header and directory (R77, R78) -/

/-- A directory entry, with its 48 bytes and its index. -/
structure DirEntry where
  typ : Nat
  ver : Nat
  flags : Nat
  off : Nat
  len : Nat
  count : Nat
  iv : List Byte
  tag : List Byte
  raw : List Byte
  deriving DecidableEq, Repr

def parseDir (b : List Byte) : DirEntry :=
  { typ := fieldAt b 0 2, ver := fieldAt b 2 1, flags := fieldAt b 3 1, off := fieldAt b 4 4, len := fieldAt b 8 4, count := fieldAt b 12 4
    iv := (b.drop 16).take 12, tag := (b.drop 28).take 16, raw := b.take 48 }

def DirEntry.encrypted (e : DirEntry) : Bool := e.flags.testBit 0
def DirEntry.critical (e : DirEntry) : Bool := e.flags.testBit 1
/-- The end of a section's stored bytes, padding included (R76). -/
def DirEntry.fin (e : DirEntry) : Nat := alignUp (e.off + e.len) 4096

/-- The header of a slot. -/
structure ImgHeader where
  imageId : List Byte
  sequence : Nat
  secVer : Nat
  assyMask : Nat
  signedLen : Nat
  totalLen : Nat
  count : Nat
  dirs : List DirEntry
  deriving DecidableEq, Repr

def parseHeader (b : List Byte) : ImgHeader :=
  { imageId := (b.drop 0x10).take 16, sequence := fieldAt b 0x20 4, secVer := fieldAt b 0x24 4, assyMask := fieldAt b 0x28 4
    signedLen := fieldAt b 0x2C 4, totalLen := fieldAt b 0x30 4, count := fieldAt b 0x34 2
    dirs := (chunks 48 (min 64 (fieldAt b 0x34 2)) (b.drop 0x100)).map parseDir }

def ImgHeader.dir? (h : ImgHeader) (t : Nat) : Option DirEntry := h.dirs.find? fun e => e.typ == t

/-! ### Section types (R88) -/

def tKEYWRAP : Nat := 0x01
def tOHMAX : Nat := 0x02
def tPINPLAN : Nat := 0x10
def tCLKPLAN : Nat := 0x11
def tRINGTABLE : Nat := 0x12
def tOBJTABLE : Nat := 0x13
def tPROGRAMS : Nat := 0x14
def tLOOPS : Nat := 0x15
def tBUCKETS : Nat := 0x16
def tROUTES : Nat := 0x17
def tTREES : Nat := 0x18
def tSEEDS : Nat := 0x19
def tPOLICY : Nat := 0x1A
def tAMENDABLE : Nat := 0x1B
def tHEALTH : Nat := 0x1C

def definedTypes : List Nat := [tKEYWRAP, tOHMAX] ++ (List.range 13).map (· + 0x10)
def requiredTypes : List Nat := [tOHMAX, tPINPLAN, tCLKPLAN, tRINGTABLE, tOBJTABLE, tSEEDS, tPOLICY, tAMENDABLE, tHEALTH]

/-- The range of COUNT of a type. -/
def countLimits (t : Nat) : Nat × Nat :=
  if t = tKEYWRAP then (1, 64) else if t = tOHMAX ∨ t = tCLKPLAN then (1, 1) else if t = tPINPLAN then (48, 48)
  else if t = tRINGTABLE then (0, 16368) else if t = tOBJTABLE then (1, 65536) else if t = tPROGRAMS then (0, 65536)
  else if t = tLOOPS then (0, 16384) else if t = tBUCKETS then (0, 8192) else if t = tROUTES then (0, 2320)
  else if t = tTREES then (0, 148480) else if t = tSEEDS then (0, 1024) else if t = tPOLICY then (0, 16)
  else if t = tAMENDABLE then (0, 4096) else (0, 512)

/-- LENGTH as COUNT gives it (R89); none where a section has no fixed-size entries. -/
def lenRule (t n : Nat) : Option Nat :=
  if t = tKEYWRAP then some (64 * n) else if t = tPINPLAN ∨ t = tBUCKETS ∨ t = tTREES ∨ t = tAMENDABLE ∨ t = tHEALTH then some (16 * n)
  else if t = tCLKPLAN then some (256 * n) else if t = tRINGTABLE then some (40 * n) else if t = tOBJTABLE ∨ t = tSEEDS then some (32 * n)
  else if t = tROUTES then some (32 * n + 192 * n) else if t = tPOLICY then some (128 + 64 * n) else none

/-! ### What the sections spell -/

def parsePin (b : List Byte) : PinEntry :=
  { bias := fieldAt b 1 1, drive := fieldAt b 2 1, invert := (fieldAt b 3 1).testBit 0, fn := fieldAt b 4 2, param := fieldAt b 8 8 }

def parseClk (b : List Byte) : ClkPlan :=
  { turnPeriod := fieldAt b 0 8, linkWindow := fieldAt b 8 8, lockTimeout := fieldAt b 0x10 8, minStacks := fieldAt b 0x18 1
    minPlatforms := fieldAt b 0x19 1, lockRequired := fieldAt b 0x1A 1 == 1, syncMode := fieldAt b 0x1B 1
    mhz := (List.range 8).map fun p => fieldAt b (0x20 + 2 * p) 2, roles := (List.range 8).map fun p => fieldAt b (0x30 + p) 1 }

def parseRing (b : List Byte) : RingEntry :=
  { ring := fieldAt b 0 2, isStatic := (fieldAt b 2 2).testBit 0, obj := fieldAt b 4 4, entry := (b.drop 8).take 32 }

def parseObj (b : List Byte) : ObjEntry :=
  { id := fieldAt b 0 4, placement := fieldAt b 4 1, shadow := (fieldAt b 5 1).testBit 0, home := fieldAt b 6 2
    base := fieldAt b 8 8, size := fieldAt b 16 8, initBlob := fieldAt b 24 4 }

/-- A blob of PROGRAMS, its data taken from the section `b` (R95). -/
def parseBlob (b e : List Byte) : Blob :=
  { id := fieldAt e 0 4, kind := fieldAt e 4 1, data := (b.drop (fieldAt e 8 4)).take (fieldAt e 12 4) }

/-- The loop records of a section, in order: each a 16-byte lead, a descriptor and padding to a multiple of 16 B. None where a record
breaks its layout or its descriptor's rules (R200). -/
def parseLoops : Nat → List Byte → Option (List LoopRec)
  | 0, b => if allZero b then some [] else none
  | n + 1, b =>
    let len := fieldAt b 8 2
    let size := 16 + alignUp len 16
    if !inRange 16 1024 len || decide (b.length < size) || !zeroAt b 10 6 || !zeroAt b (16 + len) (size - 16 - len) then none
    else match parseLoopDesc ((b.drop 16).take len), parseLoops n (b.drop size) with
      | some d, some rest => some ({ id := fieldAt b 0 4, program := fieldAt b 4 4, desc := d } :: rest)
      | _, _ => none

def parseBucket (b : List Byte) : Bucket :=
  { set := fieldAt b 0 2, index := fieldAt b 2 1, length := fieldAt b 4 4, loopId := fieldAt b 8 4 }

def parseRoster (b : List Byte) : RosterEntry :=
  { dev := b.take 16, num := fieldAt b 16 2, leaf := (fieldAt b 18 1).testBit 0, sync := (fieldAt b 18 1).testBit 1 }

def parseLink (b : List Byte) : LinkPlan :=
  { peerA := fieldAt b 0 2, linkA := fieldAt b 2 1, kind := fieldAt b 3 1, peerB := fieldAt b 4 2, linkB := fieldAt b 6 1 }

def parseTree (b : List Byte) : TreeEntry :=
  { tree := fieldAt b 0 1, pkg := fieldAt b 2 2, parent := fieldAt b 4 1, childMask := fieldAt b 8 4 }

def parseSeed (b : List Byte) : SeedDep :=
  { action := fieldAt b 0 2, scope := fieldAt b 2 2, order := fieldAt b 4 2, periodTurns := fieldAt b 8 4, phase := fieldAt b 12 8, arg := fieldAt b 20 8 }

def parseAuth (b : List Byte) : Authority := { id := fieldAt b 0 2, classes := fieldAt b 2 1, hash := (b.drop 16).take 48 }

def parsePolicy (count : Nat) (b : List Byte) : Policy :=
  { secretIslands := fieldAt b 0 2, lampPolicy := fieldAt b 3 1, debugHash := (b.drop 8).take 48
    auths := (chunks 64 count (b.drop 128)).map parseAuth }

def parseAmendable (b : List Byte) : AmendField :=
  { addr := fieldAt b 0 4, mask := fieldAt b 4 4, cls := fieldAt b 8 1, auths := fieldAt b 10 2, scope := fieldAt b 12 2 }

def parseHealth (b : List Byte) : Threshold :=
  { monitor := fieldAt b 0 2, sev := fieldAt b 2 1, lowOn := (fieldAt b 3 1).testBit 0, highOn := (fieldAt b 3 1).testBit 1
    low := signedField b 4, high := signedField b 8, hold := fieldAt b 12 2 }

def parseOhmax (b : List Byte) : OhmaxSec :=
  { version := fieldAt b 0 4, entry := fieldAt b 4 4, bssLen := fieldAt b 12 4, code := (b.drop 32).take (fieldAt b 8 4) }

/-! ### The sections of a slot, decrypted -/

/-- A section: its directory entry and its content. -/
abbrev SecList := List (DirEntry × List Byte)

def secData (l : SecList) (t : Nat) : List Byte := ((l.find? fun e => e.1.typ == t).map (·.2)).getD []
def secCount (l : SecList) (t : Nat) : Nat := ((l.find? fun e => e.1.typ == t).map (·.1.count)).getD 0
def hasSec (l : SecList) (t : Nat) : Bool := l.any fun e => e.1.typ == t
/-- The entries of a section with entries of `n` bytes. -/
def secEntries (l : SecList) (t n : Nat) : List (List Byte) := chunks n (secCount l t) (secData l t)

/-- The image that the sections spell; the facts of its signature block come with step 10. -/
def imageOf (h : ImgHeader) (l : SecList) : Image :=
  let progs := secData l tPROGRAMS
  let routes := secData l tROUTES
  let n := secCount l tROUTES
  { imageId := h.imageId, sequence := h.sequence, secVer := h.secVer, assyMask := h.assyMask
    encrypted := h.dirs.any (·.encrypted)
    ohmax := parseOhmax (secData l tOHMAX)
    pins := (secEntries l tPINPLAN 16).map parsePin
    clk := parseClk (secData l tCLKPLAN)
    rings := (secEntries l tRINGTABLE 40).map parseRing
    objs := (secEntries l tOBJTABLE 32).map parseObj
    blobs := (secEntries l tPROGRAMS 32).map (parseBlob progs)
    loops := (parseLoops (secCount l tLOOPS) (secData l tLOOPS)).getD []
    buckets := (secEntries l tBUCKETS 16).map parseBucket
    roster := (chunks 32 n routes).map parseRoster
    links := (chunks 192 n (routes.drop (32 * n))).map fun b => (chunks 8 24 b).map parseLink
    trees := (secEntries l tTREES 16).map parseTree
    seeds := (secEntries l tSEEDS 32).map parseSeed
    policy := parsePolicy (secCount l tPOLICY) (secData l tPOLICY)
    amendable := (secEntries l tAMENDABLE 16).map parseAmendable
    thresholds := (secEntries l tHEALTH 16).map parseHealth
    hasRoutes := hasSec l tROUTES }

/-! ### The signature block (R81) -/

def signBlockLen (form : Nat) : Nat := if form = 1 then 7428 else 14848

/-- The key hash of the anchored key: the signer's in direct form, the root's in endorsed form (R83). -/
def anchorHash (b : List Byte) : List Byte :=
  if fieldAt b 8 1 = 1 then keyHash ((b.drop 16).take 97) ((b.drop 113).take 2592)
  else keyHash ((b.drop 7428).take 97) ((b.drop 7525).take 2592)

end Sys2Proof.Machine
end

