-- ==== Sys2Proof/Machine/ImageCheck.lean ====
section
/-! DEFINITION. The checks of a slot, in the order of R87, with their slot codes (03_amibo_image.md R75–R101, R593; 02 R48, R52; 04 R126, R132;
06 R169; 07 R200; 08 R214, R216; 09 R266; 11 R305; 12 R330, R331; 13 R365; 14 R372; 15 R405; 16 R428; 17 R454; 18 R458; 19 R507; 20 R513, R528;
21 R553, R554; 22 R566; 23 R590). -/

namespace Sys2Proof.Machine

/-! ### Step 7: the header (orders 1 to 5) -/

def headerFormOk (b : List Byte) : Bool :=
  let n := fieldAt b 0x34 2
  b.length == 4096 && fieldAt b 0 4 == 0x4F424D41 && fieldAt b 4 2 == 1 && fieldAt b 8 4 == 0x1000 && zeroAt b 0xC 4 &&
    !zeroAt b 0x10 16 && inRange 1 64 n && zeroAt b 0x36 2 && zeroAt b 0x60 156 && zeroAt b 0xD00 768 &&
    zeroAt b (0x100 + 48 * n) (3072 - 48 * n) && (fieldAt b 0x28 4 &&& 0xFFFFFFE1) == 0 &&
    fieldAt b 0xFC 4 == crc32 (b.take 0xFC ++ [0, 0, 0, 0] ++ b.drop 0x100)

/-- R76's placement: each section follows the one before it. -/
def placedFrom : Nat → List DirEntry → Option Nat
  | p, [] => some p
  | p, e :: rest => if e.off = p then placedFrom e.fin rest else none

/-- The rules of a directory entry (R78, R79); an entry of an undefined type has its IV and TAG free (log entry 81). -/
def dirEntryOk (e : DirEntry) : Bool :=
  decide (e.flags < 4) && zeroAt e.raw 44 4 &&
    (if e.typ ∈ definedTypes then
      e.critical && (e.encrypted || (allZero e.iv && allZero e.tag)) && inRange (countLimits e.typ).1 (countLimits e.typ).2 e.count &&
        (match lenRule e.typ e.count with | some n => e.len == n | none => true)
    else !e.critical)

/-- The directory (order 2). -/
def directoryOk (h : ImgHeader) : Bool :=
  let types := h.dirs.map (·.typ)
  placedFrom 0x1000 h.dirs == some h.signedLen && h.dirs.all dirEntryOk && decide types.Nodup && requiredTypes.all (· ∈ types) &&
    (h.dirs.all fun e => !(e.encrypted && (e.typ == tKEYWRAP || e.typ == tPOLICY || e.typ == tROUTES))) &&
    (h.dir? tKEYWRAP).isSome == h.dirs.any (·.encrypted) && ((h.dir? tTREES).isNone || (h.dir? tROUTES).isSome)

/-- The slot code of a header, 0 where it is acceptable (R52, R87). -/
def headerCode (o : Otp) (f : Flash) : Nat :=
  let b := f.read 0 4096
  let h := parseHeader b
  if !headerFormOk b || !directoryOk h then 0x22
  else if !h.assyMask.testBit o.assy then 0x23
  else if h.secVer < o.floor then 0x24
  else if 134217728 < h.totalLen ∨ f.density < h.totalLen then 0x25
  else if h.totalLen ≠ h.signedLen + 7428 ∧ h.totalLen ≠ h.signedLen + 14848 then 0x22
  else 0

/-! ### Step 9 and 10: the signature block (orders 6 and 7) -/

/-- The form of a signature block, its reserved bytes among it (R81; log entry 80). -/
def sigFormOk (h : ImgHeader) (b : List Byte) : Bool :=
  let form := fieldAt b 8 1
  fieldAt b 0 4 == 0x47495341 && inRange 1 2 form && fieldAt b 4 4 == signBlockLen form && h.totalLen == h.signedLen + signBlockLen form &&
    zeroAt b 9 7

/-- The key slot that anchors a hash: 0xFF in BLANK, none where it does not chain (R513). -/
def anchorSlot (o : Otp) (hash : List Byte) : Option Nat :=
  let slots := if o.lc = 1 then 0 :: o.owners else if o.lc = 2 then o.owners else if o.lc = 3 then [0] else []
  if o.lc = 0 then some 0xFF else slots.find? fun n => o.slotHash n == some hash

/-- The 2,697-byte message of an endorsement: both signer keys, END_ASSY_MASK and END_MIN_SECVER (R82). -/
def endMessage (b : List Byte) : List Byte := bytesAt b 16 2689 ++ bytesAt b 10117 8

/-- The four signatures of a block over a signed region (R82): IMG_EC_SIG, END_EC_SIG, IMG_MLDSA_SIG, which signs H, and END_MLDSA_SIG. -/
def imgEcSig (region b : List Byte) : SigCheck := ecSig (bytesAt b 16 97) region (bytesAt b 2705 96)
def endEcSig (b : List Byte) : SigCheck := ecSig (bytesAt b 7428 97) (endMessage b) (bytesAt b 10125 96)
def imgMldsaSig (region b : List Byte) : SigCheck :=
  mlSig ['A', 'M', 'I', 'B', 'O', '-', 'I', 'M', 'G'] (bytesAt b 113 2592) (sha384 region) (bytesAt b 2801 4627)
def endMldsaSig (b : List Byte) : SigCheck :=
  mlSig ['A', 'M', 'I', 'B', 'O', '-', 'E', 'N', 'D'] (bytesAt b 7525 2592) (endMessage b) (bytesAt b 10221 4627)

/-- The slot code of step 10 (R82, R83); `valid` are the signatures that verify (log entry 3). -/
def signCode (o : Otp) (h : ImgHeader) (region b : List Byte) (valid : List SigCheck) : Nat :=
  let endorsed := fieldAt b 8 1 == 2
  if !valid.contains (imgEcSig region b) || (endorsed && !valid.contains (endEcSig b)) then 0x27
  else if !valid.contains (imgMldsaSig region b) || (endorsed && !valid.contains (endMldsaSig b)) then 0x28
  else if (anchorSlot o (anchorHash b)).isNone then 0x29
  else if endorsed && (!(fieldAt b 10117 4).testBit o.assy || decide (h.secVer < fieldAt b 10121 4)) then 0x29
  else 0

/-! ### Step 11: decryption (order 8) -/

/-- The content key: the KEY_WRAP entry used and the key (R84). -/
def contentKey (o : Otp) (wraps : List (List Byte)) : Option (Nat × List Byte) :=
  let hit := (wraps.zipIdx.filterMap fun (e : List Byte × Nat) =>
    (o.keks.find? fun k => k.programmed && !k.erased && k.kekId == e.1.take 16).map fun k => (e.2, k.key, (e.1.drop 16).take 40)).head?
  hit.bind fun (x : Nat × List Byte × List Byte) => (keyUnwrap x.2.1 x.2.2).map fun key => (x.1, key)

/-- A section's content; none where its tag fails. A type the package does not define stays as it is (R79, R85). -/
def sectionData (id : List Byte) (key : List Byte) (e : DirEntry) (stored : List Byte) : Option (List Byte) :=
  if !e.encrypted || e.typ ∉ definedTypes then some stored
  else gcmDecrypt key e.iv (e.raw.take 28 ++ List.replicate 16 0 ++ e.raw.drop 44 ++ id) stored e.tag

/-- The sections of a slot; none for a failure of order 8. The number is the KEY_WRAP entry used. -/
def openSections (o : Otp) (h : ImgHeader) (f : Flash) : Option (Nat × SecList) :=
  let stored := h.dirs.map fun e => (e, f.read e.off e.len)
  if !h.dirs.any (·.encrypted) then some (0, stored)
  else if o.lc = 0 then none
  else match contentKey o (secEntries stored tKEYWRAP 64) with
    | none => none
    | some (k, key) =>
      (allSome (stored.map fun (e : DirEntry × List Byte) => (sectionData h.imageId key e.1 e.2).map fun d => (e.1, d))).map fun l => (k, l)

/-! ### Order 9: each section's own rules -/

def ohmaxOk (b : List Byte) : Bool :=
  let code := fieldAt b 8 4
  b.length == 32 + code && decide (fieldAt b 4 4 < code) && fieldAt b 4 4 % 4 == 0 && zeroAt b 16 16 && decide (code + fieldAt b 12 4 ≤ 983040)

def pinsOk (es : List (List Byte)) (im : Image) : Bool :=
  (es.zipIdx.all fun e => fieldAt e.1 0 1 == e.2 && decide (fieldAt e.1 3 1 < 2) && zeroAt e.1 6 2) && pinPlanOk im.clk.turnPeriod im.pins

def clkOk (o : Otp) (b : List Byte) : Bool :=
  let k := parseClk b
  inRange 800000 8000000000 k.turnPeriod && inRange 1600000000 160000000000 k.linkWindow && inRange 1600000000 960000000000 k.lockTimeout &&
    inRange 1 (popCount 8 o.stackMask) k.minStacks && inRange 1 8 k.minPlatforms && decide (fieldAt b 0x1A 1 ≤ 1) && decide (k.syncMode ≤ 2) &&
    zeroAt b 0x1C 4 && k.mhz.all (mhzOk o) && k.roles.all (fun r => decide (r ≤ 2)) && zeroAt b 0x38 200 &&
    (k.syncMode != 1 || 16000000000 % k.turnPeriod == 0)

def RingEntry.cfg (e : RingEntry) : Nat := fieldAt e.entry 0 4
def RingEntry.prod (e : RingEntry) : Nat := bitsOf e.cfg 12 8
def RingEntry.cons (e : RingEntry) : Nat := bitsOf e.cfg 18 16
def RingEntry.compl (e : RingEntry) : Nat := bitsOf (fieldAt e.entry 8 4) 29 16
def Image.ring? (im : Image) (r : Nat) : Option RingEntry := im.rings.find? fun e => e.ring == r
/-- A ring of the table whose consumer is of a class, and whose producers hold every bit of a mask. -/
def Image.ringFor (im : Image) (r cons prod : Nat) : Bool :=
  match im.ring? r with | some e => e.cons == cons && (e.prod &&& prod) == prod | none => false

def ringEntryFine (im : Image) (e : RingEntry) : Bool :=
  let cfg := e.cfg
  let k := bitsOf cfg 4 0
  inRange 0x10 0x3FFF e.ring && inRange 6 24 k && e.prod != 0 && decide (e.cons ≤ 5) && (cfg &&& 0xC098E0E0) == 0 &&
    zeroAt e.entry 12 20 && decide (fieldAt e.entry 4 4 < 2 ^ 25) && decide (fieldAt e.entry 8 4 < 2 ^ 30) &&
    (!cfg.testBit 22 || e.prod == 4 || e.prod == 8) && (!cfg.testBit 21 || e.prod.testBit 2 || e.prod.testBit 3) &&
    (e.compl == 0 || (e.compl != e.ring && (match im.ring? e.compl with | some c => c.prod.testBit 4 | none => false))) &&
    (!e.isStatic || e.cons == 1) && (e.cons != 2 || e.prod.testBit 0 || e.prod.testBit 4) &&
    (match im.obj? e.obj with | some x => decide (2 ^ k * 64 ≤ x.size) && x.tier == 1 | none => false)

def ringsOk (es : List (List Byte)) (im : Image) : Bool :=
  (es.all fun e => decide (fieldAt e 2 2 < 2)) && ascending (im.rings.map (·.ring)) && im.rings.all (ringEntryFine im)

def Image.anyCxl (im : Image) : Bool := im.fxMode 0 == 2 || im.fxMode 1 == 2

def objFine (im : Image) (raw : List Byte) (e : ObjEntry) : Bool :=
  let init := (fieldAt raw 5 1).testBit 1
  decide (fieldAt raw 5 1 < 4) && zeroAt raw 28 4 && inRange 1 4 e.tier && decide (e.depotMode ≤ 2) && decide (e.placement < 64) &&
    (decide (e.home < 2320) || e.home == 0xFFFF) && e.base % 65536 == 0 && e.size != 0 && e.size % 65536 == 0 && decide (e.base + e.size ≤ 2 ^ 50) &&
    (if init then (match im.blob? 2 e.initBlob with | some d => decide (d.data.length ≤ e.size) | none => false) else e.initBlob == 0xFFFFFFFF) &&
    (im.anyCxl || !(e.tier == 3 || e.tier == 4))

/-- Two objects share bytes of a package. -/
def ObjEntry.clash (a b : ObjEntry) : Bool :=
  (a.home == b.home || a.home == 0xFFFF || b.home == 0xFFFF) && decide (a.base < b.base + b.size) && decide (b.base < a.base + a.size)

/-- No two elements of a list are related. -/
def pairwiseFree {α : Type} (r : α → α → Bool) : List α → Bool
  | [] => true
  | a :: rest => (rest.all fun b => !r a b) && pairwiseFree r rest

def objsOk (es : List (List Byte)) (im : Image) : Bool :=
  ascending (im.objs.map (·.id)) && ((es.zip im.objs).all fun e => objFine im e.1 e.2) && pairwiseFree ObjEntry.clash im.objs

/-- An operation of a program of `len` bytes at an offset (R169). -/
def opFine (im : Image) (len pc : Nat) (b : List Byte) : Bool :=
  let w := leNat b
  let target : Int := (pc : Int) + signed 64 (wImm w) * 16
  encodingOk w && (!(wOp w == 5 || wOp w == 7) || (decide (0 ≤ target) && decide (target < len))) &&
    (wOp w != 6 || im.loops.any fun l => l.id == wImm w)

def blobFine (im : Image) (len count : Nat) (e : List Byte) (b : Blob) : Bool :=
  let off := fieldAt e 8 4
  let n := fieldAt e 12 4
  inRange 1 2 b.kind && zeroAt e 5 3 && zeroAt e 16 16 && off % 64 == 0 && decide (32 * count ≤ off) && decide (off + n ≤ len) &&
    (b.kind != 1 || (n % 16 == 0 && decide (n ≤ 1048576) &&
      ((chunks 16 (n / 16) b.data).zipIdx.all fun x => opFine im n (16 * x.2) x.1)))

/-- Two blobs' data areas share bytes. -/
def blobClash (a b : List Byte) : Bool :=
  decide (fieldAt a 8 4 < fieldAt b 8 4 + fieldAt b 12 4) && decide (fieldAt b 8 4 < fieldAt a 8 4 + fieldAt a 12 4)

/-- Bytes of PROGRAMS that no blob holds are padding (R75). -/
def programGaps (es : List (List Byte)) (data : List Byte) : Bool :=
  data.zipIdx.all fun x => x.1 == 0 || decide (x.2 < 32 * es.length) || es.any fun e => decide (fieldAt e 8 4 ≤ x.2) && decide (x.2 < fieldAt e 8 4 + fieldAt e 12 4)

def programsOk (es : List (List Byte)) (data : List Byte) (im : Image) : Bool :=
  ascending (im.blobs.map (·.id)) && ((es.zip im.blobs).all fun e => blobFine im data.length es.length e.1 e.2) &&
    pairwiseFree blobClash es && programGaps es data

def loopsOk (l : SecList) (im : Image) : Bool :=
  (parseLoops (secCount l tLOOPS) (secData l tLOOPS)).isSome && ascending (im.loops.map (·.id)) &&
    im.loops.all fun r => (im.blob? 1 r.program).isSome

/-- Buckets in order: within a set INDEX runs from 0 without gaps and LENGTH rises (R96). -/
def bucketRun : Option Bucket → List Bucket → Bool
  | _, [] => true
  | p, b :: rest =>
    (match p with
      | some a => if a.set = b.set then b.index == a.index + 1 && decide (a.length < b.length) else decide (a.set < b.set) && b.index == 0
      | none => b.index == 0) && bucketRun (some b) rest

def bucketsOk (es : List (List Byte)) (im : Image) : Bool :=
  (es.all fun e => zeroAt e 3 1 && zeroAt e 12 4) && bucketRun none im.buckets &&
    (im.buckets.all fun b => decide (b.index ≤ 31) && im.loops.any fun r => r.id == b.loopId) &&
    decide ((im.buckets.map (·.set)).eraseDups.length ≤ 256)

def seedKey (d : SeedDep) : Nat × Nat × Nat × Nat := (d.action, d.scope, d.periodTurns, d.phase)

def seedsOk (o : Otp) (es : List (List Byte)) (im : Image) : Bool :=
  (es.all fun e => zeroAt e 6 2 && zeroAt e 28 4) &&
    (im.seeds.all fun d => actionSource d.action .seed && actionScopes d.action d.scope == some true && decide (d.phase < im.clk.turnPeriod) &&
      !(isIslandScope d.scope && absentIsland o (d.scope - 0x100))) &&
    decide ((im.seeds.map seedKey).Nodup)

def policyOk (b : List Byte) (count : Nat) (im : Image) : Bool :=
  let s := fieldAt b 0 2
  s.testBit 0 && decide (s < 2 ^ 14) && fieldAt b 2 1 == count && decide (fieldAt b 3 1 ≤ 1) && zeroAt b 4 4 && zeroAt b 0x38 72 &&
    ((chunks 64 count (b.drop 128)).all fun e => decide (fieldAt e 2 1 < 8) && zeroAt e 3 13) && decide ((im.policy.auths.map (·.id)).Nodup)

/-! #### AMENDABLE_FIELDS (R101, R428) -/

/-- The class that a rule names for a register's masked bits; none where no rule names one, 0 where none may list it. -/
def ruledClass (a mask : Nat) : Option Nat :=
  if rRING_CFG ≤ a ∧ a < rRING_CFG + 0x80000 then
    (if (a % 0x20 = 0 ∧ (mask &&& 0x00671F1F) ≠ 0) ∨ (a % 0x20 = 8 ∧ (mask &&& 0x3FFF0000) ≠ 0) then some 3 else none)
  else if rLNK_CTL ≤ a ∧ a < rLNK_CTL + 0xC000 ∧ (a % 0x800 = 0x18 ∨ a % 0x800 = 0x1C) then some 3
  else if rLNK_CTL ≤ a ∧ a < rLNK_CTL + 0xC000 ∧ a % 0x800 = 0x38 then some 1
  else if (pinReg a).isSome then some 3
  else if a = rPIN_GPIO_OUT_LO ∨ a = rPIN_GPIO_OUT_HI then some 1
  else if a = rPWR_REQ then some 2
  else if a ∈ [rPWR_WAKECFG, rPWR_ALARM_LO, rPWR_ALARM_HI, rPWR_BOUNCE, rPWR_PCAP, rFLT_QUAR_LO, rFLT_QUAR_HI, rFLT_QUARISL, rFLT_DISCARD,
      rSEC_LCREQ, rSEC_KSREVOKE, rSEC_RBFLOOR] then some 1
  else if a = rTT_TURN_LO ∨ a = rTT_TURN_HI ∨ (rSEC_KSPROG_SLOT ≤ a ∧ a ≤ rSEC_GO) then some 2
  else if a = rAMD_PLACE_OBJ ∨ a = rAMD_PLACE_CODE ∨ (rAMD_ROLE ≤ a ∧ a < rAMD_ROLE + 32) then some 3
  else if a / 65536 = 0x108 then some 0
  else none

/-- The unit of a class-C scope holds the register (R426). -/
def scopeHolds (s a : Nat) : Bool :=
  let u := scopeUnit s
  if 0x100 ≤ s ∧ s ≤ 0x107 then a == rAMD_ROLE + 4 * u || (decide (0x03000000 + 0x80000 * u ≤ a) && decide (a < 0x03000000 + 0x80000 * (u + 1)))
  else if 0x200 ≤ s ∧ s ≤ 0x217 then decide (rLNK_STAT + 0x800 * u ≤ a) && decide (a < rLNK_STAT + 0x800 * (u + 1))
  else if s = 0x300 ∨ s = 0x301 then decide (rPORT_FX_STAT + 0x40 * u ≤ a) && decide (a < rPORT_FX_STAT + 0x40 * u + 0x10)
  else if 0x400 ≤ s ∧ s ≤ 0x42F then (match pinReg a with | some (n, _) => n == u | none => false)
  else if s = 0x500 then a == rAMD_PLACE_OBJ || a == rAMD_PLACE_CODE
  else if 0x4010 ≤ s ∧ s ≤ 0x7FFF then decide (rRING_CFG + 0x20 * u ≤ a) && decide (a < rRING_CFG + 0x20 * (u + 1))
  else false

def amendableFine (o : Otp) (im : Image) (f : AmendField) : Bool :=
  let am := ((regSpecAt f.addr).map fun r => r.am.toNat).getD 0
  let n := im.policy.auths.length
  (f.mask &&& (am ^^^ 0xFFFFFFFF)) == 0 && (regSpecAt f.addr).isSome && !absentReg o f.addr && inRange 1 3 f.cls && decide (f.auths < 2 ^ n) &&
    ((im.policy.auths.zipIdx).any fun x => f.auths.testBit x.2 && x.1.classes.testBit (f.cls - 1)) &&
    (if f.cls = 3 then scopeHolds f.scope f.addr else f.scope == 0) &&
    (match ruledClass f.addr f.mask with | some k => f.cls == k | none => true) && (f.addr != rPWR_REQ || f.mask == 0xFFFF000F)

def amendablesOk (o : Otp) (es : List (List Byte)) (im : Image) : Bool :=
  (es.all fun e => zeroAt e 9 1 && zeroAt e 14 2) && ascending (im.amendable.map (·.addr)) && im.amendable.all (amendableFine o im)

/-! #### HEALTH_THRESHOLDS (R555, R593) -/

def monitorCodes : List Nat := [0x01, 0x02, 0x03, 0x10, 0x11, 0x12, 0x20, 0x21, 0x22, 0x30, 0x31, 0x40, 0x41]

def healthOk (es : List (List Byte)) (im : Image) : Bool :=
  (es.all fun e => decide (fieldAt e 3 1 < 4) && zeroAt e 14 2) &&
    im.thresholds.all fun t => t.monitor ∈ monitorCodes && decide (t.sev ≤ 3) && t.hold != 0 && (!(t.lowOn && t.highOn) || decide (t.low < t.high))

/-! #### The plans among the blobs -/

def objIs (im : Image) (n : Nat) (p : ObjEntry → Bool) : Bool := match im.obj? n with | some e => p e | none => false

/-- A task's ENTRY lies inside every program that a bucket set may choose (R268). -/
def Image.setEntryOk (im : Image) (set entry : Nat) : Bool :=
  let ids := (im.buckets.filter fun b => b.set == set).map (·.loopId)
  (im.loops.filter fun l => l.id ∈ ids).all fun l => (im.blob? 1 l.program).any fun b => decide (entry < b.data.length)

def seqModelOk (im : Image) (p : SeqPlan) (raw : List Byte) (m : SeqModel) : Bool :=
  let lens := (im.buckets.filter fun b => b.set == m.bucketSet).map (·.length)
  let t := fieldAt raw 24 1
  let v := fieldAt raw 25 1
  inRange 1 255 m.layers && inRange 1 64 m.steps && inRange 1 4096 m.pageTokens && inRange 1 4096 m.batchMax && decide (1 ≤ m.maxTokens) &&
    im.ringFor m.joinRing 5 0 && im.ringFor m.taskRing 1 16 && !lens.isEmpty && decide (m.maxTokens ≤ lens.foldl max 0) &&
    decide (m.maxTokens ≤ (2 ^ p.ptLog2 - 64) / (4 * m.layers) * m.pageTokens) && decide (m.summaryBytes ≤ p.summarySlot) &&
    (m.summaryBytes == 0 || p.summary != noPage) && m.entry % 16 == 0 && im.setEntryOk m.bucketSet m.entry && inRange 1 64 t && v ∈ [8, 16, 32, 64] &&
    decide (fieldAt raw 26 1 ≤ 16) && inRange 1 64 (fieldAt raw 27 1) && decide (m.prio ≤ 7) && decide (m.flags < 16) &&
    (m.flags / 4 == 0 || m.flags / 4 == 2) && zeroAt raw 30 34

def seqPlanOk (im : Image) : Bool :=
  match im.plan? seqPlanBlob with
  | none => true
  | some b =>
    let p := parseSeqPlan b
    let n := fieldAt b 4 1
    fieldAt b 0 4 == 0x50514553 && inRange 1 8 n && b.length == 64 + 64 * n && zeroAt b 5 3 && zeroAt b 31 1 && zeroAt b 46 2 && zeroAt b 52 12 &&
      objIs im p.pool (·.tier == 1) && objIs im p.pt (·.tier == 1) && objIs im p.batch (fun e => e.tier == 1 && decide (4194304 ≤ e.size)) &&
      (p.park == noPage || (objIs im p.park (fun e => e.tier == 3 || e.tier == 4) && im.anyCxl)) &&
      (p.summary == noPage || objIs im p.summary (fun _ => true)) && im.ringFor p.ctrl 5 0 && inRange 12 16 p.ptLog2 &&
      inRange 1000 86400000 p.victimTtl && inRange 1 4096 p.queueMax && p.summarySlot % 64 == 0 &&
      (((chunks 64 n (b.drop 64)).zip p.models).all fun e => seqModelOk im p e.1 e.2)

/-- The root of a tree. -/
def Image.treeRoot (im : Image) (t : Nat) : Option Nat := (im.trees.find? fun e => e.tree == t && e.parent == 0xFF).map (·.pkg)

def bankOk (im : Image) (ch : TrnChan) (n : Nat) : Bool :=
  objIs im n fun e => e.shadow && e.home == 0xFFFF && (e.tier == 1 || e.tier == 2) && decide (ch.bytes ≤ e.size)

def trnChanOk (im : Image) (raw : List Byte) (ch : TrnChan) : Bool :=
  let models := match im.seqPlan with | some p => p.models.length | none => 0
  (ch.model == 0xFF || decide (ch.model < models)) && im.treeRoot ch.tree == some ch.srcPkg && (im.roster.any fun e => e.num == ch.srcPkg) &&
    objIs im ch.srcObj (fun e => (e.home == ch.srcPkg || e.home == 0xFFFF) && decide (ch.bytes ≤ e.size)) &&
    bankOk im ch ch.bank0 && bankOk im ch ch.bank1 && ch.bank0 != ch.bank1 && ch.bytes != 0 && ch.bytes % 65536 == 0 && decide (ch.policy ≤ 1) &&
    zeroAt raw 25 3 && zeroAt raw 40 24 && (ch.initVersion == 0 || objIs im ch.bank0 (fun e => e.initBlob != 0xFFFFFFFF)) &&
    ch.rings.all (fun r => im.ringFor r 1 0) && zeroAt raw (64 + 290) 14

def trnPlanOk (im : Image) : Bool :=
  match im.plan? trnPlanBlob with
  | none => true
  | some b =>
    let p := parseTrnPlan b
    let n := fieldAt b 4 1
    let models : List Nat := (p.chans.map (·.model)).filter (· != 0xFF)
    fieldAt b 0 4 == 0x504E5254 && inRange 1 16 n && b.length == 64 + 368 * n && zeroAt b 5 3 && zeroAt b 20 44 && inRange 1 10000 p.readyMs &&
      inRange 10 60000 p.doneMs && objIs im p.vmap (fun e => e.tier == 1 && e.home == 0xFFFF && decide (589824 ≤ e.size)) && decide (models.Nodup) &&
      (((chunks 368 n (b.drop 64)).zip p.chans).all fun e => trnChanOk im e.1 e.2)

def windowOk (base log2 : Nat) : Bool := log2 == 0 || (inRange 30 40 log2 && base % 2 ^ log2 == 0)

def ethOk (b : List Byte) : Bool :=
  let mac := bytesAt b 4 6
  decide (fieldAt b 0 1 ≤ 1) && (fieldAt b 0 1 == 0 || ((decide (fieldAt b 1 1 ≤ 7) || fieldAt b 1 1 == 0xFF) && decide (fieldAt b 2 2 ≤ 4094) &&
    !(mac.getD 0 0).getLsbD 0 && !allZero mac && zeroAt b 10 2 && fieldAt b 32 4 != 0 && (fieldAt b 36 2) ∈ [1024, 2048, 4096] && zeroAt b 38 26))

def qpFine (im : Image) (b : List Byte) : Bool :=
  let fl := qpFlags b
  let ingest := fl.testBit 0
  decide (qpPort b ≤ 1) && im.ethEn (qpPort b) && decide (fl < 8) && ingest != fl.testBit 1 && inRange 0x10 0x3FFF (qpRing b) &&
    inRange 3 0xFFFFFF (qpNum b) && decide (fieldAt b 8 4 < 2 ^ 29) && decide (fieldAt b 28 4 < 2 ^ 24) &&
    (match im.ring? (qpRing b) with | some e => if ingest then e.prod.testBit 3 else e.cons == 3 | none => false)

/-- Every ring with CONS network is bound to one EGRESS entry (R403). -/
def egressOk (im : Image) : Bool :=
  im.rings.all fun e => e.cons != 3 || (im.qpEntries.filter fun q => (qpFlags q).testBit 1 && qpRing q == e.ring).length == 1

def portPlanOk (o : Otp) (im : Image) : Bool :=
  match im.portPlan with
  | none => egressOk im
  | some b =>
    let n := fieldAt b 26 2
    fieldAt b 0 4 == 0x50545250 && decide (n ≤ 8192) && b.length == 192 + 32 * n && zeroAt b 28 36 &&
      ([0, 1].all fun k => decide (im.fxMode k ≤ 2) && im.fxWidth k ∈ [4, 8, 16] && windowOk (im.winBase k) (im.winLog2 k) && ethOk (im.ethEntry k)) &&
      (o.assy != 4 || (im.fxMode 1 == 0 && !im.ethEn 1)) && im.qpEntries.all (qpFine im) &&
      ascending (im.qpEntries.map fun q => qpPort q * 2 ^ 32 + qpNum q) && egressOk im

def anyPath (m t : Nat) : Bool := hasPath m t rRING_CFG false || hasPath m t rRING_CFG true

def matrixPlanOk (im : Image) : Bool :=
  match im.plan? 0xFFFF0003 with
  | none => true
  | some b =>
    b.length == 64 && fieldAt b 0 4 == 0x5058544D && zeroAt b 4 4 && zeroAt b 25 39 &&
      ((List.range 8).all fun m => decide (fieldAt b (8 + m) 1 ≤ (if m < 4 then 1 else 0))) &&
      (List.range 9).all fun t => decide (fieldAt b (16 + t) 1 ≤ 7) && anyPath (fieldAt b (16 + t) 1) t

def faultPlanOk (im : Image) : Bool :=
  match im.plan? 0xFFFF0004 with
  | none => true
  | some b => b.length == 64 && fieldAt b 0 4 == 0x50544C46 && decide (fieldAt b 4 1 ≤ 1) && fieldAt b 5 1 != 0 && inRange 1 3600 (fieldAt b 6 2) && zeroAt b 8 56

def wearPlanOk (im : Image) : Bool :=
  match im.plan? 0xFFFF0005 with
  | none => true
  | some b =>
    let r := fieldAt b 16 2
    b.length == 64 && fieldAt b 0 4 == 0x50524557 && inRange 10 3600 (fieldAt b 4 2) && inRange 30 3650 (fieldAt b 6 2) && inRange 10 200 (fieldAt b 8 2) &&
      zeroAt b 10 2 && inRange 1000 1000000 (fieldAt b 12 4) && zeroAt b 18 46 &&
      (r == 0 || (inRange 0x10 0x3FFF r && (match im.ring? r with | some e => e.prod.testBit 4 | none => false)))

/-- What follows a section's content up to the next section is zero, as it is stored (R75). -/
def paddingOk (h : ImgHeader) (f : Flash) : Bool := h.dirs.all fun e => allZero (f.read (e.off + e.len) (e.fin - (e.off + e.len)))

def versionsOk (h : ImgHeader) : Bool := h.dirs.all fun e => e.typ ∉ definedTypes || e.ver == 1

/-- Encrypted sections have distinct IVs (R85). -/
def ivsOk (h : ImgHeader) : Bool := decide ((((h.dirs.filter (·.encrypted)).map (·.iv))).Nodup)

def plansOk (o : Otp) (im : Image) : Bool :=
  seqPlanOk im && trnPlanOk im && portPlanOk o im && matrixPlanOk im && faultPlanOk im && wearPlanOk im

/-- Order 9. -/
def sectionsOk (o : Otp) (h : ImgHeader) (f : Flash) (l : SecList) (im : Image) : Bool :=
  versionsOk h && ivsOk h && paddingOk h f && ((secEntries l tKEYWRAP 64).all fun e => zeroAt e 56 8) && ohmaxOk (secData l tOHMAX) &&
    pinsOk (secEntries l tPINPLAN 16) im && clkOk o (secData l tCLKPLAN) && ringsOk (secEntries l tRINGTABLE 40) im &&
    objsOk (secEntries l tOBJTABLE 32) im && programsOk (secEntries l tPROGRAMS 32) (secData l tPROGRAMS) im && loopsOk l im &&
    bucketsOk (secEntries l tBUCKETS 16) im && seedsOk o (secEntries l tSEEDS 32) im && policyOk (secData l tPOLICY) (secCount l tPOLICY) im &&
    amendablesOk o (secEntries l tAMENDABLE 16) im && healthOk (secEntries l tHEALTH 16) im && plansOk o im

/-! ### Order 10: ROUTES and TREES (R31–R33, R37, R97, R98) -/

/-- A link entry keeps its fields' rules. -/
def linkFieldsOk (b : List Byte) : Bool :=
  let p := parseLink b
  zeroAt b 7 1 && decide (p.kind ≤ 4) && (p.kind == 3 || (p.peerB == 0xFFFF && p.linkB == 0xFF)) &&
    (p.kind != 0 || (p.peerA == 0xFFFF && p.linkA == 0xFF))

/-- The far end of a half of a link names it back with the matching KIND. -/
def namedBack (im : Image) (pkg l h : Nat) : Bool :=
  let p := im.linkPlan pkg l
  let (q, m) := p.peer h
  let far := im.linkPlan q m
  (im.roster.any fun e => e.num == q) && decide (m < 24) &&
    (if p.kind = 3 then far.kind == 4 && far.peer 0 == (pkg, l)
    else if p.kind = 4 then far.kind == 3 && (far.peer 0 == (pkg, l) || far.peer 1 == (pkg, l))
    else far.kind == p.kind && far.peer 0 == (pkg, l))

def linkCount (im : Image) (pkg : Nat) (kinds : List Nat) : Nat := ((List.range 24).filter fun l => (im.linkPlan pkg l).kind ∈ kinds).length

def yardSize (im : Image) (y : Nat) : Nat := (im.roster.filter fun e => yardOf e.num == y).length
def leavesOf (im : Image) (y : Nat) : Nat := (im.roster.filter fun e => yardOf e.num == y && e.leaf).length

/-- The leaf limit and the yard limit of R33, which bind every roster. -/
def yardLimitOk (im : Image) (ys : List Nat) : Bool :=
  let most := (ys.map (leavesOf im)).foldl max 0
  decide (most ≤ 8) && decide (ys.length ≤ 9 * (16 - most) + 1)

/-- The packages that a package's local links and half-links reach. -/
def localPeers (im : Image) (pkg : Nat) : List Nat :=
  (List.range 24).flatMap fun l =>
    let p := im.linkPlan pkg l
    if p.kind = 1 ∨ p.kind = 3 then (halvesOf p.kind).map fun h => (p.peer h).1 else []

/-- A leaf reaches its 15 yard peers, each once (R32). -/
def leafPeersOk (im : Image) (pkg : Nat) : Bool :=
  let l := localPeers im pkg
  decide l.Nodup && l.length == 15 && l.all fun q => q != pkg && yardOf q == yardOf pkg

/-- The link counts of R31 and R32, which bind a roster of complete yards. -/
def completeOk (im : Image) (ys : List Nat) : Bool :=
  im.roster.all fun e =>
    if e.leaf then linkCount im e.num [1] == 9 && linkCount im e.num [3] == 3 && linkCount im e.num [4] == 0 && leafPeersOk im e.num
    else linkCount im e.num [1, 4] == 15 && linkCount im e.num [2] == (if 2 ≤ ys.length then 9 else 0) && linkCount im e.num [3] == 0

/-- A leaf position has no global link and nothing on links 12–23. -/
def leafOk (im : Image) (e : RosterEntry) : Bool :=
  !e.leaf || (linkCount im e.num [2] == 0 && (List.range 12).all fun k => (im.linkPlan e.num (k + 12)).kind == 0)

def routesOk (o : Otp) (l : SecList) (im : Image) : Bool :=
  let n := secCount l tROUTES
  let raw := secData l tROUTES
  let ys := (im.roster.map fun e => yardOf e.num).eraseDups
  let mine := im.roster.filter fun e => e.dev == o.deviceId
  !im.hasRoutes || (mine.length == 1 && ascending (im.roster.map (·.num)) &&
    ((chunks 32 n raw).all fun b => decide (fieldAt b 16 2 < 2320) && decide (fieldAt b 18 1 < 4) && zeroAt b 19 13) &&
    ((chunks 8 (24 * n) (raw.drop (32 * n))).all linkFieldsOk) &&
    (im.roster.all fun e => (List.range 24).all fun k => (halvesOf (im.linkPlan e.num k).kind).all (namedBack im e.num k)) &&
    (mine.all fun e => e.leaf == (o.assy == 4)) && im.roster.all (leafOk im) && yardLimitOk im ys &&
    (!(ys.all fun y => yardSize im y == 16) || completeOk im ys) &&
    (im.clk.syncMode == 0 || (im.roster.filter (·.sync)).length == 1))

/-- A package's parents on a tree over the link that its entry names: one, or none at the root. -/
def treeParents (im : Image) (e : TreeEntry) : Nat :=
  if e.parent = 0xFF then 0
  else
    let p := im.linkPlan e.pkg e.parent
    ((halvesOf p.kind).filter fun h => match im.treeEntry e.tree (p.peer h).1 with | some f => f.childMask.testBit (p.peer h).2 | none => false).length

/-- The roster gives a package a leaf position, which a TN-H8X1 alone may take. -/
def Image.isLeaf (im : Image) (pkg : Nat) : Bool := im.roster.any fun e => e.num == pkg && e.leaf

/-- A tree's entries; one of a TN-H8X1 names no link of the port die that it lacks (R4, R41). -/
def treeOk (im : Image) (t : Nat) : Bool :=
  let es := im.trees.filter fun e => e.tree == t
  es.map (·.pkg) == im.roster.map (·.num) && (es.filter fun e => e.parent == 0xFF).length == 1 &&
    (es.all fun e => e.parent == 0xFF || (decide (e.parent < 24) && treeParents im e == 1)) &&
    (es.all fun e => !im.isLeaf e.pkg || decide (e.childMask < 2 ^ 12)) && es.all fun e => decide (im.treeDepth t 5 e.pkg ≤ 3)

def treesOk (l : SecList) (im : Image) : Bool :=
  ((secEntries l tTREES 16).all fun b => zeroAt b 1 1 && zeroAt b 5 3 && zeroAt b 12 4 && decide (fieldAt b 8 4 < 2 ^ 24)) &&
    ascending (im.trees.map fun e => e.tree * 65536 + e.pkg) && ((im.trees.map (·.tree)).eraseDups.all fun t => decide (t ≤ 63) && treeOk im t)

/-! ### Order 11: rules that depend on this package's number -/

/-- This package's number (R97). -/
def Image.number (o : Otp) (im : Image) : Nat := ((im.roster.find? fun e => e.dev == o.deviceId).map (·.num)).getD 0

def homesOk (o : Otp) (im : Image) : Bool :=
  let n := im.number o
  let pinned := (im.objs.filter fun e => e.tier == 1 && e.heldBy n).map (·.size)
  (im.rings.all fun r => objIs im r.obj fun e => e.heldBy n) && decide (pinned.foldl (· + ·) 0 ≤ (im.clk.minStacks * 36 - 1) * 2 ^ 30)

/-! ### A slot -/

/-- What streaming a slot ends with: its image, or its slot code (R87 orders 6 to 11). The KEY_WRAP entry used is 0 without an encrypted section
(log entry 82). -/
def judgeSlot (o : Otp) (f : Flash) (valid : List SigCheck) : Nat ⊕ Image :=
  let h := parseHeader (f.read 0 4096)
  let sig := f.read h.signedLen (h.totalLen - h.signedLen)
  let code := signCode o h (f.read 0 h.signedLen) sig valid
  if !sigFormOk h sig then .inl 0x22
  else if code ≠ 0 then .inl code
  else match openSections o h f with
    | none => .inl 0x2A
    | some (k, l) =>
      let im := imageOf h l
      if !sectionsOk o h f l im then .inl 0x2B
      else if !routesOk o l im || !treesOk l im then .inl 0x2C
      else if !homesOk o im then .inl 0x2B
      else .inr { im with form := fieldAt sig 8 1, wrapUsed := if im.encrypted then k else 0, anchor := (anchorSlot o (anchorHash sig)).getD 0xFF
                          anchorHash := if o.lc = 0 then List.replicate 48 0 else anchorHash sig, digest := sha384 (f.read 0 h.signedLen) }

end Sys2Proof.Machine
end

