-- ==== Sys2Proof/Machine/IslandOps.lean ====
section
/-! DEFINITION. The edges of an island: the end of prepare, the gate's completions, CLOSED, the open edge, and the order in which islands
open at start-up and at exit from P2 (19_power_states.md R488–R494, R498; 02_start_up.md R46, R58, R60). -/

namespace Sys2Proof.Machine

/-! ### The gate of a closing port die (R489, R492) -/

/-- Send an answer now, or once a route is open again. -/
def Chip.answerLate (c : Chip) (p : Packet) : Chip :=
  match c.sendPkt p with
  | some c => c
  | none => { c with net := { c.net with held := c.net.held ++ [{ pkt := p, since := c.elapsed, bounced := false }] } }

/-- A packet that the gate still holds: a request is answered CLOSED, a write is bounced with its payload, and an answer reaches its requester. -/
def Chip.gatePacket (c : Chip) (p : Packet) : Chip :=
  if p.dst ≠ c.pkg then c.transit p
  else if p.typ = tREAD ∨ p.typ = tATOMIC ∨ p.typ = tRINGOP then (c.bump rPWR_CLOSEDRSP).answerLate (p.answer tCLOSED 0 [])
  else if p.typ = tWRITE then (c.bump rPWR_BOUNCED).answerLate (p.answer tBOUNCE 0 p.data)
  else if p.typ = tREADDATA then c.gotReadData p
  else if p.typ = tWRITEACK then c.gotWriteAck p
  else if p.typ = tATOMICRESP then c.gotAtomicResp p
  else if p.typ = tRINGRESP then c.gotRingResp p
  else if p.typ = tCLOSED then c.gotClosed p
  else if p.typ = tBOUNCE then c.gotBounce p
  else if p.typ = tERROR then c.requestFails p.src p.tag p.status
  else c

/-- The streams of a port die. -/
def dieStreams (n : Nat) : List (Nat × Nat) := allHalves.filter fun u => linkIsland u.1 == n

/-- The gate completes what a port die has not finished. -/
def Chip.gateFlush (c : Chip) (n : Nat) : Chip :=
  if !isDieIsland n then c
  else (dieStreams n).foldl (fun (c : Chip) (u : Nat × Nat) =>
    let ps := (c.half u.1 u.2).recv.flatMap (·.pkts)
    ps.foldl Chip.gatePacket (c.setHalf u.1 u.2 fun x => { x with recv := [] })) c

/-! ### Open edges -/

/-- The control registers that count an Ethernet or a flex port of a die (R406, R490). -/
def dieCounts (d : Nat) : List Nat := [rPORT_FX_ERR + 0x40 * d, rPORT_ETH_RNR + 0x40 * d, rPORT_ETH_QPERR + 0x40 * d]

/-- What an island begins with at its open edge (R490): a platform's cells are IDLE and zeroed; a port die's links and ports begin anew. -/
def Chip.freshIsland (c : Chip) (n : Nat) : Chip :=
  if isPlatIsland n then
    let lo := 0x03000000 + 8 * (n - 2) * 0x10000
    let c := c.dropRegs lo (lo + 0x80000)
    (List.range 8).foldl (fun (c : Chip) k => c.setCell (8 * (n - 2) + k) fun x => { x with st := .idle, last := none }) c
  else if isDieIsland n then
    let c := (dieCounts (n - 12)).foldl (fun (c : Chip) r => c.dropRegs r (r + 4)) c
    let c := (c.originate (c.dieHalves n)).fxTrain (n - 12)
    (c.dieHalves n).foldl (fun (c : Chip) (u : Nat × Nat) =>
      if c.mayTrain u.1 u.2 then (c.startTraining u.1 u.2).originate [u] else c) c
  else c

/-- An action that waited for the open edge (R130): its item gives the tick it was armed for (R131). -/
def Chip.lateAction (o : Otp) (n : Nat) (c : Chip) (d : Departure) : Chip :=
  let t := c.depTick d
  let c := if d.log || d.action == 0x0001 then c.logDep depFired t c.now d.id d else c
  if d.action = 0x0020 then c.commitAmend o d
  else if d.action = 0x0030 then c.weightEdge d
  else if d.action = 0x0040 then c.launchEdge d
  else if d.action = 0x0050 then (if c.postFails d then c.logDep depDropped t 0 d.id d else c.postEdge d)
  else if d.action = 0x0051 then c.doorbellEdge d
  else if d.action = 0x0070 then c.clockEdge o d [n]
  else c

/-- Apply what was deferred to an island's open edge, in the order it was deferred. -/
def Chip.lateActions (o : Otp) (c : Chip) (n : Nat) : Chip :=
  let its := fun (d : Departure) => depIslands d == [n] || (d.action == 0x0050 && (depIslands d).contains n)
  let mine := c.tt.deferred.filter its
  let c : Chip := { c with tt := { c.tt with deferred := c.tt.deferred.filter fun d => !its d } }
  mine.foldl (Chip.lateAction o n) c

/-- The next platform of a start-up or an exit begins OPENING 0.5 ms after the one before it (R46, R498). -/
def Chip.askPlatform (c : Chip) (p : Nat) : Chip :=
  { c with boot := { c.boot with opening := some p, openAt := c.elapsed + 500 * tUs } }

/-- The first planned platform from `p` on. -/
def Chip.nextPlatform (o : Otp) (c : Chip) (p : Nat) : Option Nat :=
  (List.range 8).find? fun q => decide (p ≤ q) && c.plannedIsland o (platIsland q) && decide ((c.island (platIsland q)).st = .closed)

/-- Begin with the platforms: the first opens now. -/
def Chip.firstPlatform (o : Otp) (c : Chip) : Chip :=
  match c.nextPlatform o 0 with
  | none => c
  | some p => (c.beginOpen (platIsland p)).askPlatform (p + 1)

/-- Step 15 (R46, R62): links, Ethernet and flex ports train. Without a planned link the step ends at once. -/
def Chip.beginLinks (c : Chip) : Chip :=
  let c : Chip := { c with boot := { c.boot with step := 15, linkAt := c.elapsed, opening := none } }
  let c := (c.fxTrain 0).fxTrain 1
  let c := c.plannedHalves.foldl (fun (c : Chip) (u : Nat × Nat) => if c.mayTrain u.1 u.2 then c.startTraining u.1 u.2 else c) c
  let c := c.originate c.plannedHalves
  let c := if c.im.fxMode 0 ≠ 2 ∧ c.im.fxMode 1 ≠ 2 then c.backLate else c
  if c.plannedHalves.isEmpty then { c with boot := { c.boot with step := 16, lockAt := c.elapsed } } else c

/-- Step 14 ends once no platform is still OPENING and none is left to open (R60). -/
def Chip.endStep14 (c : Chip) : Chip :=
  if c.boot.step ≠ 14 ∨ c.boot.opening.isSome ∨ (platIslands.any fun n => decide ((c.island n).st = .opening)) then c
  else if c.goodPlatforms < c.im.clk.minPlatforms then c.startStop 0x45
  else c.beginLinks

/-- What an exit from P2 opens after I10: the port dies that closed, or the platforms (R498). -/
def Chip.exitDies (o : Otp) (c : Chip) : Chip :=
  let l := [12, 13].filter fun n => c.plannedIsland o n && decide ((c.island n).st = .closed)
  if l.isEmpty then c.firstPlatform o else l.foldl Chip.beginOpen c

/-- An exit from P2 ends with its last open edge (R506). -/
def Chip.endExit (c : Chip) : Chip :=
  if c.pwr.st ≠ .exiting ∨ c.boot.opening.isSome ∨ !((platIslands ++ [10, 11, 12, 13]).all fun n => decide ((c.island n).st ≠ IslSt.opening)) then c
  else ((c.lastTrans c.pwr.began).setPwr fun p => { p with st := .run }).tryEnter

/-- An open edge moves an exit from P2 on. -/
def Chip.exitEdge (o : Otp) (c : Chip) (n : Nat) : Chip :=
  if c.pwr.st ≠ .exiting then c
  else if n = 11 then c.beginOpen 10
  else if n = 10 then (c.exitDies o).endExit
  else if isDieIsland n ∧ c.boot.opening.isNone = true ∧ ([12, 13].all fun k => decide ((c.island k).st ≠ IslSt.opening)) = true ∧
      (platIslands.all fun k => decide ((c.island k).st = .closed)) = true then (c.firstPlatform o).endExit
  else c.endExit

/-- An open edge moves step 8 on: I10, then I11, whose stacks begin to train (R46, R58). -/
def Chip.step8Edge (c : Chip) (n : Nat) : Chip :=
  if n = 10 then c.beginOpen 11
  else if n = 11 then { c with boot := { c.boot with step := 9, hbmWait := true } }
  else c

/-- An open edge moves step 14 on: I12, I13, then the platforms (R46, R58). -/
def Chip.bootEdge (o : Otp) (c : Chip) (n : Nat) : Chip :=
  if c.boot.stopped then c
  else if c.boot.step = 8 then c.step8Edge n
  else if c.boot.step ≠ 14 then c
  else if n = 12 then (if absentIsland o 13 then (c.firstPlatform o).endStep14 else c.beginOpen 13)
  else if n = 13 then (c.firstPlatform o).endStep14
  else c.endStep14

/-- An island enters OPEN (R485, R491): its replica is loaded, and what waited for it happens before any thread in it runs. -/
def Chip.openEdge (o : Otp) (c : Chip) (n : Nat) : Chip :=
  let i := c.island n
  let f := if isPlatIsland n then c.targetMhz (n - 2) else i.running
  let c := c.setIsland n fun i => { i with
    st := .opened, since := c.elapsed, prepare := false, replica := true, cycles := 0, cycAt := c.elapsed, running := f, change := none }
  let c := ((c.freshIsland n).lateActions o n).amIslandOpen o n
  let c := (c.replayHeld.portReplay).lastTrans i.began
  let c := if i.queued = some false then c.closeIsland n else c
  (c.bootEdge o n).exitEdge o n

/-! ### CLOSED -/

/-- The gate of an island closes (R488): what it held is gone, and a request that waited takes effect (R487). -/
def Chip.closedEdge (c : Chip) (n : Nat) : Chip :=
  let q := (c.island n).queued
  let c := (c.gateFlush n).finishClose n
  let c := if n = 1 then { c with ctl := { c.ctl with run := 0 } } else c
  let c := if q = some true ∧ !c.halted ∧ (c.pwr.st = .run ∨ c.pwr.st = .exiting) then c.beginOpen n else c
  c.entryStep

/-! ### Islands that do not open -/

/-- How long an island may take to open (R491). -/
def openLimit (n : Nat) : Nat := if isPlatIsland n ∨ n = 11 then 2 * tMs else 500 * tUs

/-- The image uses a port die: it plans a link or a port there (R60). -/
def Chip.dieUsed (c : Chip) (n : Nat) : Bool := !(c.dieHalves n).isEmpty || c.im.fxMode (n - 12) != 0 || c.im.ethEn (n - 12)

/-- The longest opening time passed (R60, R491). At start-up the package stops for I10, I11 or a port die that the image uses. -/
def Chip.openTimeout (o : Otp) (c : Chip) (n : Nat) : Chip :=
  let booting := decide (8 ≤ c.boot.step) && decide (c.boot.step ≤ 14) && !c.boot.stopped
  let c := if booting then c.setReg rPWR_FAILED (c.reg rPWR_FAILED ||| 2 ^ n) else c
  if isPlatIsland n then (c.openFailed n |>.bootEdge o n).exitEdge o n
  else if booting && isDieIsland n && !c.dieUsed n then (c.setIsland n fun i => { i with st := .closed, since := c.elapsed }).bootEdge o n
  else if booting then (c.setIsland n fun i => { i with st := .closed, since := c.elapsed }).startStop 0x45
  else if isDieIsland n then (c.openFailed n).exitEdge o n
  else c

end Sys2Proof.Machine
end

