-- ==== Sys2Proof/Machine/StartOps.lean ====
section
/-! DEFINITION. Start-up from t0 to the first lock: what a restart keeps, the fuses, the flash devices, slots, HBM and hand-over
(02_start_up.md R43–R73; 03_amibo_image.md R90, R102; 20_security_and_debug.md R509). -/

namespace Sys2Proof.Machine

/-! ### t0 (R44, R501) -/

/-- A number other than the last one, drawn anew. -/
def Chip.drawOther (c : Chip) (last range : Nat) : Nat × Chip :=
  let (v, c) := c.draw
  ((last + 1 + v % (range - 1)) % range, c)

/-- What t0 leaves of the package: I0's clock, the retention ledger, the boot attempt count, the wear store, the record of a brown-out, and what lies outside
I0 to I13 (the flash devices, the mirror's device, the ports' reset pins, the test port). The LSA boot number and AMD_EPOCH are drawn anew. -/
def Chip.atT0 (c : Chip) : Chip :=
  let (bootNo, c) := c.drawOther c.net.boot 65536
  let (epoch, c) := c.draw
  { elapsed := c.elapsed
    draws := c.draws
    regs := c.regs.filter fun (e : Nat × Word) => e.1 == rPWR_BROWN
    isl := setAt (List.replicate 14 {}) 0 fun i => { i with st := .opened, since := c.elapsed }
    boot := { t0 := c.elapsed, count := c.boot.count, step := 1 }
    net := { boot := bootNo }
    amd := { epoch := 1 + epoch % (2 ^ 64 - 1) }
    flashA := { data := c.flashA.data }
    flashB := { data := c.flashB.data }
    flt := { ret := c.flt.ret, retNext := c.flt.retNext }
    mirror := { data := c.mirror.data, size := c.mirror.size, erases := c.mirror.erases }
    ports := { fx := c.ports.fx.map fun x => { perst := x.perst } }
    tap := c.tap
    wear := { v0 := c.wear.v0, points := c.wear.points, age := c.wear.age, erases := c.wear.erases, slots := c.wear.slots
              flashDays := c.wear.flashDays, stress := c.wear.stress, lost := c.wear.lost, dayAt := c.elapsed, sampleAt := c.elapsed, slowAt := c.elapsed, fastAt := c.elapsed } }

/-! ### Step 2: the fuses (R46, R509, R510) -/

/-- The secrets that a move to RETURNED or SCRAPPED erases. -/
def Otp.eraseSecrets (o : Otp) : Otp := { o with keks := o.keks.map fun k => { k with key := [], erased := true }, seed := [] }

/-- Complete a transition whose copy A is programmed. -/
def Otp.finishLifecycle (o : Otp) : Otp :=
  if o.lcA = o.lcB ∧ o.lcA = o.lcC then o
  else
    let o := if o.lcA = 3 ∨ o.lcA = 4 then o.eraseSecrets else o
    { o with lcB := o.lcA, lcC := o.lcA }

/-! ### Steps 3–5 (R42, R45–R50) -/

/-- SB_PKGID holds a reserved code (R35, R42), or a SHIP code that R35 does not list (log entry 78). -/
def Otp.reservedId (o : Otp) : Bool := !(inRange 1 4 o.assy && inRange 1 2 o.grade && inRange 1 2 o.ship)

/-- The lines of a flash group by their place in NVM_PINCHK (R72): 0 CS_N, 1 SCK, 2 DQS, 3 RESET_N, 4 to 11 DQ. In service hold every one is released
(R45); after step 4 a line found stuck or bridged is never driven (R50). -/
def Chip.flashLine (c : Chip) (fallback : Bool) (line : Nat) : FlashLine :=
  let chk := c.reg (if fallback then rNVM_PINCHK_FBK else rNVM_PINCHK_PRI)
  if c.boot.stopped && c.boot.code == 0x46 then .released
  else if decide (5 ≤ c.boot.step) && decide (2 ≤ bitsOf chk (2 * line + 1) (2 * line)) then .undriven
  else .usable

/-- Step 4: the pin checks, then the recovery wait of step 5; service hold stops here. Both slot codes begin anew (log entry 79). -/
def Chip.pinCheck (c : Chip) (checkA checkB : Word) : Chip :=
  let b := c.boot
  let c : Chip := { c with boot := { b with
    step := 4, slotA := 0, slotB := 0, okA := false, okB := false, triedA := false, triedB := false, chosen := none, waitUntil := none } }
  let c := (c.setReg rNVM_PINCHK_PRI (checkA.toNat % 2 ^ 24)).setReg rNVM_PINCHK_FBK (checkB.toNat % 2 ^ 24)
  if b.strap % 4 = 3 then ({ c with boot := { c.boot with slotA := 0x2D, slotB := 0x2D } } : Chip).startStop 0x46
  else { c with boot := { c.boot with step := 5, waitUntil := some (c.elapsed + tMs) } }

/-- Step 3: the boot-default pins apply (R47), I1 opens, core 0 runs the boot ROM, and SB_PKGID is checked before the flash devices are touched. -/
def Chip.step3 (o : Otp) (c : Chip) (obs : BootObs) : Chip :=
  let c := ({ c with boot := { c.boot with step := 3 } } : Chip).bootPins c.boot.strap
  if !obs.i1 then c.beginOpen 1
  else
    let c := c.setIsland 1 fun i => { i with st := .opened, since := c.elapsed, began := c.elapsed, replica := true }
    let c := c.setCtl fun k => { k with run := 1 }
    if o.reservedId then c.startStop 0x43 else c.pinCheck obs.checkA obs.checkB

/-- PORST_N rises (R43–R46). -/
def State.startUp (s : State) (obs : BootObs) : State :=
  let c := s.chip.atT0
  let c : Chip := { c with boot := { c.boot with step := 2, strap := obs.strap.toNat, count := c.boot.count + 1 } }
  if !obs.otpOk then { s with chip := (c.startStop 0x41).settle s.otp }
  else
    let o := s.otp.finishLifecycle
    let c := if o.lc = 4 then c.startStop 0x42 else c.step3 o obs
    { s with otp := o, chip := c.settle o }

/-- A wake from P3 (R501): start-up from step 3, with the counter, the straps and the lifecycle as they are. The I3C target of I0, which serves in every
power state (R565), keeps its address, and AF is 0 for the time in P3 (R558). -/
def Chip.startWake (o : Otp) (c : Chip) (src : Nat) (obs : BootObs) : Chip :=
  let counter := c.tt.counter
  let frac := c.tt.frac
  let strap := c.boot.strap
  let i3c := c.i3c
  let slept : WearStress := { taken := c.elapsed, span := c.elapsed - (c.island 1).since, af := 0, tj := 0, vdd := 0, asleep := true }
  let c := c.atT0
  let c : Chip := { c with tt := { c.tt with counter := counter, frac := frac }, boot := { c.boot with strap := strap, wake := true }
                           pwr := { c.pwr with lastWake := src }, i3c := i3c
                           wear := { c.wear with stress := c.wear.stress ++ [slept] } }
  c.step3 o obs

/-! ### Steps 5–8: the flash devices (R48–R54, R560) -/

/-- Two bits of a line in a pin check. -/
def lineOf (chk k : Nat) : Nat := bitsOf chk (2 * k + 1) (2 * k)

/-- Add the opens that step 6 found to what step 4 found: bits 0–7 of the opens are DQ, bit 8 is DQS. -/
def addOpens (chk : Nat) (opens : BitVec 9) : Nat :=
  (List.range 9).foldl (fun w k =>
    let line := if k = 8 then 2 else 4 + k
    if opens.getLsbD k && lineOf w line == 0 then w + 2 ^ (2 * line) else w) chk

/-- The read mode of a device (R51): its code, 0 when no mode is left. -/
def readMode (chk : Nat) (capped : Bool) : Nat :=
  let good := fun k => lineOf chk k == 0
  let dq := (List.range 8).all fun k => good (4 + k)
  if !(good 0 && good 1 && good 3) then 0
  else if dq && good 2 then (if capped then 2 else 1)
  else if dq then 3
  else if good 4 && good 5 then 4
  else 0

/-- A device after step 6, with its slot code: 0 when it can be read. -/
def Flash.probed (f : Flash) (mode sfdp : Nat) : Flash × Nat :=
  if mode = 0 then ({ f with density := 0, usable := false }, 0x20)
  else if sfdp = 0 then ({ f with density := 0, usable := false }, 0x21)
  else ({ f with density := sfdp, usable := true }, 0)

/-- The IMAGE_ID and SEQUENCE of a slot's header. -/
def Flash.identity (f : Flash) : List Byte := f.read 0x10 20

/-- A changed IMAGE_ID or SEQUENCE counts one erase of its device (R560). -/
def Wear.countErase (w : Wear) (k : Nat) (f : Flash) (code : Nat) : Wear :=
  let last := w.slots.getD k []
  if !f.usable || code == 0x22 || last == f.identity then w
  else
    let w := { w with slots := setAt w.slots k fun _ => f.identity }
    if last.isEmpty then w else { w with erases := setAt w.erases k (· + 1) }

/-- No slot succeeded in this attempt (R54). -/
def Chip.attemptEnd (c : Chip) : Chip :=
  if 2 ≤ c.boot.attempt then c.startStop 0x40
  else { c with boot := { c.boot with waitUntil := some (c.elapsed + tSec) } }

/-- Step 8, or step 9 when I10 and I11 are open already. -/
def Chip.chooseSlot (c : Chip) (k : Nat) : Chip :=
  let c : Chip := { c with boot := { c.boot with chosen := some k, step := 8 } }
  if c.islOpen 11 then { c with boot := { c.boot with step := 9 } } else c.beginOpen 10

/-- Step 7: the slot to try. -/
def Chip.pickSlot (c : Chip) : Chip :=
  let b := c.boot
  let seqA := fieldAt (c.flashA.read 0x20 4) 0 4
  let seqB := fieldAt (c.flashB.read 0x20 4) 0 4
  if b.okA && (!b.okB || decide (seqB ≤ seqA)) then c.chooseSlot 0
  else if b.okB then c.chooseSlot 1
  else c.attemptEnd

/-- Steps 6 and 7: SFDP, the read modes, and the headers. -/
def Chip.readHeaders (o : Otp) (c : Chip) (sfdpA sfdpB : Nat) (openA openB : BitVec 9) : Chip :=
  let strap := c.boot.strap
  let chkA := addOpens (c.reg rNVM_PINCHK_PRI) openA
  let chkB := addOpens (c.reg rNVM_PINCHK_FBK) openB
  let mA := readMode chkA (strap.testBit 2)
  let mB := readMode chkB (strap.testBit 2)
  let (fA, eA) := c.flashA.probed mA sfdpA
  let (fB, eB) := c.flashB.probed mB sfdpB
  let codeA := if eA ≠ 0 then eA else headerCode o fA
  let codeB := if eB ≠ 0 then eB else headerCode o fB
  let c := c.setReg rNVM_PINCHK_PRI (chkA + (if fA.usable then mA else 0) * 2 ^ 24)
  let c := c.setReg rNVM_PINCHK_FBK (chkB + (if fB.usable then mB else 0) * 2 ^ 24)
  let slotA := if strap % 4 = 2 then 0x2D else codeA
  let slotB := if strap % 4 = 1 then 0x2D else codeB
  { c with
    flashA := fA, flashB := fB, wear := (c.wear.countErase 0 fA codeA).countErase 1 fB codeB
    boot := { c.boot with step := 7, waitUntil := none, slotA := slotA, slotB := slotB, okA := slotA == 0, okB := slotB == 0
                          outA := c.boot.outA || (slotA != 0 && slotA != 0x2D) } }

/-! ### Steps 9–12 (R53–R59) -/

/-- The chosen device. -/
def Chip.chosenFlash (c : Chip) : Flash := if c.boot.chosen = some 1 then c.flashB else c.flashA
def Chip.slotCode (c : Chip) (k code : Nat) : Chip :=
  { c with boot := if k = 0 then { c.boot with slotA := code, triedA := true, outA := c.boot.outA || code != 0x01 } else { c.boot with slotB := code, triedB := true } }

/-- The slot code of the step that a failure belongs to. -/
def failStep (code : Nat) : Nat := if code ≤ 0x26 then 9 else if code ≤ 0x29 then 10 else 11

/-- The chosen slot fails: the other one is tried, or the attempt ends (R53, R54). -/
def Chip.slotFail (c : Chip) (code : Nat) : Chip :=
  let k := c.boot.chosen.getD 0
  let c := c.slotCode k code
  let c : Chip := { c with boot := { c.boot with step := failStep code } }
  let other := if k = 0 then c.boot.okB && !c.boot.triedB else c.boot.okA && !c.boot.triedA
  if other && c.boot.strap % 4 == 0 then { c with boot := { c.boot with chosen := some (1 - k), step := 9 } } else c.attemptEnd

/-- The fitted stacks that failed training (R59). -/
def Chip.missingStacks (o : Otp) (c : Chip) : List Nat := (List.range 8).filter fun n => o.stackMask.testBit n && !c.boot.trained.testBit n

/-- The stacks that trained are too few, or some are missing (R59). Both the image and HBM must be there. -/
def Chip.stacksReady (o : Otp) (c : Chip) : Chip :=
  match c.boot.loaded with
  | none => c
  | some im =>
    if c.boot.hbmWait || c.boot.step != 12 then c
    else
      let missing := c.missingStacks o
      if popCount 8 c.boot.trained < im.clk.minStacks then c.startStop 0x44
      else { c with boot := { c.boot with hbmShort := !missing.isEmpty } }

/-- The chosen slot passed steps 9 to 11 (R53, R56, R71). -/
def Chip.slotGood (o : Otp) (c : Chip) (im : Image) : Chip :=
  let k := c.boot.chosen.getD 0
  let mode := c.regField (if k = 0 then rNVM_PINCHK_PRI else rNVM_PINCHK_FBK) 27 24
  let full := if c.boot.strap.testBit 2 then 2 else 1
  let c := c.slotCode k 0x01
  ({ c with boot := { c.boot with
      step := 12, loaded := some im, unanchored := o.lc == 0, degraded := mode != full, fallback := k == 1 && c.boot.outA } } : Chip).stacksReady o

/-- HBM training ends with the stacks of a mask trained (R59). -/
def Chip.hbmTrained (o : Otp) (c : Chip) (mask : Nat) : Chip :=
  let t := mask &&& o.stackMask
  let c : Chip := { c with boot := { c.boot with trained := t, hbmWait := false }
                           mem := { c.mem with hbmFitted := popCount 8 o.stackMask * 589824, hbmFrames := popCount 8 t * 589824 - 16384 } }
  (c.setField rMEM_STAT 23 16 t).stacksReady o

/-! ### Hand-over (R46, R90, R102, R306, R331, R454) -/

/-- MODE and PARK of the matrix plan: SB_MATRIX, SB_PARK0 and SB_PARK1. -/
def matrixRegs (im : Image) : Nat × Nat × Nat :=
  match im.plan? 0xFFFF0003 with
  | none => (0x0F, packFields [(4, 0), (4, 0), (4, 0), (4, 1), (4, 6), (4, 2), (4, 2), (4, 3)], 0)
  | some b => (maskOf ((List.range 8).filter fun m => fieldAt b (8 + m) 1 == 1), packFields ((List.range 8).map fun t => (4, fieldAt b (16 + t) 1)), fieldAt b 24 1)

/-- The registers of the running image and the matrix plan. -/
def Chip.imageRegs (c : Chip) (im : Image) : Chip :=
  let c := (c.setRegBytes rNVM_IMGID im.imageId).setReg rNVM_RUNSEQ im.sequence
  let c := (c.setReg rNVM_RUNSECVER im.secVer).setReg rNVM_RUNSIG
    (packFields [(2, im.form), (1, bit im.encrypted), (5, 0), (8, im.wrapUsed), (8, im.anchor)])
  let m := matrixRegs im
  ((c.setReg rSB_PKGNUM c.pkg).setReg rSB_MATRIX m.1).setReg rSB_PARK0 m.2.1 |>.setReg rSB_PARK1 m.2.2

/-- The image defaults of the fields that an amendment may change. -/
def Chip.planRegs (c : Chip) (im : Image) : Chip :=
  let c := (c.setReg64 rTT_TURN_LO im.clk.turnPeriod).setReg rTT_SYNC_CFG (im.clk.syncMode + 4)
  let c := (List.range 24).foldl (fun (c : Chip) l => if (im.linkPlan c.pkg l).kind = 0 then c else c.setReg (rLNK_CTL + l * 0x800) 1) c
  let c := match im.seqPlan with
    | some p => (c.setReg rSEQ_RESERVE p.reserve).setReg rSEQ_PARKBUDGET p.budget
    | none => c
  let c := im.clk.roles.zipIdx.foldl (fun (c : Chip) (e : Nat × Nat) => (c.setReg (rAMD_ROLE + 4 * e.2) e.1).setRole e.2 e.1) c
  im.clk.mhz.zipIdx.foldl (fun (c : Chip) (e : Nat × Nat) => c.setIsland (platIsland e.2) fun i => { i with mhz := e.1 }) c

/-- The channels of the turntable at the start: INIT_VERSION in bank 0. -/
def startChannels (im : Image) : List TrnCh :=
  match im.trnPlan with
  | none => []
  | some p => p.chans.map fun ch => { current := ch.initVersion }

/-- Ohmax is copied into working SRAM, its BSS is zeroed, and what the boot ROM wrote above is a free value. -/
def Chip.loadOhmax (c : Chip) (im : Image) : Chip :=
  let kept := c.ctl.sram.filter fun (e : Nat × Byte) => decide (im.ohmax.code.length + im.ohmax.bssLen ≤ e.1)
  let c := c.setCtl fun k => { k with sram := kept }
  let c := c.sramWrite 0 im.ohmax.code
  let d := c.draws
  ({ c with draws := d + 1 } : Chip).setCtl fun k => { k with hand := some d, handed := [], run := 0xF }

/-- Step 13, then step 14 begins: the pin plan applies and I12 opens. The notices of failed stacks (R59) are logged here, where ring 0x0002 opens (R66). -/
def Chip.handOver (o : Otp) (c : Chip) (im : Image) : Chip :=
  let c : Chip := { c with image := some im, pkg := im.number o, boot := { c.boot with step := 13, loaded := none, ohmaxAt := some c.elapsed }
                           trn := startChannels im }
  let c := (c.imageRegs im).planRegs im
  let c := im.rings.foldl Chip.loadRing c.setupSystemRings
  let c := (c.backStart.loadOhmax im).setReg rSB_REMAP 1
  let c := (c.missingStacks o).foldl (fun (c : Chip) n => c.notice 59 n) c
  let c : Chip := { c.applyPins with boot := { c.boot with step := 14, opening := none } }
  c.beginOpen 12

end Sys2Proof.Machine
end

