-- ==== Sys2Proof/Machine/WakeOps.lean ====
section
/-! DEFINITION. Entry to P2 and P3, wakes, brown-outs, thermal ceilings and the power ceiling
(19_power_states.md R496–R505; 23_electrical.md R573, R574, R585–R588). -/

namespace Sys2Proof.Machine

/-! ### Entry and wake (R497–R502) -/

/-- Every platform is closed, and each port die is closed or holds its sidings. -/
def Chip.entryReady (c : Chip) : Bool :=
  c.pwr.st == .entering && c.allClosed platIslands &&
    [12, 13].all fun n => decide ((c.island n).st = .closed) ||
      (!c.pwr.deep && decide ((c.island n).st = .opened) && !(c.island n).prepare && c.sidingsHold (n - 12))

def Chip.shutIsland (c : Chip) (n : Nat) : Chip :=
  c.setIsland n fun i => { i with st := .closed, since := c.elapsed, leftOpen := c.elapsed, replica := false, queued := none }

/-- What P3 loses (R499): everything but I0. The counter goes on from the crystal, in HOLDOVER. -/
def Chip.loseForP3 (c : Chip) : Chip :=
  { c with
    tt := { counter := c.tt.counter, frac := c.tt.frac, turnNum := c.tt.turnNum, boundary := c.tt.boundary, st := .holdover }
    mem := {}, rings := [], cancelled := [], cells := List.replicate 64 {}, xfers := [], disp := {}, seq := {}, trn := [], col := {}, arms := []
    net := { boot := c.net.boot }, amd := { epoch := c.amd.epoch, since := c.amd.since }, ctl := {} }

/-- Entry ends (R496, R497, R499): the depot is written back, I10 and I11 close, and for P3 a standby record is written and I1 closes. -/
def Chip.entryDone (c : Chip) : Chip :=
  let c : Chip := { c with mem := { c.mem with depot := [] } }
  let c := ((c.shutIsland 10).shutIsland 11).lastTrans c.pwr.began
  if c.pwr.deep then
    let c := ((c.keepOnly { kind := kSTANDBY }).shutIsland 1).loseForP3
    c.setPwr fun p => { p with st := .standby, pendWake := none }
  else
    let c := c.setPwr fun p => { p with st := .retained }
    match c.pwr.pendWake with
    | some src => c.beginExit src
    | none => c

/-- A wake source (R487, R500–R502). In P3 every rail must be there; else the package waits for it. -/
def Chip.wake (o : Otp) (c : Chip) (src : Nat) (rails : Bool) (obs : BootObs) : Chip :=
  if c.pwr.st = .standby then
    (if rails then c.startWake o src obs else c.setPwr fun p => { p with st := .railWait, railAt := c.elapsed, pendWake := some src })
  else c.wakeP2 src

/-- A wake source may act: the package sleeps, or is about to. -/
def Chip.sleepy (c : Chip) : Bool := c.pwr.st == .retained || c.pwr.st == .entering || c.pwr.st == .standby

/-! ### Brown-outs and the loss of VDD_AO (R573, R574) -/

/-- The fitted rails that I0 monitors (R27, R573, R589). -/
def railMonitored (o : Otp) (rail : Nat) : Bool := decide (rail < 12) && !(o.assy == 4 && (rail == 3 || rail == 5 || rail == 7))

/-- A brown-out; I0 sees none while it is held itself. -/
def Chip.brownOut (o : Otp) (c : Chip) (rail : Nat) : Chip :=
  if !railMonitored o rail || !c.islOpen 0 || c.pwr.st == .standby || c.pwr.st == .railWait || (c.pwr.st == .entering && c.pwr.deep) then c
  else
    let c := (c.setField rPWR_BROWN 3 0 rail).bumpField rPWR_BROWN 31 16 1
    let c := c.atT0
    { c with boot := { c.boot with step := 0, held := true } }

/-- I0 is held: nothing of the package is left but what lies outside it. -/
def Chip.aoReset (c : Chip) : Chip :=
  { elapsed := c.elapsed, draws := c.draws, flashA := { data := c.flashA.data }, flashB := { data := c.flashB.data }
    mirror := { data := c.mirror.data, size := c.mirror.size }, ports := { fx := c.ports.fx.map fun x => { perst := x.perst } }
    boot := { held := true } }

/-! ### AVS (R504, R505) -/

/-- The next target: toward the need, within 0.65 V to 0.85 V in steps of 5 mV, by at most 10 mV. -/
def avsNext (target need : Nat) : Nat :=
  let want := min 850 (max 650 (ceilDiv need 5 * 5))
  if target < want then min want (target + 10) else max want (target - 10)

/-- The step that the sensed supply allows a platform; 0xFFFF when it has what it needs. -/
def Chip.supplyStep (c : Chip) (plat step sensed : Nat) : Chip :=
  let c := (c.setField rPWR_AVS 9 0 sensed).setPwr fun p => { p with supp := setAt p.supp plat fun _ => step, sensed := sensed }
  c.retune plat

/-! ### Thermal ceilings (R585) -/

/-- A ceiling after a fall, from the set frequency where there was none. -/
def ceilFall (ceil set fall : Nat) : Nat := max 600 (min ceil set - fall)
/-- A ceiling after a rise; none once it reaches the set frequency. -/
def ceilRise (ceil set : Nat) : Nat := if set ≤ ceil + 25 then 0xFFFF else ceil + 25

/-- One platform at one sample. -/
def Chip.thermalPlat (c : Chip) (p : Nat) (t hbm : Int) : Chip :=
  let w := c.pwr
  let ceil := w.therm.getD p 0xFFFF
  let set := (c.island (platIsland p)).mhz
  let down := w.thermDown.getD p 0
  let fall := (if 1000 ≤ t then 100 else 0) + if 1000 ≤ hbm then 50 else 0
  let last := max down (w.thermUp.getD p 0)
  if fall ≠ 0 then
    (if ceil = 0xFFFF ∨ down + tMs ≤ c.elapsed then
      (if ceil = 0xFFFF then c.bumpField rPWR_THRCNT 15 0 1 else c).setPwr fun w => { w with
        therm := setAt w.therm p fun _ => ceilFall ceil set fall, thermDown := setAt w.thermDown p fun _ => c.elapsed }
    else c)
  else if ceil ≠ 0xFFFF ∧ t < 970 ∧ hbm < 970 ∧ last + 10 * tMs ≤ c.elapsed then
    c.setPwr fun w => { w with therm := setAt w.therm p fun _ => ceilRise ceil set, thermUp := setAt w.thermUp p fun _ => c.elapsed }
  else c

/-- A flag with hysteresis: set at or above a limit, clear below another. -/
def hyst (was : Bool) (t setAtLim clearBelow : Int) : Bool := if setAtLim ≤ t then true else if t < clearBelow then false else was

/-- A sample of the thermal sensors, in 0.1 °C. -/
def Chip.thermal (c : Chip) (plat port hbm : List Int) : Chip :=
  let top := fun (l : List Int) => l.foldl max (-1000)
  let hot := c.pwr.portHot
  let c := c.setPwr fun w => { w with
    hbm2x := hyst w.hbm2x (top hbm) 950 920, hbmHot := hyst w.hbmHot (top hbm) 1000 970, portHot := hyst w.portHot (top port) 1000 970 }
  let c := if c.pwr.portHot && !hot then c.notice 585 0 else c
  ((List.range 8).foldl (fun (c : Chip) p => c.thermalPlat p (plat.getD p (-1000)) (top hbm)) c).retuneAll

/-! ### The power estimate (R587) -/

def Chip.peakCap (c : Chip) : Nat := c.regField rPWR_PCAP 31 16
def Chip.sustCap (c : Chip) : Nat := c.regField rPWR_PCAP 15 0

/-- The highest frequency that any platform would run at without the power ceiling. -/
def Chip.topMhz (c : Chip) : Nat :=
  (List.range 8).foldl (fun m p =>
    max m (min (min (c.island (platIsland p)).mhz (c.pwr.therm.getD p 0xFFFF)) (c.pwr.supp.getD p 0xFFFF))) 0

/-- The power ceiling moves (R587): down while gating for SUST is active, up while the estimate stays 25 W below SUST. -/
def Chip.movePceil (c : Chip) (watts : Nat) : Chip :=
  let w := c.pwr
  if w.sgate then
    (if w.pceilDown + tMs ≤ c.elapsed then c.setPwr fun w => { w with pceil := max 600 (min w.pceil c.topMhz - 25), pceilDown := c.elapsed } else c)
  else if c.sustCap < watts + 25 then c.setPwr fun w => { w with pceilUp := c.elapsed }
  else if w.pceil < 0xFFF ∧ max w.pceilUp w.pceilDown + 10 * tMs ≤ c.elapsed then
    c.setPwr fun w => { w with pceil := if c.topMhz ≤ w.pceil + 25 then 0xFFF else w.pceil + 25, pceilUp := c.elapsed }
  else c

/-- A 1 µs estimate, and what it would be without gating. -/
def Chip.estimate (c : Chip) (watts ungated : Nat) : Chip :=
  let w := c.pwr
  let ests := (watts :: w.ests).take 1000
  let most := max w.estMax watts
  let peak := decide (c.peakCap < watts) || (w.pgate && decide (c.peakCap < ungated))
  let sust := w.sgate && decide (c.sustCap < ungated)
  let over' := if c.sustCap < watts then some (w.overSince.getD c.elapsed) else none
  let c := c.setPwr fun w => { w with ests := ests, estMax := most, pgate := peak, sgate := sust, overSince := over' }
  let c := if peak && !w.pgate && !w.sgate then c.bumpField rPWR_THRCNT 31 16 1 else c
  let c := (c.setField rPWR_PEST 31 16 (min most 0xFFFF)).setField rPWR_PEST 15 0 (min (ests.foldl (· + ·) 0 / ests.length) 0xFFFF)
  (c.movePceil watts).retuneAll

/-- The estimate stayed above SUST for 9 ms. The power ceiling first falls 1 ms after gating begins. -/
def Chip.gateSustained (c : Chip) : Chip :=
  match c.pwr.overSince with
  | none => c
  | some t =>
    if c.pwr.sgate then c
    else
      let c := c.passTo (t + 9 * tMs)
      let c := if c.pwr.pgate then c else c.bumpField rPWR_THRCNT 31 16 1
      c.setPwr fun w => { w with sgate := true, pceilDown := c.elapsed }

end Sys2Proof.Machine
end

