-- ==== Sys2Proof/Machine/Power.lean ====
section
/-! DEFINITION. Islands and power states, AVS, thermal and power limits (19_power_states.md; 23_electrical.md). -/

namespace Sys2Proof.Machine

/-! ### The operations of ISLAND_STATE (R486) -/

/-- Fire the next departure when it is an ISLAND_STATE of one operation. -/
def Chip.fireIslandState (o : Otp) (c : Chip) (op : Nat → Bool) : Chip :=
  c.fireDep (fun d => d.action == 0x0060 && op d.arg) fun d _ c => c.islandState o d.scope d.arg

/-- ISLAND_OPEN, and an ISLAND_STATE with a reserved operation, which has no effect but its notice. -/
def execIslandOpen (s : State) : Host.Outcome State Fault Refusal :=
  s.runO fun o c => c.fireIslandState o fun a => a != 2 && a != 3 && a != 4

/-- ISLAND_CLOSE. -/
def execIslandClose (s : State) : Host.Outcome State Fault Refusal := s.runO fun o c => c.fireIslandState o (· == 2)

/-- ENTER_P2. -/
def execEnterP2 (s : State) : Host.Outcome State Fault Refusal := s.runO fun o c => c.fireIslandState o (· == 3)

/-- ENTER_P3. -/
def execEnterP3 (s : State) : Host.Outcome State Fault Refusal := s.runO fun o c => c.fireIslandState o (· == 4)

/-! ### Closing and opening (R488–R495) -/

/-- ISLAND_PREPARE_DONE: a platform's saves have ended, or a die's flits are acknowledged or its 50 µs passed. -/
def execIslandPrepareDone (isl : Fin 14) (s : State) : Host.Outcome State Fault Refusal :=
  s.run fun c =>
    let i := c.island isl.val
    if i.st ≠ .opened ∨ !i.prepare ∨ (isPlatIsland isl.val ∧ !c.prepared isl.val) then c else c.prepareEnd isl.val

/-- ISLAND_CLOSED. -/
def execIslandClosed (isl : Fin 14) (s : State) : Host.Outcome State Fault Refusal :=
  s.run fun c => if (c.island isl.val).st = .closing then c.closedEdge isl.val else c

/-- ISLAND_CLOSING_LIMIT: after 20 µs the gate completes what is left. -/
def execIslandClosingLimit (isl : Fin 14) (s : State) : Host.Outcome State Fault Refusal :=
  s.run fun c =>
    let i := c.island isl.val
    if i.st = .closing then (c.passTo (i.since + 20 * tUs)).gateFlush isl.val else c

/-- ISLAND_OPEN_EDGE. The edge of I1 comes within the start-up (R46). -/
def execIslandOpenEdge (isl : Fin 14) (s : State) : Host.Outcome State Fault Refusal :=
  s.runO fun o c => if 1 < isl.val ∧ (c.island isl.val).st = .opening then c.openEdge o isl.val else c

/-- PLATFORM_OPEN_INTERVAL: the next platform begins OPENING, once the one before it is no longer OPENING (R46, R58, R498). -/
def execPlatformOpenInterval (s : State) : Host.Outcome State Fault Refusal :=
  s.runO fun o c =>
    match c.boot.opening with
    | none => c
    | some p =>
      if c.boot.stopped ∨ (platIslands.any fun n => decide ((c.island n).st = IslSt.opening)) = true ∧ c.boot.step = 14 then c
      else
        let c := c.passTo c.boot.openAt
        match c.nextPlatform o p with
        | some q => (c.beginOpen (platIsland q)).askPlatform (q + 1)
        | none => (({ c with boot := { c.boot with opening := none } } : Chip).endStep14).endExit

/-- The oldest write that a closed island bounced: of the package's own sources, or of a port. -/
def Chip.expireBounce (c : Chip) : Chip :=
  let limit := c.regField rPWR_BOUNCE 15 0 * tMs
  match c.net.held.find? (·.bounced), c.ports.held with
  | some e, w :: l =>
    if e.since ≤ w.since then (c.passTo (e.since + limit)).dropHeld e
    else ((c.passTo (w.since + limit)).setPorts fun p => { p with held := l }).bump rPWR_EXPIRED
  | some e, [] => (c.passTo (e.since + limit)).dropHeld e
  | none, w :: l => ((c.passTo (w.since + limit)).setPorts fun p => { p with held := l }).bump rPWR_EXPIRED
  | none, [] => c

/-- BOUNCE_EXPIRY. -/
def execBounceExpiry (s : State) : Host.Outcome State Fault Refusal := s.run Chip.expireBounce

/-! ### P2 and P3 (R497–R502) -/

/-- P2_ENTRY_COMPLETE: the end of an entry, to P2 or P3. -/
def execP2EntryComplete (s : State) : Host.Outcome State Fault Refusal := s.run fun c => if c.entryReady then c.entryDone else c

/-- WAKE_ALARM: the counter reaches PWR_ALARM. `rails` says that every rail is there. -/
def execWakeAlarm (rails : Bool) (obs : BootObs) (s : State) : Host.Outcome State Fault Refusal :=
  s.runO fun o c =>
    let t := c.reg64 rPWR_ALARM_LO
    if !c.sleepy || !(c.reg rPWR_WAKECFG).testBit 0 || decide (t < c.tt.counter) then c else (c.reachTick t).wake o 1 rails obs

/-- WAKE_PIN: an edge on a pin. -/
def execWakePin (pin : Fin 48) (rising rails : Bool) (obs : BootObs) (s : State) : Host.Outcome State Fault Refusal :=
  s.runO fun o c =>
    let w := c.reg rPWR_WAKECFG
    let x := c.pin pin.val
    let takes := x.cfg.fn == fnGpioIn && decide (40 ≤ pin.val) && w.testBit (8 + (pin.val - 40)) && w.testBit 1 && (w.testBit 16 != rising)
    let c := if x.cfg.fn = fnGpioIn then c.setPin pin.val fun p => { p with level := rising, input := rising } else c
    if c.sleepy && takes then c.wake o 2 rails obs else c

/-- WAKE_RAIL_TIMEOUT. -/
def execWakeRailTimeout (s : State) : Host.Outcome State Fault Refusal :=
  s.run fun c =>
    if c.pwr.st ≠ .railWait then c
    else ((c.passTo (c.pwr.railAt + 100 * tMs)).setPwr fun p => { p with st := .standby, pendWake := none }).notice 500 0

/-- RAIL_RETURN: a brown-out ends in a restart from t0, and a wake that waited goes on. -/
def execRailReturn (obs : BootObs) (s : State) : Host.Outcome State Fault Refusal :=
  if s.chip.boot.held then .next (s.startUp obs)
  else s.runO fun o c => if c.pwr.st = .railWait then c.startWake o (c.pwr.pendWake.getD 0) obs else c

/-! ### Supplies (R504, R505, R573, R574) -/

/-- AVS_TARGET_UPDATE, with the voltage in mV that the speed monitors ask for. -/
def execAvsTargetUpdate (need : Nat) (s : State) : Host.Outcome State Fault Refusal :=
  s.run fun c =>
    let target := c.regField rPWR_AVS 25 16
    let c := c.passTo (c.pwr.avsAt + 10 * tMs)
    if avsNext target need = target then c
    else (c.setField rPWR_AVS 25 16 (avsNext target need)).setPwr fun p => { p with avsAt := c.elapsed }

/-- AVS_DROOP: a platform runs at the highest 25 MHz step that the sensed supply allows. -/
def execAvsDroop (plat : Fin 8) (mhz sensed : Nat) (s : State) : Host.Outcome State Fault Refusal :=
  s.run fun c => c.supplyStep plat.val (mhz / 25 * 25) sensed

/-- VDD_CORE_RECOVERY: the supply is what the platform's frequency needs. -/
def execVddCoreRecovery (plat : Fin 8) (sensed : Nat) (s : State) : Host.Outcome State Fault Refusal :=
  s.run fun c => c.supplyStep plat.val 0xFFFF sensed

/-- BROWN_OUT of a rail, numbered as PWR_BROWN.RAIL numbers it. -/
def execBrownOut (rail : Nat) (s : State) : Host.Outcome State Fault Refusal := s.runO fun o c => c.brownOut o rail

/-- AO_POWER_ON_RESET. -/
def execAoPowerOnReset (s : State) : Host.Outcome State Fault Refusal := s.run Chip.aoReset

/-! ### Temperature and power (R585–R588) -/

/-- THERMAL_SAMPLE, in 0.1 °C: the platforms, the port dies and the stacks. -/
def execThermalSample (plat port hbm : List Int) (s : State) : Host.Outcome State Fault Refusal :=
  s.run fun c =>
    let c := c.passTo (c.pwr.sampleAt + 100 * tUs)
    (c.setPwr fun p => { p with sampleAt := c.elapsed }).thermal plat port hbm

/-- THERMAL_TRIP: S4. -/
def execThermalTrip (s : State) : Host.Outcome State Fault Refusal :=
  s.run fun c => c.raise { sev := 4, source := 0x0A, cause := 0x14, scope := .package }

/-- POWER_ESTIMATE, in watts, after another microsecond. -/
def execPowerEstimate (watts ungated : Nat) (s : State) : Host.Outcome State Fault Refusal :=
  s.run fun c => (c.pass tUs).estimate watts ungated

/-- POWER_SUSTAINED_GATE. -/
def execPowerSustainedGate (s : State) : Host.Outcome State Fault Refusal := s.run Chip.gateSustained

end Sys2Proof.Machine
end

