-- ==== Sys2Proof/Machine/RingCmds.lean ====
section
/-! DEFINITION. The ring engine's own events: the reservation timeout and the flushes (09_rings.md R244, R259–R261). -/

namespace Sys2Proof.Machine

/-- RESERVATION_TIMEOUT (R244): the oldest open reservation of a ring is voided 64 µs after its grant. -/
def execReservationTimeout (ring : BitVec 14) (s : State) : Host.Outcome State Fault Refusal :=
  let r := ring.toNat
  s.run fun c =>
    match (c.ring r).items.find? fun i => decide (i.st = .reserved) with
    | none => c
    | some i => (c.passTo (i.since + 64 * tUs)).voidItem r i.seq

/-- RING_DRAIN_FLUSH (R259, R261): an OPEN ring becomes FLUSHING. -/
def execRingDrainFlush (ring : BitVec 14) (s : State) : Host.Outcome State Fault Refusal :=
  s.run fun c => c.drainRing ring.toNat

/-- RING_DRAIN_END (R259): every reservation is committed or voided, or 64 µs have passed. -/
def execRingDrainEnd (ring : BitVec 14) (s : State) : Host.Outcome State Fault Refusal :=
  let r := ring.toNat
  s.run fun c =>
    match (c.ring r).drainSince with
    | none => c
    | some t => (if (c.ring r).hasOpen then c.passTo (t + 64 * tUs) else c).cutRing r

/-- RING_CUT_FLUSH (R260, R261): at once, on a ring that is OPEN or FLUSHING. -/
def execRingCutFlush (ring : BitVec 14) (s : State) : Host.Outcome State Fault Refusal :=
  s.run fun c => if (c.ring ring.toNat).st = .closed then c else c.cutRing ring.toNat

end Sys2Proof.Machine
end

