-- ==== Sys2Proof/Machine/Security.lean ====
section
/-! DEFINITION. Commands of the security root, the debug access port and the TAP (20_security_and_debug.md R508–R527). -/

namespace Sys2Proof.Machine

/-! ### Fuses (R509–R515) -/

/-- A meaning that may program fuses. -/
def State.fuse (s : State) (f : Otp → Chip → Otp × Chip) : Host.Outcome State Fault Refusal :=
  let r := f s.otp s.chip
  .next { s with otp := r.1, chip := r.2.settle r.1 }

/-- The first step of a transition: copy A, then the secrets. -/
def Otp.beginLifecycle (o : Otp) (target : Nat) : Otp :=
  let o := { o with lcA := target }
  if target = 3 ∨ target = 4 then o.eraseSecrets else o

/-- SEC_PROGSTAT; a failure is noticed (R511). -/
def Chip.progStat (c : Chip) (op result : Nat) : Chip :=
  let c := c.setReg rSEC_PROGSTAT (op * 256 + result)
  if result = 1 then c else c.notice 511 (op * 256 + result)

def Chip.dropProg (c : Chip) : Chip := { c with sec := { c.sec with progs := c.sec.progs.drop 1 } }

/-- LIFECYCLE_TRANSITION: the transition that SEC_LCREQ asked for. `ok` says that copy A is programmed; `obs` is what the restart from t0 meets (R509). -/
def execLifecycleTransition (ok : Bool) (obs : BootObs) (s : State) : Host.Outcome State Fault Refusal :=
  match s.chip.sec.progs with
  | .lifecycle t :: _ =>
    if (lcWho s.otp.lc t).isNone then .next { s with chip := s.chip.dropProg }
    else
      let c := s.chip.dropProg.keepOnly { kind := kLIFECYCLE, arg := t }
      if !ok then .next { s with chip := (c.progStat 5 2).settle s.otp }
      else
        let o := s.otp.beginLifecycle t
        .next (({ s with otp := { o with lcB := t, lcC := t }, chip := c } : State).startUp obs)
  | _ => .next s

/-- The state permits a write to a SEC register, and its precondition holds (R510). Whose amendment it is was settled when it was verified. -/
def Chip.secPermits (o : Otp) (c : Chip) (a v : Nat) : Bool :=
  match c.secOp o [] ⟨a, 0xFFFFFFFF, v⟩ with
  | some (who, good) => who.isSome && good
  | none => false

/-- KEY_SLOT_PROGRAM: SEC_GO = 1. -/
def execKeySlotProgram (s : State) : Host.Outcome State Fault Refusal :=
  s.runO fun o c => if c.secPermits o rSEC_GO 1 then c.askFuses (.keySlot (c.reg rSEC_KSPROG_SLOT % 16) c.stagedHash) else c

/-- KEK_PROGRAM: SEC_GO = 2. -/
def execKekProgram (s : State) : Host.Outcome State Fault Refusal :=
  s.runO fun o c => if c.secPermits o rSEC_GO 2 then c.askFuses (.kek (c.reg rSEC_KEKPROG_SLOT % 4) c.stagedKekId c.stagedWrap) else c

/-- KEY_REVOKE: SEC_KSREVOKE takes a mask. -/
def execKeyRevoke (mask : BitVec 16) (s : State) : Host.Outcome State Fault Refusal :=
  s.runO fun o c => if c.secPermits o rSEC_KSREVOKE mask.toNat then (c.setReg rSEC_KSREVOKE mask.toNat).askFuses (.revoke mask.toNat) else c

/-- ROLLBACK_FLOOR_RAISE: SEC_RBFLOOR takes a value. -/
def execRollbackFloorRaise (value : Word) (s : State) : Host.Outcome State Fault Refusal :=
  s.runO fun o c => if c.secPermits o rSEC_RBFLOOR value.toNat then c.askFuses (.floor value.toNat) else c

/-- Program fuses: the fuses afterwards with the code of R529, 1 OK, 2 FUSE_FAIL, 3 UNWRAP_FAIL. A slot that is programmed stays as it is, and a
revoked bit that is set stays set. -/
def Otp.program (o : Otp) (ok : Bool) : ProgOp → Otp × Nat
  | .keySlot n hash =>
    if ok && !(o.slots.getD n {}).programmed && decide (n < o.slots.length) then
      ({ o with slots := setAt o.slots n fun k => { k with hash := hash, programmed := true } }, 1) else (o, 2)
  | .revoke mask =>
    if ok then ({ o with slots := o.slots.zipIdx.map fun (e : KeySlot × Nat) => if mask.testBit e.2 && e.2 != 0 then { e.1 with revoked := true } else e.1 }, 1)
    else (o, 2)
  | .kek n id wrap =>
    match keyUnwrap (o.keks.getD 0 {}).key wrap with
    | none => (o, 3)
    | some key =>
      if ok && !(o.keks.getD n {}).programmed && decide (n < o.keks.length) then
        ({ o with keks := setAt o.keks n fun k => { k with kekId := id, key := key, programmed := true } }, 1) else (o, 2)
  | .floor v => if ok && decide (o.floor < v) && decide (o.rollback.length < 16) then ({ o with rollback := o.rollback ++ [BitVec.ofNat 32 v] }, 1) else (o, 2)
  | .lifecycle _ => (o, 2)

/-- OP of SEC_PROGSTAT. -/
def ProgOp.code : ProgOp → Nat
  | .keySlot _ _ => 1 | .revoke _ => 2 | .kek _ _ _ => 3 | .floor _ => 4 | .lifecycle _ => 5

/-- FUSE_PROGRAM_DONE: the programming under way ends; `ok` says that the fuses took it. A lifecycle transition has a row of its own. -/
def execFuseProgramDone (ok : Bool) (s : State) : Host.Outcome State Fault Refusal :=
  match s.chip.sec.progs with
  | p :: _ =>
    if p.code = 5 then .next s
    else s.fuse fun o c =>
      let r := o.program ok p
      (r.1, c.dropProg.progStat p.code r.2)
  | [] => .next s

/-! ### The debug access port (R518–R526) -/

/-- DEBUG_CHALLENGE. -/
def execDebugChallenge (s : State) : Host.Outcome State Fault Refusal := s.run fun c => if c.islOpen 1 then c.dbgChallenge else c

/-- DEBUG_REQUEST: DBG_REQ takes a value; the signature checks' answers come with it (log entry 3). -/
def execDebugRequest (value : Word) (ecdsa mldsa : List SigCheck) (s : State) : Host.Outcome State Fault Refusal :=
  s.runO fun o c => if c.islOpen 1 then c.dbgRequest o value.toNat (ecdsa ++ mldsa) else c

/-- DEBUG_SESSION_EXPIRY. The level stays while the latch holds. -/
def execDebugSessionExpiry (s : State) : Host.Outcome State Fault Refusal :=
  s.run fun c => if c.sec.dbg.level = 0 ∨ c.sec.dbg.free ∨ c.flt.latch then c else (c.passTo c.sec.dbg.endAt).dbgEnd

/-- DEBUG_NONCE_EXPIRY. -/
def execDebugNonceExpiry (s : State) : Host.Outcome State Fault Refusal :=
  s.run fun c => if c.sec.dbg.nonce.isNone then c else (c.passTo c.sec.dbg.nonceTill).setDbg fun d => { d with nonce := none }

/-- M4 reaches a register of DBG: I1 is OPEN, and the gate lets the access pass. -/
def Chip.debugPass (c : Chip) (write : Bool) (a v : Nat) : Bool := c.islOpen 1 && c.gateOpen write false a v

/-- CELL_HALT: DBG_HALT_LO or _HI takes a value. -/
def execCellHalt (high : Bool) (value : Word) (s : State) : Host.Outcome State Fault Refusal :=
  s.run fun c =>
    let a := if high then rDBG_HALT_HI else rDBG_HALT_LO
    if c.debugPass true a value.toNat then c.dbgHalt (if high then 32 else 0) value.toNat else c

/-- CORE_HALT: DBG_CORE takes a value. -/
def execCoreHalt (value : Word) (s : State) : Host.Outcome State Fault Refusal :=
  s.run fun c => if c.debugPass true rDBG_CORE value.toNat then c.dbgCore value.toNat else c

/-- DEBUG_DATA_ACCESS: a read or write of DBG_DATA. -/
def execDebugDataAccess (write : Bool) (value : Word) (s : State) : Host.Outcome State Fault Refusal :=
  s.run fun c =>
    if !c.debugPass write rDBG_DATA value.toNat then c
    else
      let r := c.dbgData write value.toNat
      r.2.setCtl fun k => { k with answer := leBytes 4 r.1 }

/-- DEBUG_RELEASE_TIMEOUT (R526). -/
def execDebugReleaseTimeout (s : State) : Host.Outcome State Fault Refusal := s.run Chip.dbgAbandon

/-! ### The TAP (R521, R527) -/

def Chip.setTap (c : Chip) (f : Tap → Tap) : Chip := { c with tap := f c.tap }

/-- An instruction takes effect; what an earlier one drove ends. -/
def Chip.tapIr (c : Chip) (ir : TapIr) : Chip := c.setTap fun t => { t with ir := ir, driving := none, floating := false }

/-- EXTEST, CLAMP and HIGHZ are honoured: PORST_N is held low, or the lifecycle is BLANK, RETURNED or SCRAPPED. -/
def tapHonoured (o : Otp) (low : Bool) : Bool := low || o.lc == 0 || o.lc == 3 || o.lc == 4

/-- TAP_BYPASS. -/
def execTapBypass (s : State) : Host.Outcome State Fault Refusal := s.run fun c => c.tapIr .bypass

/-- TAP_IDCODE. -/
def execTapIdcode (s : State) : Host.Outcome State Fault Refusal :=
  s.runO fun o c => (c.tapIr .idcode).setTap fun t => { t with out := o.idcode }

/-- TAP_SAMPLE_PRELOAD: the boundary register takes what is shifted in. -/
def execTapSamplePreload (shift : List Bool) (s : State) : Host.Outcome State Fault Refusal :=
  s.run fun c => (c.tapIr .samplePreload).setTap fun t => { t with boundary := shift }

/-- TAP_EXTEST: the boundary is driven. `low` says that PORST_N is held low. -/
def execTapExtest (low : Bool) (s : State) : Host.Outcome State Fault Refusal :=
  s.runO fun o c => if tapHonoured o low then (c.tapIr .extest).setTap fun t => { t with driving := some t.boundary } else c.tapIr .bypass

/-- TAP_CLAMP: the boundary is driven, and the bypass register selected. -/
def execTapClamp (low : Bool) (s : State) : Host.Outcome State Fault Refusal :=
  s.runO fun o c => if tapHonoured o low then (c.tapIr .clamp).setTap fun t => { t with driving := some t.boundary } else c.tapIr .bypass

/-- TAP_HIGHZ: every output floats. -/
def execTapHighz (low : Bool) (s : State) : Host.Outcome State Fault Refusal :=
  s.runO fun o c => if tapHonoured o low then (c.tapIr .highz).setTap fun t => { t with floating := true } else c.tapIr .bypass

/-- TAP_DAPACC: M4 is selected. -/
def execTapDapacc (s : State) : Host.Outcome State Fault Refusal := s.run fun c => c.tapIr .dapacc

/-- TAP_AOACC: a read through the always-on port; 0 but for a telemetry block at D1 or D3. -/
def execTapAoacc (addr : Word) (s : State) : Host.Outcome State Fault Refusal :=
  s.runO fun o c =>
    let lv := c.sec.dbg.level
    let v := if (lv == 1 || lv == 3) && telemetryBlock addr.toNat then c.regNow o addr.toNat else 0
    (c.tapIr .aoacc).setTap fun t => { t with out := BitVec.ofNat 32 v }

end Sys2Proof.Machine
end

