-- ==== Sys2Proof/Machine/Sequences.lean ====
section
/-! DEFINITION. Sequence control items and the end of boundary work (11_sequences.md R292, R293, R297, R299, R303, R304). -/

namespace Sys2Proof.Machine

/-! ### Control items (R292) -/

def ctlOp (b : List Byte) : Nat := fieldAt b 16 1
def ctlSeqId (b : List Byte) : Nat := fieldAt b 20 4

/-- The item of TYPE 0x0B and its size and reserved fields agree with the table of R292. -/
def ctlShape (b : List Byte) : Bool :=
  let typed := hdrType b == 0x0B
  let op := ctlOp b
  if op = 1 then typed && hdrWords b == 2 && zeroAt b 19 1 && zeroAt b 28 4 && zeroAt b 40 88
  else if op = 2 then typed && hdrWords b == 1 && zeroAt b 17 3 && fieldAt b 20 4 != 0 && zeroAt b 24 40
  else if op = 3 then typed && hdrWords b == 1 && zeroAt b 17 1 && zeroAt b 19 1 && zeroAt b 24 40
  else if op = 4 then typed && hdrWords b == 1 && zeroAt b 17 3 && decide (1000 ≤ fieldAt b 24 4) && decide (fieldAt b 24 4 ≤ 86400000) &&
    zeroAt b 28 36
  else false

/-- Take the item at TAKE of a ring whose consumer is the package engines: its place and its bytes. -/
def Chip.takeCtl (c : Chip) (r : Nat) : Option (RItem × List Byte × Chip) :=
  (c.takeItem r .engine).map fun e => (e.1, e.2.ringWords r e.1.idx e.1.words, e.2)

/-- The bytes of the item at TAKE. -/
def Chip.headCtl (c : Chip) (r : Nat) : Option (List Byte) := ((c.clearHead r).ring r).atTake.map fun i => c.ringWords r i.idx i.words

/-- A malformed control item (R292): S1, SEQ_FORMAT, over the item. -/
def Chip.seqFormat (c : Chip) (r : Nat) (i : RItem) : Chip :=
  c.raise { sev := 1, source := 4, cause := 0x23, scope := .item r i.seq, arg := r + i.seq * 2 ^ 32 }

/-- SEQ_JOIN (R292, R293): the engine takes the item at TAKE of a join ring into the admission queue, or as a fault. It stands for an item of the
control ring too that is none of the other operations. -/
def execSeqJoin (ring : BitVec 14) (s : State) : Host.Outcome State Fault Refusal :=
  let r := ring.toNat
  s.run fun c =>
    match c.seqPlan with
    | none => c
    | some p =>
      let isJoin := p.models.any fun m => m.joinRing == r
      let joiners := (c.seq.queue.filter fun w => w.resumer.isNone).length
      match c.headCtl r with
      | none => c
      | some h =>
        if isJoin then
          if p.queueMax ≤ joiners then c
          else
            match c.takeCtl r with
            | none => c
            | some (i, b, c) =>
              let m := fieldAt b 17 1
              let prompt := fieldAt b 24 4
              let known := (c.seq.live.any fun s => s.id == ctlSeqId b) || c.seq.queue.any fun w => w.resumer.isNone && w.id == ctlSeqId b
              if ctlShape b && ctlOp b == 1 && decide (m < p.models.length) && (p.model m).joinRing == r && decide (1 ≤ prompt) &&
                  decide (prompt ≤ (p.model m).maxTokens) && !known then
                { c with seq := { c.seq with
                    order := c.seq.order + 1
                    queue := c.seq.queue ++ [{ prio := fieldAt b 18 1, resumer := none, order := c.seq.order, id := ctlSeqId b, model := m
                                               prompt := prompt, ring := r, item := i.seq, req := hdrReq b }] } }
              else c.seqFormat r i
        else if r = p.ctrl ∧ !(ctlOp h = 2 ∨ ctlOp h = 3 ∨ ctlOp h = 4) then
          match c.takeCtl r with
          | none => c
          | some (i, _, c) => c.seqFormat r i
        else c

/-- Take an operation of the control ring when the item at TAKE carries it; a malformed one is a fault. -/
def Chip.onCtl (c : Chip) (op : Nat) (eff : SeqPlan → List Byte → Chip → Chip) : Chip :=
  match c.seqPlan with
  | none => c
  | some p =>
    match c.headCtl p.ctrl with
    | none => c
    | some h =>
      if ctlOp h ≠ op then c
      else
        match c.takeCtl p.ctrl with
        | none => c
        | some (i, b, c) => if ctlShape b then (eff p b c).completeItem p.ctrl i.seq complDone 0 else c.seqFormat p.ctrl i

/-- Cancel a REQ in every ring of the package (R258, R303). -/
def Chip.cancelReq (c : Chip) (req : Nat) : Chip :=
  let c : Chip := if req ∈ c.cancelled then c else { c with cancelled := c.cancelled ++ [req] }
  (c.rings.map (·.1)).foldl (fun c r => c.clearHead r) c

/-- A CANCEL of a REQ (R303): every item of that REQ that waits is discarded, and every live sequence of it turns CANCELLING. -/
def Chip.cancelSeqs (c : Chip) (p : SeqPlan) (req : Nat) : Chip :=
  let c := c.cancelReq req
  (c.seq.live.filter fun s => s.req == req).foldl (fun c s =>
    let c := (c.setSeq s.slot fun s => { s with cancel := true }).engineWrite (c.recAt p s.slot + 5) (leBytes 1 5)
    (c.seq.flags.filter fun e => e.1 == s.slot).foldl (fun c e => c.engineWrite e.2 (leBytes 1 (c.peekNat e.2 1 ||| 4))) c) c

/-- SEQ_CANCEL (R303). -/
def execSeqCancel (s : State) : Host.Outcome State Fault Refusal :=
  s.run fun c => c.onCtl 2 fun p b c => c.cancelSeqs p (fieldAt b 20 4)

/-- A paused sequence by SEQ_ID, that no CANCEL has taken. -/
def Chip.pausedSeq (c : Chip) (id : Nat) : Option Seq :=
  c.seq.live.find? fun s => s.id == id && !s.cancel && decide (s.st ≠ .running)

/-- SEQ_RESUME (R293). -/
def execSeqResume (s : State) : Host.Outcome State Fault Refusal :=
  s.run fun c => c.onCtl 3 fun p b c =>
    let prio := fieldAt b 18 1
    match c.pausedSeq (ctlSeqId b) with
    | none => c.bump rSEQ_NOOP
    | some s =>
      if s.st = .held then
        let c := c.setSeq s.slot fun s => { s with wantResume := some (prio, c.seq.order) }
        { c with seq := { c.seq with order := c.seq.order + 1 } }
      else if c.seq.queue.any fun w => w.resumer == some s.slot then c.bump rSEQ_NOOP
      else ((c.setSeq s.slot fun s => { s with prio := prio }).putRecOf p s.slot).queueResumer s.slot prio false

/-- SEQ_TTL (R297): the new expiry counts from the recorded pause boundary. -/
def execSeqTtl (s : State) : Host.Outcome State Fault Refusal :=
  s.run fun c => c.onCtl 4 fun _ b c =>
    match c.pausedSeq (ctlSeqId b) with
    | none => c.bump rSEQ_NOOP
    | some s => c.setSeq s.slot fun s => { s with ttl := fieldAt b 24 4 }

/-- The least time of a boundary's copies (R304): 100 GB/s for each flex port that is up. -/
def Chip.copyTicks (c : Chip) : Nat := ceilDiv (c.seq.copies * pageBytes * tUs) (100000 * max c.mem.sdgFrames.length 1)

/-- PARK_COPY_DONE (R299, R304): the boundary's copies have been performed, and the turn's tasks are posted. -/
def execParkCopyDone (s : State) : Host.Outcome State Fault Refusal :=
  s.run fun c =>
    match c.seqPlan, c.seq.busy with
    | some p, some t => if c.seq.posted then c else (c.passTo (t + c.copyTicks)).postBatches p
    | _, _ => c

/-- SEQ_OVERRUN_START (R304): the oldest boundary whose work waits begins it once the earlier work has ended. -/
def execSeqOverrunStart (s : State) : Host.Outcome State Fault Refusal :=
  s.run fun c =>
    match c.seqPlan, c.seq.busy, c.seq.overdue with
    | some p, none, snap :: rest =>
      let c : Chip := { c with seq := { c.seq with overdue := rest } }
      ((c.bump rSEQ_OVERRUN).notice 304 snap.turn).seqWork p snap
    | _, _, _ => c

end Sys2Proof.Machine
end

