-- ==== Sys2Proof/Machine/Sideband.lean ====
section
/-! DEFINITION. The I3C target of the signal box (22_wear.md R564, R565; 19_power_states.md R502). -/

namespace Sys2Proof.Machine

def Chip.setI3c (c : Chip) (f : I3c → I3c) : Chip := { c with i3c := f c.i3c }

/-- A transfer that the target takes part in: I0 serves it from step 2 on, in every power state (R46). -/
def State.runI3c (s : State) (f : Otp → Chip → Chip) : Host.Outcome State Fault Refusal :=
  s.runO fun o c => if c.boot.held ∨ c.boot.step < 2 then c else f o c

/-- A directed CCC reaches the target at its dynamic address alone. -/
def Chip.ccc (c : Chip) (out : Chip → List Byte × Chip) : Chip :=
  if c.i3c.dyn.isNone then c.setI3c fun x => { x with out := [] }
  else let r := out c; r.2.setI3c fun x => { x with out := r.1 }

/-- GETPID in 6 bytes, GETBCR and GETDCR in one each. -/
def i3cPid : List Byte := beBytes 6 (Config.i3cFixed 0)
def i3cBcr : List Byte := beBytes 1 (Config.i3cFixed 1)
def i3cDcr : List Byte := beBytes 1 (Config.i3cFixed 2)

/-- I3C_ENTDAA: a target without a dynamic address shows its identity and takes the one assigned. -/
def execI3cEntdaa (addr : BitVec 7) (s : State) : Host.Outcome State Fault Refusal :=
  s.runI3c fun _ c => if c.i3c.dyn.isSome then c else c.setI3c fun x => { x with dyn := some addr.toNat, out := i3cPid ++ i3cBcr ++ i3cDcr }

/-- I3C_SETDASA: from the static address 0x5A. -/
def execI3cSetdasa (addr : BitVec 7) (s : State) : Host.Outcome State Fault Refusal :=
  s.runI3c fun _ c => if c.i3c.dyn.isSome then c else c.setI3c fun x => { x with dyn := some addr.toNat, out := [] }

/-- I3C_RSTDAA. -/
def execI3cRstdaa (s : State) : Host.Outcome State Fault Refusal :=
  s.runI3c fun _ c => c.setI3c fun x => { x with dyn := none, ibi := 0, out := [] }

/-- I3C_ENEC. -/
def execI3cEnec (s : State) : Host.Outcome State Fault Refusal :=
  s.runI3c fun _ c => c.setI3c fun x => { x with events := true, out := [] }

/-- I3C_DISEC. -/
def execI3cDisec (s : State) : Host.Outcome State Fault Refusal :=
  s.runI3c fun _ c => c.setI3c fun x => { x with events := false, out := [] }

/-- I3C_GETPID. -/
def execI3cGetpid (s : State) : Host.Outcome State Fault Refusal := s.runI3c fun _ c => c.ccc fun c => (i3cPid, c)

/-- I3C_GETBCR. -/
def execI3cGetbcr (s : State) : Host.Outcome State Fault Refusal := s.runI3c fun _ c => c.ccc fun c => (i3cBcr, c)

/-- I3C_GETDCR. -/
def execI3cGetdcr (s : State) : Host.Outcome State Fault Refusal := s.runI3c fun _ c => c.ccc fun c => (i3cDcr, c)

/-- I3C_GETSTATUS: two bytes, a free value (log entry 35). -/
def execI3cGetstatus (s : State) : Host.Outcome State Fault Refusal :=
  s.runI3c fun _ c => c.ccc fun c => let d := c.draw; (beBytes 2 d.1, d.2)

/-- I3C_GETMWL. -/
def execI3cGetmwl (s : State) : Host.Outcome State Fault Refusal := s.runI3c fun _ c => c.ccc fun c => (beBytes 2 (Config.i3cFixed 3), c)

/-- I3C_GETMRL: at most 256 bytes a transfer, and one byte of an in-band interrupt. -/
def execI3cGetmrl (s : State) : Host.Outcome State Fault Refusal := s.runI3c fun _ c => c.ccc fun c => (beBytes 2 256 ++ beBytes 1 1, c)

/-- The registers of the map: (offset, register). -/
def i3cRegs : List (Nat × Nat) :=
  [(0x00, rSB_PKGID), (0x04, rSB_FIT), (0x08, rSB_PKGNUM), (0x10, rSEC_DEVID), (0x14, rSEC_DEVID + 4), (0x18, rSEC_DEVID + 8), (0x1C, rSEC_DEVID + 12),
    (0x20, rSB_BOOTSTAT), (0x24, rSB_BOOTFLAGS), (0x28, rSB_BOOTTIME), (0x2C, rSEC_LC), (0x40, rFLT_STAT), (0x44, rFLT_RECNO), (0x48, rTT_STAT),
    (0x4C, rPWR_STAT), (0x50, rPWR_AVS)] ++
    (List.range 19).map fun k => (0x80 + 4 * k, rWEAR_STAT + 4 * k)

/-- A word of the map (R565); unmapped offsets read 0. -/
def Chip.i3cWord (o : Otp) (c : Chip) (a : Nat) : List Byte :=
  let part := fun (b : List Byte) (base : Nat) => ((b ++ List.replicate 128 0).drop (a - base)).take 4
  match i3cRegs.find? fun e => e.1 == a with
  | some e => leBytes 4 (c.regNow o e.2)
  | none =>
    if 0x100 ≤ a ∧ a < 0x180 then part c.wear.lastPredict 0x100
    else if 0x200 ≤ a ∧ a < 0x280 then part c.wear.lastSample 0x200
    else if 0x400 ≤ a ∧ a < 0x684 then leInt 4 (sget unsampled c.wear.monitors a)
    else if 0x1000 ≤ a ∧ a < 0x3000 then part (c.retained ((a - 0x1000) / 128)) (a / 128 * 128)
    else List.replicate 4 0

/-- Bytes of the map; addresses wrap at 16 bits. -/
def Chip.i3cBytes (o : Otp) (c : Chip) (a n : Nat) : List Byte :=
  (((List.range (n / 4 + 2)).flatMap fun k => c.i3cWord o ((a / 4 + k) * 4 % 65536)).drop (a % 4)).take n

/-- A written 0xA5 reaches the wake byte at 0x3000. -/
def hitsWake (a : Nat) (body : List Byte) : Bool := body.zipIdx.any fun (e : Byte × Nat) => (a + e.2) % 65536 == 0x3000 && e.1 == 0xA5

/-- I3C_PRIVATE_WRITE: two bytes of map address, then data; the wake byte wakes a sleeping package when PWR_WAKECFG.I3C_EN allows. `rails` and `obs` say what
a wake from P3 meets. -/
def execI3cPrivateWrite (data : List Byte) (rails : Bool) (obs : BootObs) (s : State) : Host.Outcome State Fault Refusal :=
  s.runI3c fun o c =>
    if data.length < 2 then c
    else
      let a := fieldAt data 0 2
      let c := c.setI3c fun x => { x with addr := a, out := [] }
      if hitsWake a (data.drop 2) && c.sleepy && (c.reg rPWR_WAKECFG).testBit 2 then c.wake o 3 rails obs else c

/-- I3C_PRIVATE_READ: from the map address on, which moves past what was read. -/
def execI3cPrivateRead (count : Nat) (s : State) : Host.Outcome State Fault Refusal :=
  s.runI3c fun o c =>
    let n := min count 256
    let bytes := c.i3cBytes o c.i3c.addr n
    c.setI3c fun x => { x with out := bytes, addr := (x.addr + n) % 65536 }

end Sys2Proof.Machine
end

