-- ==== Sys2Proof/Machine/Spdm.lean ====
section
/-! DEFINITION. The SPDM responder (15_host_and_memory_ports.md R396; 20_security_and_debug.md R516, R517, R525). -/

namespace Sys2Proof.Machine

/-- There is an identity: in PROVISIONED and SEALED (R516). -/
def Otp.identity (o : Otp) : Bool := o.lc == 1 || o.lc == 2

/-- A request on a channel: 0 and 1 the DOE mailboxes of the endpoints, 2 and 3 queue pair 2 of the Ethernet ports. It is answered in P0 and P1 (R525),
while Ohmax runs, which in SCRAPPED it never does: start-up stops with 0x42 (R68). -/
def State.runSpdm (s : State) (chan : Nat) (f : Otp → Chip → Chip) : Host.Outcome State Fault Refusal :=
  s.runO fun o c =>
    let live := if chan < 2 then c.fxLive chan else c.ethLive (chan - 2)
    if live && c.ohmaxRuns && decide (c.pstate o < 2) then f o c else c

def Chip.spdmSay (c : Chip) (r : SpdmResp) : Chip := c.setPorts fun p => { p with spdm := r }

/-- An answer that the protocol allows only after the algorithms were agreed (DSP0274; log entry 32). -/
def Chip.spdmAfter (c : Chip) (r : Chip → Chip) : Chip := if c.ports.spdmAlgs then r c else c.spdmSay (.error false)

/-- Free words side by side, as a signature or a nonce. -/
def Chip.drawMany (c : Chip) : Nat → Nat × Chip
  | 0 => (0, c)
  | k + 1 =>
    let a := c.draw
    let b := a.2.drawMany k
    (a.1 + b.1 * 2 ^ 128, b.2)

/-- SPDM_GET_VERSION: negotiation starts afresh. -/
def execSpdmGetVersion (chan : Fin 4) (s : State) : Host.Outcome State Fault Refusal :=
  s.runSpdm chan.val fun _ c => c.setPorts fun p => { p with spdmVersion := true, spdmCaps := false, spdmAlgs := false, spdm := .version }

/-- SPDM_GET_CAPABILITIES. -/
def execSpdmGetCapabilities (chan : Fin 4) (s : State) : Host.Outcome State Fault Refusal :=
  s.runSpdm chan.val fun _ c =>
    if c.ports.spdmVersion then c.setPorts fun p => { p with spdmCaps := true, spdm := .capabilities } else c.spdmSay (.error false)

/-- SPDM_NEGOTIATE_ALGORITHMS: ECDSA P-384 over SHA-384. -/
def execSpdmNegotiateAlgorithms (chan : Fin 4) (s : State) : Host.Outcome State Fault Refusal :=
  s.runSpdm chan.val fun _ c =>
    if c.ports.spdmCaps then c.setPorts fun p => { p with spdmAlgs := true, spdm := .algorithms } else c.spdmSay (.error false)

/-- The certificate chain of slot 0 (R516), in the form of DSP0274: its length, the root's digest and the three certificates (log entry 32). -/
def Otp.spdmChain (o : Otp) : List Byte :=
  let certs := Config.romRoot ++ Config.romDevice ++ o.cert
  leBytes 2 (52 + certs.length) ++ leBytes 2 0 ++ sha384 Config.romRoot ++ certs

/-- SPDM_GET_DIGESTS: slot 0, or no slot without an identity. -/
def execSpdmGetDigests (chan : Fin 4) (s : State) : Host.Outcome State Fault Refusal :=
  s.runSpdm chan.val fun o c => c.spdmAfter fun c =>
    c.spdmSay (if o.identity then .digests 1 [sha384 o.spdmChain] else .digests 0 [])

/-- SPDM_GET_CERTIFICATE: a portion of the chain of slot 0, within a message of 4,096 bytes; slots 1 to 7 are empty. -/
def execSpdmGetCertificate (chan : Fin 4) (slot : Fin 8) (off len : Half) (s : State) : Host.Outcome State Fault Refusal :=
  s.runSpdm chan.val fun o c => c.spdmAfter fun c =>
    if !o.identity || slot.val != 0 || decide (o.spdmChain.length ≤ off.toNat) then c.spdmSay (.error false)
    else
      let rest := o.spdmChain.drop off.toNat
      let portion := rest.take (min len.toNat 4088)
      c.spdmSay (.certificate portion (rest.length - portion.length))

/-- SPDM_CHALLENGE: signed by the identity key, or UnsupportedRequest without an identity. -/
def execSpdmChallenge (chan : Fin 4) (slot : Fin 8) (s : State) : Host.Outcome State Fault Refusal :=
  s.runSpdm chan.val fun o c => c.spdmAfter fun c =>
    if !o.identity then c.spdmSay (.error true)
    else if slot.val ≠ 0 then c.spdmSay (.error false)
    else
      let n := c.drawMany 2
      let g := n.2.drawMany 6
      g.2.spdmSay (.challengeAuth 0 (sha384 o.spdmChain) n.1 g.1)

/-- A measurement block (R517). -/
def Chip.measBlock (o : Otp) (c : Chip) (k : Nat) : MeasBlock :=
  match k with
  | 1 => { index := 1, valueType := 0, digest := true, value := sha384 (romWord 0 0x40000) }
  | 2 => { index := 2, valueType := 1, digest := true, value := c.im.digest }
  | 3 => { index := 3, valueType := 3, digest := false, value := if o.lc = 0 then List.replicate 48 0 else c.im.anchorHash }
  | 4 => { index := 4, valueType := 7, digest := false, value := leBytes 4 c.im.secVer ++ leBytes 4 o.floor }
  | 5 => { index := 5, valueType := 2, digest := false
           value := leBytes 1 o.lc ++ leBytes 1 c.sec.dbg.level ++ leBytes 1 (c.pstate o) ++ leBytes 2 c.secretMask ++ leBytes 3 0 }
  | _ => { index := 6, valueType := 3, digest := true, value := c.sec.log }

/-- SPDM_GET_MEASUREMENTS: index 0 asks for the count, 0xFF for every block; a signature needs an identity. -/
def execSpdmGetMeasurements (chan : Fin 4) (index : BitVec 8) (signed : Bool) (s : State) : Host.Outcome State Fault Refusal :=
  let k := index.toNat
  s.runSpdm chan.val fun o c => c.spdmAfter fun c =>
    if 6 < k ∧ k ≠ 0xFF then c.spdmSay (.error false)
    else if signed && !o.identity then c.spdmSay (.error true)
    else
      let blocks := if k = 0 then [] else if k = 0xFF then [1, 2, 3, 4, 5, 6].map (Chip.measBlock o c) else [c.measBlock o k]
      let n := c.drawMany 2
      let g := if signed then n.2.drawMany 6 else (0, n.2)
      g.2.spdmSay (.measurements 6 blocks n.1 (if signed then some g.1 else none))

end Sys2Proof.Machine
end

