-- ==== Sys2Proof/Machine/StartUp.lean ====
section
/-! DEFINITION. Start-up: PORST_N, the flash devices, the slots, HBM, hand-over and the time limits of every step (02_start_up.md R43–R68). -/

namespace Sys2Proof.Machine

/-! ### PORST_N (R43–R46) -/

/-- PORST_RISE: t0. Steps 1 to 4 run, and the recovery wait of step 5 begins. -/
def execPorstRise (obs : BootObs) (s : State) : Host.Outcome State Fault Refusal := .next (s.startUp obs)

/-- PORST_LOW_PULSE of a length in ticks: 1 µs or longer restarts start-up, less than 100 ns is ignored, and in between either happens (R44). -/
def execPorstLowPulse (ticks : Nat) (obs : BootObs) (s : State) : Host.Outcome State Fault Refusal :=
  let c := s.chip.pass ticks
  if ticks < 1600 then .next { s with chip := c }
  else if 16000 ≤ ticks then .next (({ s with chip := c } : State).startUp obs)
  else
    let r := c.draw
    if r.1 % 2 = 1 then .next (({ s with chip := r.2 } : State).startUp obs) else .next { s with chip := r.2 }

/-! ### The flash devices and the slots (R48–R57) -/

/-- FLASH_RECOVERY_EXPIRY: 1.0 ms after RESET_N was released. `sfdpA` and `sfdpB` are the densities in bytes that SFDP gives, 0 without a valid SFDP header;
`openA` and `openB` the lines that step 6 finds open: bits 0–7 DQ, bit 8 DQS. -/
def execFlashRecoveryExpiry (sfdpA sfdpB : Nat) (openA openB : BitVec 9) (s : State) : Host.Outcome State Fault Refusal :=
  s.runO fun o c =>
    match c.boot.waitUntil with
    | none => c
    | some t => if c.boot.step ≠ 5 ∨ c.boot.stopped then c else ((c.passTo t).readHeaders o sfdpA sfdpB openA openB).pickSlot

/-- The chosen slot is streaming. -/
def Chip.streaming (c : Chip) : Bool := c.boot.step == 9 && c.boot.chosen.isSome && c.boot.waitUntil.isNone && !c.boot.stopped

/-- SLOT_STREAM_DONE, with the signatures of each kind that verify (R82, log entry 3). -/
def execSlotStreamDone (ecdsa endEcdsa mldsa endMldsa : List SigCheck) (s : State) : Host.Outcome State Fault Refusal :=
  s.runO fun o c =>
    if !c.streaming then c
    else match judgeSlot o c.chosenFlash (ecdsa ++ endEcdsa ++ mldsa ++ endMldsa) with
      | .inl code => c.slotFail code
      | .inr im => c.slotGood o im

/-- FLASH_READ_TIMEOUT. -/
def execFlashReadTimeout (s : State) : Host.Outcome State Fault Refusal :=
  s.run fun c => if c.streaming then c.slotFail 0x26 else c

/-- ATTEMPT_RETRY: a further attempt from step 4. -/
def execAttemptRetry (checkA checkB : Word) (s : State) : Host.Outcome State Fault Refusal :=
  s.run fun c =>
    match c.boot.waitUntil with
    | none => c
    | some t =>
      if c.boot.step ≤ 5 ∨ c.boot.stopped then c
      else
        let c := c.passTo t
        ({ c with boot := { c.boot with attempt := c.boot.attempt + 1 } } : Chip).pinCheck checkA checkB

/-! ### HBM and hand-over (R59, R90) -/

/-- HBM_TRAINING_DONE, with the stacks that trained. -/
def execHbmTrainingDone (trainedMask : BitVec 8) (s : State) : Host.Outcome State Fault Refusal :=
  s.runO fun o c => if c.boot.hbmWait && !c.boot.stopped then c.hbmTrained o trainedMask.toNat else c

/-- HAND_OVER. -/
def execHandOver (s : State) : Host.Outcome State Fault Refusal :=
  s.runO fun o c =>
    match c.boot.loaded with
    | none => c
    | some im => if c.boot.step ≠ 12 ∨ c.boot.hbmWait ∨ c.boot.stopped then c else c.handOver o im

/-! ### Time limits (R60–R62, R65) -/

/-- PLATFORM_OPEN_TIMEOUT: an island's longest opening time passed. I1 has a row of its own. -/
def execPlatformOpenTimeout (isl : Fin 14) (s : State) : Host.Outcome State Fault Refusal :=
  s.runO fun o c =>
    let i := c.island isl.val
    if i.st ≠ .opening ∨ isl.val ≤ 1 then c else (c.passTo (i.began + openLimit isl.val)).openTimeout o isl.val

/-- I1_OPEN_TIMEOUT: start-up stops, and the fault latch takes hold (R68, R546). -/
def execI1OpenTimeout (s : State) : Host.Outcome State Fault Refusal :=
  s.run fun c =>
    let i := c.island 1
    if i.st ≠ .opening ∨ c.boot.step ≠ 3 ∨ c.boot.stopped then c
    else (((c.passTo (i.began + tMs)).setIsland 1 fun i => { i with st := .closed }).startStop 0x45).takeLatch 0x12

/-- LINK_WINDOW_EXPIRY: step 16 begins; a planned link that is down sets LINK_SHORT. -/
def execLinkWindowExpiry (s : State) : Host.Outcome State Fault Refusal :=
  s.run fun c =>
    if c.boot.step ≠ 15 ∨ c.boot.stopped then c
    else
      let c := c.passTo (c.boot.linkAt + c.im.clk.linkWindow)
      let c := if c.mem.backed then c else c.backLate
      let short := c.plannedHalves.any fun u => (c.half u.1 u.2).st != .up && (c.half u.1 u.2).st != .widthchg
      { c with boot := { c.boot with step := 16, lockAt := c.elapsed, linkShort := short } }

/-- Free-run from the lock timeout (R65): the grid starts at 0 of the package's own counter, and no parent steers until one is taken again (R117). -/
def Chip.freeStart (c : Chip) : Chip :=
  let c : Chip := { c with boot := { c.boot with freerun := true } }
  (c.dropParent.setTt fun t => { t.startGrid c.turnPeriod 0 0 with st := .freerun }).armSeeds

/-- LOCK_TIMEOUT_EXPIRY. -/
def execLockTimeoutExpiry (s : State) : Host.Outcome State Fault Refusal :=
  s.run fun c =>
    if c.boot.step ≠ 16 ∨ c.boot.stopped ∨ c.boot.code = 3 then c
    else
      let c := c.passTo (c.boot.lockAt + c.im.clk.lockTimeout)
      if c.im.clk.lockRequired then ({ c with boot := { c.boot with code := 3 } } : Chip).signal .bootCode else c.freeStart

/-- OHMAX_SILENT_TIMEOUT: 1.0 s after the last report, at steps 13 to 17. A heartbeat counts as a report. -/
def execOhmaxSilentTimeout (s : State) : Host.Outcome State Fault Refusal :=
  s.run fun c =>
    match c.boot.ohmaxAt with
    | none => c
    | some t => if c.boot.step < 13 ∨ 17 < c.boot.step ∨ c.boot.stopped then c else (c.passTo (c.ctl.beats.foldl max t + tSec)).startStop 0x47

/-- STARTUP_DEADLINE_EXPIRY: step 13 was not reached 60 s after t0. -/
def execStartupDeadlineExpiry (s : State) : Host.Outcome State Fault Refusal :=
  s.run fun c =>
    let b := c.boot
    if b.step < 3 ∨ 13 ≤ b.step ∨ b.stopped then c
    else
      let slot := match b.chosen with | some 0 => b.slotA | some _ => b.slotB | none => 0
      (c.passTo (b.t0 + 60 * tSec)).startStop (if 0x20 ≤ slot then slot else 0x40)

end Sys2Proof.Machine
end

