-- ==== Sys2Proof/Machine/Turntable.lean ====
section
/-! DEFINITION. The turntable's commands: WEIGHT_SWITCH departures, release, reports and timeouts (12_generate_and_learn.md R310, R316–R322, R332). -/

namespace Sys2Proof.Machine

/-- WEIGHT_SWITCH_STAGE (R317); a reserved OP comes here too. -/
def execWeightSwitchStage (s : State) : Host.Outcome State Fault Refusal :=
  s.run fun c => c.fireDep (fun d => d.action == 0x0030 && switchOp d != 2 && switchOp d != 3) fun d _ c => c.weightEdge d

/-- WEIGHT_SWITCH_COMMIT (R321). -/
def execWeightSwitchCommit (s : State) : Host.Outcome State Fault Refusal :=
  s.run fun c => c.fireDep (fun d => d.action == 0x0030 && switchOp d == 2) fun d _ c => c.weightEdge d

/-- WEIGHT_SWITCH_ABORT (R322). -/
def execWeightSwitchAbort (s : State) : Host.Outcome State Fault Refusal :=
  s.run fun c => c.fireDep (fun d => d.action == 0x0030 && switchOp d == 3) fun d _ c => c.weightEdge d

/-- BANK_RELEASED (R310, R316, R319): the target bank of a member in RELEASE is released and lies in HBM, and it reports READY. -/
def execBankReleased (ch : Fin 16) (s : State) : Host.Outcome State Fault Refusal :=
  s.run fun c => c.tryReady ch.val

/-- TURNTABLE_READY_REPORT (R318): the root hears that a member is READY. -/
def execTurntableReadyReport (ch : Fin 16) (pkg : Nat) (s : State) : Host.Outcome State Fault Refusal :=
  s.run fun c => c.rootReady ch.val pkg

/-- TURNTABLE_READY_TIMEOUT (R318): READY_TIMEOUT_MS after the STAGE edge the root goes on without the others, and a member not READY is out. -/
def execTurntableReadyTimeout (ch : Fin 16) (s : State) : Host.Outcome State Fault Refusal :=
  let n := ch.val
  s.run fun c =>
    match c.im.trnPlan with
    | none => c
    | some p =>
      let x := c.trnCh n
      let due := x.stagedAt + p.readyMs * tMs
      if x.rootSt = .release ∨ x.st = .release then
        let c := c.passTo due
        let c := if x.rootSt = .release then c.beginSetup n else c
        if x.st = .release then c.setTrn n fun x => { x with st := .idle, stage := 0, lastFail := 4 } else c
      else c

/-- TURNTABLE_STREAM_START (R319): after 0.2 ms of set-up the root streams the source object down the tree. -/
def execTurntableStreamStart (ch : Fin 16) (s : State) : Host.Outcome State Fault Refusal :=
  let n := ch.val
  s.run fun c =>
    match c.trnChan n with
    | none => c
    | some t =>
      let x := c.trnCh n
      if x.rootSt ≠ .ready then c
      else
        let c := c.passTo (x.streamAt + 200 * tUs)
        let c := c.setTrn n fun x => { x with rootSt := .streaming, streamAt := c.elapsed }
        c.streamUnits n t x.rootStage (c.objBase t.srcObj) (t.bytes / wagonBytes) 0

/-- TURNTABLE_DONE_REPORT (R320): the root hears that a member holds every byte. -/
def execTurntableDoneReport (ch : Fin 16) (pkg : Nat) (s : State) : Host.Outcome State Fault Refusal :=
  s.run fun c => c.rootDone ch.val pkg

/-- TURNTABLE_DONE_TIMEOUT (R320): DONE_TIMEOUT_MS after the stream's start the root arms the COMMIT for those that are DONE, and a member that is not is out. -/
def execTurntableDoneTimeout (ch : Fin 16) (s : State) : Host.Outcome State Fault Refusal :=
  let n := ch.val
  s.run fun c =>
    match c.im.trnPlan with
    | none => c
    | some p =>
      let x := c.trnCh n
      let out := fun (c : Chip) =>
        if x.st = .ready ∨ x.st = .streaming then c.setTrn n fun x => { x with st := .idle, stage := 0, lastFail := 5, other := 0 } else c
      if x.rootSt = .streaming then out ((c.passTo (x.streamAt + p.doneMs * tMs)).armCommit n)
      else if x.rootSt = .idle then out c
      else c

end Sys2Proof.Machine
end

