-- ==== Sys2Proof/Machine/Wear.lean ====
section
/-! DEFINITION. The wear unit's commands (17_signal_box.md R435; 22_wear.md R556, R559). -/

namespace Sys2Proof.Machine

/-- WEAR_SAMPLE: the OHMAX_CALL of handler 0x0002 takes one slow sample outside the schedule. -/
def execWearSample (obs : WearObs) (s : State) : Host.Outcome State Fault Refusal :=
  s.runO fun o c => c.fireDep (fun d => d.action == 0x0002 && d.arg == 2) fun _ _ c => if c.ohmaxRuns then c.slowSample o obs else c

/-- FAST_MONITOR_SAMPLE: I0's hardware samples the fast monitors every 10 ms, in every power state. -/
def execFastMonitorSample (tjPlat tjPort tjHbm : List Int) (vdd : Nat) (power : Int) (s : State) : Host.Outcome State Fault Refusal :=
  s.runO fun o c =>
    if c.boot.held ∨ c.boot.step = 0 then c
    else
      let c := c.passTo (c.wear.fastAt + 10 * tMs)
      (c.setWear fun w => { w with fastAt := c.elapsed }).fastSample tjPlat tjPort tjHbm o.stackMask vdd power

/-- SLOW_MONITOR_SAMPLE: core 3 samples the slow monitors every PERIOD_S. -/
def execSlowMonitorSample (obs : WearObs) (s : State) : Host.Outcome State Fault Refusal :=
  s.runO fun o c =>
    if !c.ohmaxRuns then c
    else
      let c := c.passTo (c.wear.sampleAt + c.im.wearPeriod * tSec)
      (c.setWear fun w => { w with sampleAt := c.elapsed }).slowSample o obs

/-- DAILY_PREDICTION: every 86,400 s core 3 records the daily points and predicts. -/
def execDailyPrediction (s : State) : Host.Outcome State Fault Refusal :=
  s.run fun c => if !c.ohmaxRuns then c else (c.passTo (c.wear.dayAt + dayTicks)).dailyStep

end Sys2Proof.Machine
end

