-- ==== Sys2Proof/Machine/Dispatch.lean ====
section
/-! DEFINITION. The one dispatch over the commands (opcode_table.json). -/

namespace Sys2Proof.Machine

/-- The effect of a command on everything but the queue. -/
def exec (i : Instr) (s : State) : Host.Outcome State Fault Refusal :=
  match i with
  | .porstRise obs => Sys2Proof.Machine.execPorstRise obs s
  | .porstLowPulse ticks obs => Sys2Proof.Machine.execPorstLowPulse ticks obs s
  | .flashRecoveryExpiry sfdpA sfdpB openA openB => Sys2Proof.Machine.execFlashRecoveryExpiry sfdpA sfdpB openA openB s
  | .slotStreamDone ecdsa endEcdsa mldsa endMldsa => Sys2Proof.Machine.execSlotStreamDone ecdsa endEcdsa mldsa endMldsa s
  | .flashReadTimeout => Sys2Proof.Machine.execFlashReadTimeout s
  | .attemptRetry checkA checkB => Sys2Proof.Machine.execAttemptRetry checkA checkB s
  | .hbmTrainingDone trainedMask => Sys2Proof.Machine.execHbmTrainingDone trainedMask s
  | .handOver => Sys2Proof.Machine.execHandOver s
  | .platformOpenTimeout isl => Sys2Proof.Machine.execPlatformOpenTimeout isl s
  | .i1OpenTimeout => Sys2Proof.Machine.execI1OpenTimeout s
  | .linkWindowExpiry => Sys2Proof.Machine.execLinkWindowExpiry s
  | .lockTimeoutExpiry => Sys2Proof.Machine.execLockTimeoutExpiry s
  | .ohmaxSilentTimeout => Sys2Proof.Machine.execOhmaxSilentTimeout s
  | .startupDeadlineExpiry => Sys2Proof.Machine.execStartupDeadlineExpiry s
  | .timeFlitSend link half sentAt => Sys2Proof.Machine.execTimeFlitSend link half sentAt s
  | .timeFlitReceive link half cw seenAt lane => Sys2Proof.Machine.execTimeFlitReceive link half cw seenAt lane s
  | .coldStartRoot => Sys2Proof.Machine.execColdStartRoot s
  | .turnBoundary seen => Sys2Proof.Machine.execTurnBoundary seen s
  | .twoPhaseArmTimeout => Sys2Proof.Machine.execTwoPhaseArmTimeout s
  | .logMark => Sys2Proof.Machine.execLogMark s
  | .telemetrySnapshot => Sys2Proof.Machine.execTelemetrySnapshot s
  | .wearSample obs => Sys2Proof.Machine.execWearSample obs s
  | .syncAdjust => Sys2Proof.Machine.execSyncAdjust s
  | .turnSet => Sys2Proof.Machine.execTurnSet s
  | .amendCommit => Sys2Proof.Machine.execAmendCommit s
  | .weightSwitchStage => Sys2Proof.Machine.execWeightSwitchStage s
  | .weightSwitchCommit => Sys2Proof.Machine.execWeightSwitchCommit s
  | .weightSwitchAbort => Sys2Proof.Machine.execWeightSwitchAbort s
  | .collectiveLaunch => Sys2Proof.Machine.execCollectiveLaunch s
  | .taskPost => Sys2Proof.Machine.execTaskPost s
  | .doorbell => Sys2Proof.Machine.execDoorbell s
  | .islandOpen => Sys2Proof.Machine.execIslandOpen s
  | .islandClose => Sys2Proof.Machine.execIslandClose s
  | .enterP2 => Sys2Proof.Machine.execEnterP2 s
  | .enterP3 => Sys2Proof.Machine.execEnterP3 s
  | .clockSet => Sys2Proof.Machine.execClockSet s
  | .clockSettled isl => Sys2Proof.Machine.execClockSettled isl s
  | .syncPpsEdge tick high => Sys2Proof.Machine.execSyncPpsEdge tick high s
  | .syncCodeFrame tick frame => Sys2Proof.Machine.execSyncCodeFrame tick frame s
  | .syncIntervalMissing => Sys2Proof.Machine.execSyncIntervalMissing s
  | .ttNowLoRead => Sys2Proof.Machine.execTtNowLoRead s
  | .ttCntclr value => Sys2Proof.Machine.execTtCntclr value s
  | .nop cell thread word => Sys2Proof.Machine.execNop cell thread word s
  | .cellEnd cell thread word => Sys2Proof.Machine.execCellEnd cell thread word s
  | .sli cell thread word => Sys2Proof.Machine.execSli cell thread word s
  | .salu cell thread word => Sys2Proof.Machine.execSalu cell thread word s
  | .scmp cell thread word => Sys2Proof.Machine.execScmp cell thread word s
  | .br cell thread word => Sys2Proof.Machine.execBr cell thread word s
  | .lbegin cell thread issued => Sys2Proof.Machine.execLbegin cell thread issued s
  | .lnext cell thread issued => Sys2Proof.Machine.execLnext cell thread issued s
  | .flgrd cell thread word => Sys2Proof.Machine.execFlgrd cell thread word s
  | .flgtrap cell thread word => Sys2Proof.Machine.execFlgtrap cell thread word s
  | .fence cell thread word => Sys2Proof.Machine.execFence cell thread word s
  | .bar cell thread word => Sys2Proof.Machine.execBar cell thread word s
  | .rres cell thread word => Sys2Proof.Machine.execRres cell thread word s
  | .rresWaitGrant ring => Sys2Proof.Machine.execRresWaitGrant ring s
  | .rwr cell thread issued => Sys2Proof.Machine.execRwr cell thread issued s
  | .rcom cell thread word => Sys2Proof.Machine.execRcom cell thread word s
  | .rtake cell thread word => Sys2Proof.Machine.execRtake cell thread word s
  | .rtakeWaitDeliver ring => Sys2Proof.Machine.execRtakeWaitDeliver ring s
  | .rmile cell thread word => Sys2Proof.Machine.execRmile cell thread word s
  | .rdone cell thread word => Sys2Proof.Machine.execRdone cell thread word s
  | .darm cell thread word => Sys2Proof.Machine.execDarm cell thread word s
  | .dcan cell thread word => Sys2Proof.Machine.execDcan cell thread word s
  | .dwait cell thread word => Sys2Proof.Machine.execDwait cell thread word s
  | .dwaitWake cell thread => Sys2Proof.Machine.execDwaitWake cell thread s
  | .tnow cell thread word => Sys2Proof.Machine.execTnow cell thread word s
  | .lds cell thread word ecc line => Sys2Proof.Machine.execLds cell thread word ecc line s
  | .sts cell thread word => Sys2Proof.Machine.execSts cell thread word s
  | .ldv cell thread word ecc line => Sys2Proof.Machine.execLdv cell thread word ecc line s
  | .stv cell thread word => Sys2Proof.Machine.execStv cell thread word s
  | .xget cell thread word => Sys2Proof.Machine.execXget cell thread word s
  | .xput cell thread issued => Sys2Proof.Machine.execXput cell thread issued s
  | .xwait cell thread word => Sys2Proof.Machine.execXwait cell thread word s
  | .xatom cell thread word => Sys2Proof.Machine.execXatom cell thread word s
  | .transferComplete cell thread tag obs line => Sys2Proof.Machine.execTransferComplete cell thread tag obs line s
  | .transferClosedLimit cell thread tag => Sys2Proof.Machine.execTransferClosedLimit cell thread tag s
  | .stage cell thread word ecc line => Sys2Proof.Machine.execStage cell thread word ecc line s
  | .mma cell thread word => Sys2Proof.Machine.execMma cell thread word s
  | .accrd cell thread word => Sys2Proof.Machine.execAccrd cell thread word s
  | .accwr cell thread word => Sys2Proof.Machine.execAccwr cell thread word s
  | .accst cell thread word => Sys2Proof.Machine.execAccst cell thread word s
  | .vadd cell thread word => Sys2Proof.Machine.execVadd cell thread word s
  | .vmul cell thread word => Sys2Proof.Machine.execVmul cell thread word s
  | .vfma cell thread word => Sys2Proof.Machine.execVfma cell thread word s
  | .vmin cell thread word => Sys2Proof.Machine.execVmin cell thread word s
  | .vmax cell thread word => Sys2Proof.Machine.execVmax cell thread word s
  | .vcmp cell thread word => Sys2Proof.Machine.execVcmp cell thread word s
  | .vsel cell thread word => Sys2Proof.Machine.execVsel cell thread word s
  | .vbcast cell thread word => Sys2Proof.Machine.execVbcast cell thread word s
  | .vred cell thread word => Sys2Proof.Machine.execVred cell thread word s
  | .vcvt cell thread word => Sys2Proof.Machine.execVcvt cell thread word s
  | .sfn cell thread word => Sys2Proof.Machine.execSfn cell thread word s
  | .roph cell thread word => Sys2Proof.Machine.execRoph cell thread word s
  | .dice cell thread word => Sys2Proof.Machine.execDice cell thread word s
  | .vcvts cell thread word => Sys2Proof.Machine.execVcvts cell thread word s
  | .migrationEpoch => Sys2Proof.Machine.execMigrationEpoch s
  | .wagonMoveSwitch stalled => Sys2Proof.Machine.execWagonMoveSwitch stalled s
  | .hbmStackFail stack => Sys2Proof.Machine.execHbmStackFail stack s
  | .memUclrHiWrite value => Sys2Proof.Machine.execMemUclrHiWrite value s
  | .reservationTimeout ring => Sys2Proof.Machine.execReservationTimeout ring s
  | .itemDoorbell fx off poisoned data => Sys2Proof.Machine.execItemDoorbell fx off poisoned data s
  | .tailDoorbell fx off poisoned data => Sys2Proof.Machine.execTailDoorbell fx off poisoned data s
  | .consumeDoorbell fx off poisoned data => Sys2Proof.Machine.execConsumeDoorbell fx off poisoned data s
  | .ringDrainFlush ring => Sys2Proof.Machine.execRingDrainFlush ring s
  | .ringDrainEnd ring => Sys2Proof.Machine.execRingDrainEnd ring s
  | .ringCutFlush ring => Sys2Proof.Machine.execRingCutFlush ring s
  | .taskSelect => Sys2Proof.Machine.execTaskSelect s
  | .coldStartDone cell => Sys2Proof.Machine.execColdStartDone cell s
  | .quiesceDone cell ecc line => Sys2Proof.Machine.execQuiesceDone cell ecc line s
  | .quiesceAbandon cell => Sys2Proof.Machine.execQuiesceAbandon cell s
  | .preemptRetryTimer ring seq => Sys2Proof.Machine.execPreemptRetryTimer ring seq s
  | .switchSaveDone cell => Sys2Proof.Machine.execSwitchSaveDone cell s
  | .switchLoadDone cell => Sys2Proof.Machine.execSwitchLoadDone cell s
  | .wsetStreamDone wset data => Sys2Proof.Machine.execWsetStreamDone wset data s
  | .wsetStreamFail wset => Sys2Proof.Machine.execWsetStreamFail wset s
  | .noCellTimeout => Sys2Proof.Machine.execNoCellTimeout s
  | .seqJoin ring => Sys2Proof.Machine.execSeqJoin ring s
  | .seqCancel => Sys2Proof.Machine.execSeqCancel s
  | .seqResume => Sys2Proof.Machine.execSeqResume s
  | .seqTtl => Sys2Proof.Machine.execSeqTtl s
  | .parkCopyDone => Sys2Proof.Machine.execParkCopyDone s
  | .seqOverrunStart => Sys2Proof.Machine.execSeqOverrunStart s
  | .bankReleased ch => Sys2Proof.Machine.execBankReleased ch s
  | .turntableReadyReport ch pkg => Sys2Proof.Machine.execTurntableReadyReport ch pkg s
  | .turntableReadyTimeout ch => Sys2Proof.Machine.execTurntableReadyTimeout ch s
  | .turntableStreamStart ch => Sys2Proof.Machine.execTurntableStreamStart ch s
  | .turntableDoneReport ch pkg => Sys2Proof.Machine.execTurntableDoneReport ch pkg s
  | .turntableDoneTimeout ch => Sys2Proof.Machine.execTurntableDoneTimeout ch s
  | .linkTrainStart link half => Sys2Proof.Machine.execLinkTrainStart link half s
  | .linkTrainPhaseEnd link half seen => Sys2Proof.Machine.execLinkTrainPhaseEnd link half seen s
  | .linkTrainRetry link half => Sys2Proof.Machine.execLinkTrainRetry link half s
  | .laneExclude link lane => Sys2Proof.Machine.execLaneExclude link lane s
  | .linkctlReceive link half cw => Sys2Proof.Machine.execLinkctlReceive link half cw s
  | .widthChangeLocked link half => Sys2Proof.Machine.execWidthChangeLocked link half s
  | .widthChangeTimeout link change => Sys2Proof.Machine.execWidthChangeTimeout link change s
  | .dataFlitReceive link half flit errs => Sys2Proof.Machine.execDataFlitReceive link half flit errs s
  | .idleFlitReceive link half cw => Sys2Proof.Machine.execIdleFlitReceive link half cw s
  | .nakReceive link half cw => Sys2Proof.Machine.execNakReceive link half cw s
  | .replayTimeout link half => Sys2Proof.Machine.execReplayTimeout link half s
  | .linkRetrain link => Sys2Proof.Machine.execLinkRetrain link s
  | .linkEnableChange link en => Sys2Proof.Machine.execLinkEnableChange link en s
  | .laneMapChange link value => Sys2Proof.Machine.execLaneMapChange link value s
  | .readReceive link half obs line => Sys2Proof.Machine.execReadReceive link half obs line s
  | .readDataReceive link half => Sys2Proof.Machine.execReadDataReceive link half s
  | .writeReceive link half => Sys2Proof.Machine.execWriteReceive link half s
  | .writeAckReceive link half => Sys2Proof.Machine.execWriteAckReceive link half s
  | .atomicReceive link half obs => Sys2Proof.Machine.execAtomicReceive link half obs s
  | .atomicRespReceive link half => Sys2Proof.Machine.execAtomicRespReceive link half s
  | .ringOpReceive link half => Sys2Proof.Machine.execRingOpReceive link half s
  | .ringRespReceive link half => Sys2Proof.Machine.execRingRespReceive link half s
  | .closedReceive link half => Sys2Proof.Machine.execClosedReceive link half s
  | .bounceReceive link half => Sys2Proof.Machine.execBounceReceive link half s
  | .errorReceive link half => Sys2Proof.Machine.execErrorReceive link half s
  | .lsaReceive link half => Sys2Proof.Machine.execLsaReceive link half s
  | .lsaRefresh => Sys2Proof.Machine.execLsaRefresh s
  | .eyeRemeasure link eyes => Sys2Proof.Machine.execEyeRemeasure link eyes s
  | .expressPipReceive link half => Sys2Proof.Machine.execExpressPipReceive link half s
  | .streamReceive link half => Sys2Proof.Machine.execStreamReceive link half s
  | .collectiveTimeout tree inst => Sys2Proof.Machine.execCollectiveTimeout tree inst s
  | .pipArm link half => Sys2Proof.Machine.execPipArm link half s
  | .pipArmAck link half => Sys2Proof.Machine.execPipArmAck link half s
  | .pipArmCancel link half => Sys2Proof.Machine.execPipArmCancel link half s
  | .fxPerstDeassert fx => Sys2Proof.Machine.execFxPerstDeassert fx s
  | .fxPerstAssert fx => Sys2Proof.Machine.execFxPerstAssert fx s
  | .fxLinkL0 fx speed width => Sys2Proof.Machine.execFxLinkL0 fx speed width s
  | .fxFunctionReady fx => Sys2Proof.Machine.execFxFunctionReady fx s
  | .pcieConfigRequest fx write off value kind => Sys2Proof.Machine.execPcieConfigRequest fx write off value kind s
  | .bar2Write fx off poisoned data => Sys2Proof.Machine.execBar2Write fx off poisoned data s
  | .bar2Read fx bar0 off len obs line => Sys2Proof.Machine.execBar2Read fx bar0 off len obs line s
  | .statusWindowWrite fx off poisoned data => Sys2Proof.Machine.execStatusWindowWrite fx off poisoned data s
  | .spdmGetVersion chan => Sys2Proof.Machine.execSpdmGetVersion chan s
  | .spdmGetCapabilities chan => Sys2Proof.Machine.execSpdmGetCapabilities chan s
  | .spdmNegotiateAlgorithms chan => Sys2Proof.Machine.execSpdmNegotiateAlgorithms chan s
  | .spdmGetDigests chan => Sys2Proof.Machine.execSpdmGetDigests chan s
  | .spdmGetCertificate chan slot off len => Sys2Proof.Machine.execSpdmGetCertificate chan slot off len s
  | .spdmChallenge chan slot => Sys2Proof.Machine.execSpdmChallenge chan slot s
  | .spdmGetMeasurements chan index signed => Sys2Proof.Machine.execSpdmGetMeasurements chan index signed s
  | .cxlCorrectableError fx => Sys2Proof.Machine.execCxlCorrectableError fx s
  | .cxlFatalError fx kind => Sys2Proof.Machine.execCxlFatalError fx kind s
  | .cxlReadTimeout fx => Sys2Proof.Machine.execCxlReadTimeout fx s
  | .fxRetrain fx => Sys2Proof.Machine.execFxRetrain fx s
  | .roceSendReceive eth qpn imm data ecn => Sys2Proof.Machine.execRoceSendReceive eth qpn imm data ecn s
  | .roceWriteImmReceive eth qpn imm va rkey data ecn => Sys2Proof.Machine.execRoceWriteImmReceive eth qpn imm va rkey data ecn s
  | .rdmaWriteReceive eth qpn va rkey data ecn => Sys2Proof.Machine.execRdmaWriteReceive eth qpn va rkey data ecn s
  | .rdmaReadRequest eth qpn va rkey len obs line ecn => Sys2Proof.Machine.execRdmaReadRequest eth qpn va rkey len obs line ecn s
  | .cnpReceive eth qpn => Sys2Proof.Machine.execCnpReceive eth qpn s
  | .cnpRateRecovery eth => Sys2Proof.Machine.execCnpRateRecovery eth s
  | .egressSend eth qpn => Sys2Proof.Machine.execEgressSend eth qpn s
  | .egressAck eth qpn => Sys2Proof.Machine.execEgressAck eth qpn s
  | .qpReset eth qpn => Sys2Proof.Machine.execQpReset eth qpn s
  | .ptpEventMessage eth => Sys2Proof.Machine.execPtpEventMessage eth s
  | .portWallPublish tai => Sys2Proof.Machine.execPortWallPublish tai s
  | .amendRecordTake ecdsa mldsa => Sys2Proof.Machine.execAmendRecordTake ecdsa mldsa s
  | .classCDrained scope => Sys2Proof.Machine.execClassCDrained scope s
  | .classCHalfDrainSave scope => Sys2Proof.Machine.execClassCHalfDrainSave scope s
  | .classCDrainTimeout scope => Sys2Proof.Machine.execClassCDrainTimeout scope s
  | .classCApplyTimeout scope op => Sys2Proof.Machine.execClassCApplyTimeout scope op s
  | .placementChange obj code => Sys2Proof.Machine.execPlacementChange obj code s
  | .platformRoleChange plat role => Sys2Proof.Machine.execPlatformRoleChange plat role s
  | .controlRegisterWrite master addr value sets valid => Sys2Proof.Machine.execControlRegisterWrite master addr value sets valid s
  | .controlDecodeError master foreign addr size write fetch data => Sys2Proof.Machine.execControlDecodeError master foreign addr size write fetch data s
  | .closedIslandAccess master addr write data => Sys2Proof.Machine.execClosedIslandAccess master addr write data s
  | .bridgeAccess master window off size write data far => Sys2Proof.Machine.execBridgeAccess master window off size write data far s
  | .sbRemapWrite value => Sys2Proof.Machine.execSbRemapWrite value s
  | .sbHbeatWrite value => Sys2Proof.Machine.execSbHbeatWrite value s
  | .coreWatchdogExpiry core => Sys2Proof.Machine.execCoreWatchdogExpiry core s
  | .pointsChange pin => Sys2Proof.Machine.execPointsChange pin s
  | .pointsChangeQuiet pin => Sys2Proof.Machine.execPointsChangeQuiet pin s
  | .pointsChangeInputReady pin level => Sys2Proof.Machine.execPointsChangeInputReady pin level s
  | .gpioOutWrite mask value => Sys2Proof.Machine.execGpioOutWrite mask value s
  | .pinShortDetect pin => Sys2Proof.Machine.execPinShortDetect pin s
  | .pinFaultRetry pin clean => Sys2Proof.Machine.execPinFaultRetry pin clean s
  | .turnStrobeAssert pin => Sys2Proof.Machine.execTurnStrobeAssert pin s
  | .turnStrobeDeassert pin => Sys2Proof.Machine.execTurnStrobeDeassert pin s
  | .consoleCommand line => Sys2Proof.Machine.execConsoleCommand line s
  | .lampFrameEnd => Sys2Proof.Machine.execLampFrameEnd s
  | .lampActionPoint => Sys2Proof.Machine.execLampActionPoint s
  | .lampDazzle gap level => Sys2Proof.Machine.execLampDazzle gap level s
  | .lampBlankEnd gap level => Sys2Proof.Machine.execLampBlankEnd gap level s
  | .lampAbsent level => Sys2Proof.Machine.execLampAbsent level s
  | .lampReplyStart => Sys2Proof.Machine.execLampReplyStart s
  | .lampReplyDrop => Sys2Proof.Machine.execLampReplyDrop s
  | .lampTxEnd => Sys2Proof.Machine.execLampTxEnd s
  | .lampNoReply => Sys2Proof.Machine.execLampNoReply s
  | .lampIdent => Sys2Proof.Machine.execLampIdent s
  | .lampStatus => Sys2Proof.Machine.execLampStatus s
  | .lampLedgerRead => Sys2Proof.Machine.execLampLedgerRead s
  | .lampChallenge => Sys2Proof.Machine.execLampChallenge s
  | .lampTokenChunk => Sys2Proof.Machine.execLampTokenChunk s
  | .lampUnlock ecdsa mldsa => Sys2Proof.Machine.execLampUnlock ecdsa mldsa s
  | .lampLock => Sys2Proof.Machine.execLampLock s
  | .lampAmdChunk => Sys2Proof.Machine.execLampAmdChunk s
  | .lampAmdPost => Sys2Proof.Machine.execLampAmdPost s
  | .lampSessionExpiry => Sys2Proof.Machine.execLampSessionExpiry s
  | .lampNonceExpiry => Sys2Proof.Machine.execLampNonceExpiry s
  | .lampRsendWrite value => Sys2Proof.Machine.execLampRsendWrite value s
  | .islandPrepareDone isl => Sys2Proof.Machine.execIslandPrepareDone isl s
  | .islandClosed isl => Sys2Proof.Machine.execIslandClosed isl s
  | .islandClosingLimit isl => Sys2Proof.Machine.execIslandClosingLimit isl s
  | .islandOpenEdge isl => Sys2Proof.Machine.execIslandOpenEdge isl s
  | .bounceExpiry => Sys2Proof.Machine.execBounceExpiry s
  | .p2EntryComplete => Sys2Proof.Machine.execP2EntryComplete s
  | .wakeAlarm rails obs => Sys2Proof.Machine.execWakeAlarm rails obs s
  | .wakePin pin rising rails obs => Sys2Proof.Machine.execWakePin pin rising rails obs s
  | .wakeRailTimeout => Sys2Proof.Machine.execWakeRailTimeout s
  | .avsTargetUpdate need => Sys2Proof.Machine.execAvsTargetUpdate need s
  | .avsDroop plat mhz sensed => Sys2Proof.Machine.execAvsDroop plat mhz sensed s
  | .brownOut rail => Sys2Proof.Machine.execBrownOut rail s
  | .aoPowerOnReset => Sys2Proof.Machine.execAoPowerOnReset s
  | .thermalSample plat port hbm => Sys2Proof.Machine.execThermalSample plat port hbm s
  | .thermalTrip => Sys2Proof.Machine.execThermalTrip s
  | .powerEstimate watts ungated => Sys2Proof.Machine.execPowerEstimate watts ungated s
  | .powerSustainedGate => Sys2Proof.Machine.execPowerSustainedGate s
  | .lifecycleTransition ok obs => Sys2Proof.Machine.execLifecycleTransition ok obs s
  | .keySlotProgram => Sys2Proof.Machine.execKeySlotProgram s
  | .kekProgram => Sys2Proof.Machine.execKekProgram s
  | .keyRevoke mask => Sys2Proof.Machine.execKeyRevoke mask s
  | .rollbackFloorRaise value => Sys2Proof.Machine.execRollbackFloorRaise value s
  | .fuseProgramDone ok => Sys2Proof.Machine.execFuseProgramDone ok s
  | .debugChallenge => Sys2Proof.Machine.execDebugChallenge s
  | .debugRequest value ecdsa mldsa => Sys2Proof.Machine.execDebugRequest value ecdsa mldsa s
  | .debugSessionExpiry => Sys2Proof.Machine.execDebugSessionExpiry s
  | .debugNonceExpiry => Sys2Proof.Machine.execDebugNonceExpiry s
  | .cellHalt high value => Sys2Proof.Machine.execCellHalt high value s
  | .coreHalt value => Sys2Proof.Machine.execCoreHalt value s
  | .debugDataAccess write value => Sys2Proof.Machine.execDebugDataAccess write value s
  | .debugReleaseTimeout => Sys2Proof.Machine.execDebugReleaseTimeout s
  | .tapBypass => Sys2Proof.Machine.execTapBypass s
  | .tapIdcode => Sys2Proof.Machine.execTapIdcode s
  | .tapSamplePreload shift => Sys2Proof.Machine.execTapSamplePreload shift s
  | .tapExtest low => Sys2Proof.Machine.execTapExtest low s
  | .tapClamp low => Sys2Proof.Machine.execTapClamp low s
  | .tapHighz low => Sys2Proof.Machine.execTapHighz low s
  | .tapDapacc => Sys2Proof.Machine.execTapDapacc s
  | .tapAoacc addr => Sys2Proof.Machine.execTapAoacc addr s
  | .faultHandlingEnd => Sys2Proof.Machine.execFaultHandlingEnd s
  | .packageStopPassEnd done => Sys2Proof.Machine.execPackageStopPassEnd done s
  | .lostRecord => Sys2Proof.Machine.execLostRecord s
  | .quarantineRelease cells isl => Sys2Proof.Machine.execQuarantineRelease cells isl s
  | .faultDiscard rec => Sys2Proof.Machine.execFaultDiscard rec s
  | .fastMonitorSample tjPlat tjPort tjHbm vdd power => Sys2Proof.Machine.execFastMonitorSample tjPlat tjPort tjHbm vdd power s
  | .slowMonitorSample obs => Sys2Proof.Machine.execSlowMonitorSample obs s
  | .dailyPrediction => Sys2Proof.Machine.execDailyPrediction s
  | .i3cEntdaa addr => Sys2Proof.Machine.execI3cEntdaa addr s
  | .i3cSetdasa addr => Sys2Proof.Machine.execI3cSetdasa addr s
  | .i3cRstdaa => Sys2Proof.Machine.execI3cRstdaa s
  | .i3cEnec => Sys2Proof.Machine.execI3cEnec s
  | .i3cDisec => Sys2Proof.Machine.execI3cDisec s
  | .i3cGetpid => Sys2Proof.Machine.execI3cGetpid s
  | .i3cGetbcr => Sys2Proof.Machine.execI3cGetbcr s
  | .i3cGetdcr => Sys2Proof.Machine.execI3cGetdcr s
  | .i3cGetstatus => Sys2Proof.Machine.execI3cGetstatus s
  | .i3cGetmwl => Sys2Proof.Machine.execI3cGetmwl s
  | .i3cGetmrl => Sys2Proof.Machine.execI3cGetmrl s
  | .i3cPrivateWrite data rails obs => Sys2Proof.Machine.execI3cPrivateWrite data rails obs s
  | .i3cPrivateRead count => Sys2Proof.Machine.execI3cPrivateRead count s
  | .lampRxPulse gap width => Sys2Proof.Machine.execLampRxPulse gap width s
  | .cxlLinkUp fx bytes speed width => Sys2Proof.Machine.execCxlLinkUp fx bytes speed width s
  | .ethernetLinkChange eth up => Sys2Proof.Machine.execEthernetLinkChange eth up s
  | .queuePairError eth qpn => Sys2Proof.Machine.execQueuePairError eth qpn s
  | .engineInternalError engine => Sys2Proof.Machine.execEngineInternalError engine s
  | .signalBoxHardwareFailure memory => Sys2Proof.Machine.execSignalBoxHardwareFailure memory s
  | .railReturn obs => Sys2Proof.Machine.execRailReturn obs s
  | .vddCoreRecovery plat sensed => Sys2Proof.Machine.execVddCoreRecovery plat sensed s
  | .platformOpenInterval => Sys2Proof.Machine.execPlatformOpenInterval s

end Sys2Proof.Machine
end

