-- ==== Sys2Proof/Safety.lean ====
section
/-! DEFINITION. The terms that the statements use: what a command's completion says, which cell threads issue, what a change of one thread
leaves alone, when a package has nothing left to take up, and how fuses may change. -/

namespace Sys2Proof.Machine

/-- A command ended in a next state that holds a property. -/
def Answers (r : Host.Outcome State Fault Refusal) (p : State → Prop) : Prop := ∃ t, r = .next t ∧ p t

/-- The state in which the package is `c` after its signals are handled and its engines have taken up what `c` made possible. -/
def State.settled (s : State) (c : Chip) : State := { s with chip := c.settle s.otp }

/-- The command answers a next state: the package becomes `c` and settles; fuses and queue stay. -/
def Completes (i : Instr) (s : State) (c : Chip) : Prop := exec i s = .next (s.settled c)

/-- Nothing waits for an engine: no signal stands, and no collective, task, arming, envelope, procedure, restore, draining cell, power
entry or in-band interrupt is due, and no ring holds a cancelled item. -/
structure Quiet (c : Chip) : Prop where
  noSignals : c.signals = []
  noArmed : c.col.armed = []
  noColDeps : ∀ d ∈ c.tt.deps, d.action ≠ 0x0040
  noInsts : c.col.insts = []
  noTasks : c.seq.tasks = []
  noArms : c.arms = []
  noTurnSets : c.amd.armed = []
  noProcs : c.amd.procs = []
  noUnsent : c.amd.unsent = []
  noRestore : c.wear.lost = false
  noDraining : ∀ x ∈ c.cells, x.draining = false
  noEntry : c.pwr.pendOp = none
  noInBand : c.i3c.seen = c.ibiFacts
  noCancelled : c.rings.filter c.holdsCancelled = []
  notPosted : c.seq.posted = false

/-- The thread issues the word and takes no exception at issue (R161, R169, R193): the cell runs and is neither halted, contained nor
starting, no departure that is due is still to fire in its island (R125), its island is open, the thread is ready, its PC lies in the part's program, and the word is free of reserved encodings
and stays inside the part's allotment. -/
structure Issues (c : Chip) (cell thread : Fin 64) (word : Nat) (p : PartState) (t : Thread) : Prop where
  part : (c.cell cell).ps = some p
  thread : p.threads[thread.val]? = some t
  running : c.mayIssue cell t = true
  issuing : (c.cell cell).stoppedIssue = false
  notHalted : p.halted = false
  notDebugged : (c.reg64 rDBG_HALTED_LO).testBit cell = false
  started : (c.cell cell).starting = none
  opened : c.islOpen (cellIsland cell) = true
  ready : t.st = .run
  inProgram : t.pc < c.progLen p.part.blob
  encoding : encodingOk word = true
  allotment : inAllotment p.part word = true
  noneOwed : c.owesFiring (cellIsland cell) = false

/-- `c'` is `c` with thread `t` of cell `n` replaced by `x`: every other thread, cell, register, ring, memory byte and engine is as before. -/
structure ThreadBecomes (c c' : Chip) (n t : Nat) (x : Thread) : Prop where
  rest : c' = { c with cells := c'.cells }
  others : ∀ m, m ≠ n → c'.cell m = c.cell m
  this : ∃ p, (c.cell n).ps = some p ∧ c'.cell n = { c.cell n with ps := some { p with threads := p.threads.set t x } }

/-- `c'` is `c` with the part of cell `n` replaced by `q`. -/
structure PartBecomes (c c' : Chip) (n : Nat) (q : PartState) : Prop where
  rest : c' = { c with cells := c'.cells }
  others : ∀ m, m ≠ n → c'.cell m = c.cell m
  this : c'.cell n = { c.cell n with ps := some q }

/-- The command answers a next state in which one cell's part has become `q`; in a quiet package that is all that changes. -/
def PartStep (i : Instr) (s : State) (n : Nat) (q : PartState) : Prop :=
  ∃ c', Completes i s c' ∧ PartBecomes s.chip c' n q ∧ (Quiet s.chip → s.settled c' = { s with chip := c' })

/-- The command answers a next state in which one thread has become `x`; in a quiet package that is all that changes. -/
def ThreadStep (i : Instr) (s : State) (n t : Nat) (x : Thread) : Prop :=
  ∃ c', Completes i s c' ∧ ThreadBecomes s.chip c' n t x ∧ (Quiet s.chip → s.settled c' = { s with chip := c' })

/-- The walker that LBEGIN binds: the descriptor, the base registers as they read now, and the part's split (R201, R204). -/
def PartState.loopStart (p : PartState) (t : Thread) (w : Nat) (l : LoopRec) : Walker :=
  { loopId := BitVec.ofNat 32 l.id, dreg := wD w, desc := l.desc
    bases := l.desc.roles.map fun r => t.sreg r.baseReg
    splitP := p.part.p, splitQ := p.part.q, pos := 0, finished := false }

/-- A departure is the next to fire and fires on time in every unit of its scope, with its whole effect (R121, R125, R130). -/
structure Fires (c : Chip) (d : Departure) (t : Nat) : Prop where
  first : nextDep c.tt c.turnPeriod = some d
  time : depTime c.tt c.turnPeriod d = some t
  onTime : c.tt.counter ≤ t
  unclamped : depClamped c.tt c.turnPeriod d = false
  units : depIslands d ≠ []
  opened : d.action = 0x0060 ∨ ∀ i ∈ depIslands d, c.islOpen i = true

/-- The package as a departure's effect finds it: at its tick, with the item that a LOG flag or LOG_MARK asks for (R131). -/
def Chip.fired (c : Chip) (d : Departure) (t : Nat) : Chip :=
  if d.log || d.action == 0x0001 then (c.atFiring d t).logDep depFired t (c.atFiring d t).tt.counter d.id d else c.atFiring d t

/-- `b` can be what the fuses `a` became (R509, R510, R512, R515): identity, key slots and certificate never change, a programmed slot
keeps its hash and a revoked one stays revoked, slot 0 is never revoked, a programmed KEK slot keeps its name and its key or loses the
key for good, the seed stays or is erased, anti-rollback words are only added, and the lifecycle never goes back. -/
structure Otp.Since (a b : Otp) : Prop where
  identity : (b.assy, b.grade, b.ship, b.dieStep, b.dieMinor, b.pdStep, b.pdMinor) = (a.assy, a.grade, a.ship, a.dieStep, a.dieMinor, a.pdStep, a.pdMinor)
  factory : (b.deviceId, b.cert, b.idcode, b.portId) = (a.deviceId, a.cert, a.idcode, a.portId)
  slotCount : b.slots.length = a.slots.length
  slotKept : ∀ (n : Nat) (x : KeySlot), a.slots[n]? = some x → ∃ y : KeySlot, b.slots[n]? = some y ∧ (x.programmed = true → y.programmed = true ∧ y.hash = x.hash) ∧
    (x.revoked = true → y.revoked = true) ∧ (n = 0 → y.revoked = x.revoked)
  kekCount : b.keks.length = a.keks.length
  kekKept : ∀ (n : Nat) (x : KekSlot), a.keks[n]? = some x → ∃ y : KekSlot, b.keks[n]? = some y ∧ (x.erased = true → y.erased = true) ∧
    (x.programmed = true → y.programmed = true ∧ y.kekId = x.kekId ∧ (y.key = x.key ∨ y.key = []))
  seedKept : b.seed = a.seed ∨ b.seed = []
  floorWords : a.rollback <+: b.rollback
  lifecycle : a.lcA ≤ b.lcA

/-- What the fuses always satisfy (R46, R509, R510, R512, R515): 16 key slots of which slot 0 is not revoked, 4 KEK slots, at most 16
anti-rollback words, a lifecycle code of the table, and no identity seed in RETURNED or SCRAPPED. -/
structure Otp.WellFormed (o : Otp) : Prop where
  slots : o.slots.length = 16
  slotZero : (o.slots.getD 0 {}).revoked = false
  keks : o.keks.length = 4
  words : o.rollback.length ≤ 16
  state : o.lc ≤ 4
  seedErased : o.lc = 3 ∨ o.lc = 4 → o.seed = []

/-- The fuses agree but for the KEK values and the identity seed (R512). -/
structure Otp.AgreeButSecrets (o o' : Otp) : Prop where
  rest : o' = { o with seed := o'.seed, keks := o'.keks }
  keks : o'.keks.map (fun k => { k with key := [] }) = o.keks.map (fun k => { k with key := [] })

/-- The commands that can change fuses: the three restarts from t0, which complete a transition, a transition, and the end of a programming. -/
def mayProgram : Instr → Bool
  | .porstRise _ | .porstLowPulse _ _ | .railReturn _ | .lifecycleTransition _ _ | .fuseProgramDone _ => true
  | _ => false

/-- Run commands one after another, the queue aside. -/
def runAll : List Instr → State → Host.Outcome State Fault Refusal
  | [], s => .next s
  | i :: rest, s =>
    match exec i s with
    | .next t => runAll rest t
    | .fault f => .fault f
    | .refused r => .refused r

end Sys2Proof.Machine
end

