-- ==== Sys2Proof/Certificates/Slice0/Obligations.lean ====
section
/-! DEFINITION. The statements for the provers, from the numbered rules of the spec. -/

open Sys2Proof Sys2Proof.Machine

/-- A step runs the command at the front of the queue, with the queue's rest. (00_scope.md R1) -/
def Obligations.StepRunsFrontCommand : Prop :=
  ∀ (i : Instr) (s : State), step { s with pending := i :: s.pending } = exec i s

/-- On an empty queue one oscillator cycle passes, in P3 one of 25 MHz, and fuses and queue stay (the model's choice, log entry 8). (04_islands_and_timetable.md R111; 09_rings.md R263; 19_power_states.md R500) -/
def Obligations.EmptyQueueIdles : Prop :=
  ∀ s : State, s.pending = [] →
    (s.chip.pwr.st = .standby → step s = .next { s with chip := s.chip.pass 640 }) ∧
    (s.chip.pwr.st ≠ .standby → step s = .next (s.settled (s.chip.pass 16).ohmaxConsume))

/-- Every command answers a next state, keeps the queue, and does not look at it. (00_scope.md R1; 95_what_each_step_holds.md) -/
def Obligations.EveryCommandAnswersNext : Prop :=
  ∀ (i : Instr) (s : State), ∃ t, exec i s = .next t ∧ t.pending = s.pending ∧
    ∀ q : List Instr, exec i { s with pending := q } = .next { t with pending := q }

/-- Steps over a queue are its commands, first in first out. (00_scope.md R1; 95_what_each_step_holds.md) -/
def Obligations.QueueIsServedInOrder : Prop :=
  ∀ (l rest : List Instr) (s : State), ∃ t, runAll l { s with pending := rest } = .next t ∧ t.pending = rest ∧
    Sys2Proof.core.run l.length { s with pending := l ++ rest } = .next t

/-- Only the restarts from t0, a lifecycle transition and the end of a programming change fuses. (20_security_and_debug.md R509, R510, R511, R512; 02_start_up.md R43, R44, R46) -/
def Obligations.FusesChangeOnlyByFive : Prop :=
  (∀ (i : Instr) (s t : State), mayProgram i = false → exec i s = .next t → t.otp = s.otp) ∧
  (∀ s t : State, s.pending = [] → step s = .next t → t.otp = s.otp)

/-- No step takes back what the fuses hold: they only move forward from any earlier contents. (20_security_and_debug.md R509, R510, R511, R512, R515) -/
def Obligations.FusesOnlyMoveForward : Prop :=
  ∀ (o : Otp) (s t : State), o.Since s.otp → step s = .next t → o.Since t.otp

/-- Every step keeps the fuses well formed. (20_security_and_debug.md R509, R510, R511, R512, R515; 02_start_up.md R46) -/
def Obligations.FusesStayWellFormed : Prop :=
  ∀ s t : State, s.otp.WellFormed → step s = .next t → t.otp.WellFormed

/-- The fuses after reset are well formed (their contents are the model's choice, log entry 2). (20_security_and_debug.md R509, R512, R515) -/
def Obligations.ResetFusesWellFormed : Prop := State.reset.otp.WellFormed

/-- The lifecycle changes only by a permitted transition that was asked for, and leaving for RETURNED or SCRAPPED erases the secrets. (20_security_and_debug.md R508, R509, R510, R511) -/
def Obligations.LifecycleMoves : Prop :=
  ∀ (i : Instr) (s t : State), exec i s = .next t → t.otp.lc ≠ s.otp.lc →
    ∃ (obs : BootObs) (tgt : Nat) (rest : List ProgOp), i = .lifecycleTransition true obs ∧ s.chip.sec.progs = .lifecycle tgt :: rest ∧
      (lcWho s.otp.lc tgt).isSome ∧ t.otp.lcA = tgt ∧ t.otp.lcB = tgt ∧ t.otp.lcC = tgt ∧
      (tgt = 3 ∨ tgt = 4 → t.otp.seed = [] ∧ ∀ k ∈ t.otp.keks, k.key = [] ∧ k.erased = true)

/-- The anti-rollback floor: what it is, when a raise is permitted, and that nothing else moves it. (20_security_and_debug.md R515) -/
def Obligations.AntiRollbackFloor : Prop :=
  (∀ o : Otp, (o.rollback = [] → o.floor = 0) ∧ ∀ l w, o.rollback = l ++ [w] → o.floor = w.toNat) ∧
  (∀ (v : Word) (o : Otp) (c : Chip) (q : List Instr), (floorWho o.lc).isSome →
    Completes (.rollbackFloorRaise v) ⟨o, c, q⟩
      (if o.floor < v.toNat ∧ v.toNat ≤ c.reg rNVM_RUNSECVER ∧ o.rollback.length < 16 then c.askFuses (.floor v.toNat) else c)) ∧
  (∀ (o : Otp) (c : Chip) (q : List Instr) (v : Nat) (rest : List ProgOp), c.sec.progs = .floor v :: rest → o.floor < v → o.rollback.length < 16 →
    Answers (exec (.fuseProgramDone true) ⟨o, c, q⟩) fun t => t.otp = { o with rollback := o.rollback ++ [BitVec.ofNat 32 v] }) ∧
  (∀ (i : Instr) (s t : State), exec i s = .next t → 16 ≤ s.otp.rollback.length → t.otp.rollback = s.otp.rollback) ∧
  (∀ (i : Instr) (s t : State), exec i s = .next t → t.otp.rollback ≠ s.otp.rollback →
    i = .fuseProgramDone true ∧ ∃ v rest, s.chip.sec.progs = .floor v :: rest ∧ s.otp.floor < v ∧ s.otp.rollback.length < 16 ∧
      t.otp.rollback = s.otp.rollback ++ [BitVec.ofNat 32 v])

/-- No register, BAR0 byte, I3C word, mirror, console answer or TAP read depends on a KEK value or on the identity seed. (20_security_and_debug.md R512, R521, R527; 17_signal_box.md R453; 15_host_and_memory_ports.md R391; 18_service_pins_and_lamp_port.md R461; 22_wear.md R565) -/
def Obligations.ReadPathsHideSecrets : Prop :=
  ∀ (o o' : Otp) (c : Chip) (q : List Instr), o.AgreeButSecrets o' →
    (∀ a, c.regRead o' a = c.regRead o a) ∧ (∀ a, c.regNow o' a = c.regNow o a) ∧ (∀ n off len, c.bar0Read o' n off len = c.bar0Read o n off len) ∧
    (∀ a n, c.i3cBytes o' a n = c.i3cBytes o a n) ∧ c.statusMirror o' = c.statusMirror o ∧ (∀ line, c.consoleReply o' line = c.consoleReply o line) ∧
    ∀ a, ∃ d, Completes (.tapAoacc a) ⟨o, c, q⟩ d ∧ Completes (.tapAoacc a) ⟨o', c, q⟩ d

/-- The departure that fires next is an armed one that none comes before, and only without it the boundary is next. (04_islands_and_timetable.md R117, R120, R125, R126) -/
def Obligations.NextDepartureIsFirst : Prop :=
  (∀ (t : Timetable) (turn : Nat) (d : Departure), nextDep t turn = some d → d ∈ t.deps ∧ ∃ k, depKey t turn d = some k ∧
    (∀ e ∈ t.deps, ∀ j, depKey t turn e = some j → depBefore j k = false) ∧ (t.running = true → depBefore (boundaryKey t turn) k = false)) ∧
  (∀ (t : Timetable) (turn : Nat), nextDep t turn = none → t.running = false → ∀ e ∈ t.deps, depKey t turn e = none)

/-- A cancel succeeds while the departure's time is at least the arming lead away; otherwise TOO_LATE, and the departure stays armed. (04_islands_and_timetable.md R124) -/
def Obligations.CancelNeedsTheLead : Prop :=
  ∀ (c : Chip) (id : Nat) (d : Departure), c.tt.deps.find? (fun x => x.id == id) = some d →
    (c.tt.counter + armLead d.scope ≤ c.depTick d → (c.cancelDep id).1 = true ∧
      (c.cancelDep id).2 = ({ c with tt := c.tt.dropDep d } : Chip).logDep depCancelled (c.depTick d) 0 id d) ∧
    (c.depTick d < c.tt.counter + armLead d.scope → (c.cancelDep id).1 = false ∧
      (c.cancelDep id).2 = c.logDep depTooLate (c.depTick d) 0 id d ∧ (c.cancelDep id).2.tt.deps = c.tt.deps)

/-- What a register write does to each bit: RW takes it, a 1 clears W1C unless hardware sets it then, every other bit stays. (00_scope.md R10, R14, R16) -/
def Obligations.RegisterWriteBits : Prop :=
  ∀ (s : RegSpec) (old v sets n : Nat), n < 32 →
    (s.rw.toNat.testBit n = true → s.w1c.toNat.testBit n = false → (s.after old v sets).testBit n = v.testBit n) ∧
    (s.rw.toNat.testBit n = false → s.w1c.toNat.testBit n = true → (s.after old v sets).testBit n = (sets.testBit n || (old.testBit n && !v.testBit n))) ∧
    (s.rw.toNat.testBit n = false → s.w1c.toNat.testBit n = false → (s.after old v sets).testBit n = old.testBit n)

/-- A write on an RO or AM field leaves it unchanged, and one on an AM field is noticed with the writer and the register. (00_scope.md R17) -/
def Obligations.WriteOnReadOnlyField : Prop :=
  ∀ (o : Otp) (c : Chip) (writer a v sets : Nat) (valid : List SigCheck) (s : RegSpec), regSpecAt a = some s → c.regAction o a v valid = none →
    (s.rw = 0 → s.w1c = 0 → s.am = 0 → c.regWrite o writer a v sets valid = c) ∧
    (s.rw = 0 → s.w1c = 0 → s.am ≠ 0 → c.regWrite o writer a v sets valid = c.notice 17 (writer + a * 65536)) ∧
    (s.am ≠ 0 → (c.regWrite o writer a v sets valid).signals = c.signals ++ [.fault { sev := 0, source := 0x0D, cause := 0x40, subcause := 17, arg := writer + a * 65536 }]) ∧
    ∀ n < 32, s.rw.toNat.testBit n = false → s.w1c.toNat.testBit n = false → (s.after (c.reg a) v sets).testBit n = (c.reg a).testBit n

/-- The scalar operations NOP, SLI, SALU, SCMP, BR, FLGRD and TNOW complete, and change their own thread only. (06_cell_operations.md R168, R170, R172, R173, R174, R191) -/
def Obligations.ScalarOperationsComplete : Prop :=
  ∀ (s : State) (cell thread : Fin 64) (word : Qword) (p : PartState) (t : Thread),
    Issues s.chip cell thread word.toNat p t →
    (wOp word.toNat = 0x00 → ThreadStep (.nop cell thread word) s cell thread t.step) ∧
    (wOp word.toNat = 0x02 → ThreadStep (.sli cell thread word) s cell thread (t.setS (wD word.toNat) (BitVec.ofNat 64 (wImm word.toNat))).step) ∧
    (wOp word.toNat = 0x03 → ThreadStep (.salu cell thread word) s cell thread
      (t.setS (wD word.toNat) (salu (wX word.toNat) (t.sreg (wA word.toNat)) (t.opB word.toNat))).step) ∧
    (wOp word.toNat = 0x04 → ThreadStep (.scmp cell thread word) s cell thread
      (t.setS (wD word.toNat) (if scmp (wX word.toNat) (t.sreg (wA word.toNat)) (t.opB word.toNat) then 1 else 0)).step) ∧
    (wOp word.toNat = 0x05 → ThreadStep (.br cell thread word) s cell thread
      (if brTaken (wX word.toNat) (t.sreg (wA word.toNat)) then t.jump word.toNat else t.step)) ∧
    (wOp word.toNat = 0x08 → ThreadStep (.flgrd cell thread word) s cell thread
      ({ t.setS (wD word.toNat) (BitVec.ofNat 64 t.flags.toNat) with flags := t.flags &&& ~~~(BitVec.ofNat 4 (wX word.toNat)) } : Thread).step) ∧
    (wOp word.toNat = 0x23 → ThreadStep (.tnow cell thread word) s cell thread
      (t.setS (wD word.toNat) (BitVec.ofNat 64 (if wX word.toNat = 0 then s.chip.tt.counter else if wX word.toNat = 1 then s.chip.tt.turnNum
        else if wX word.toNat = 2 then s.chip.tt.boundary else s.chip.turnPeriod))).step)

/-- FLGTRAP, FENCE, BAR, DWAIT, DWAIT_WAKE and END complete, at once or by letting their thread wait. (06_cell_operations.md R172, R174, R183, R184, R191, R192) -/
def Obligations.WaitingOperationsComplete : Prop :=
  (∀ (s : State) (cell thread : Fin 64) (word : Qword) (p : PartState) (t : Thread),
    Issues s.chip cell thread word.toNat p t →
    (wOp word.toNat = 0x09 → t.flags &&& BitVec.ofNat 4 (wX word.toNat) = 0 → ThreadStep (.flgtrap cell thread word) s cell thread t.step) ∧
    (wOp word.toNat = 0x09 → t.flags &&& BitVec.ofNat 4 (wX word.toNat) ≠ 0 →
      Completes (.flgtrap cell thread word) s (s.chip.except cell thread excFptrap 0 0)) ∧
    (wOp word.toNat = 0x0A → wX word.toNat = 0 ∨ s.chip.xfersOf cell thread = [] →
      ThreadStep (.fence cell thread word) s cell thread t.step) ∧
    (wOp word.toNat = 0x0A → wX word.toNat ≠ 0 → s.chip.xfersOf cell thread ≠ [] →
      ThreadStep (.fence cell thread word) s cell thread { t with st := .waitFence, word := word.toNat }) ∧
    (wOp word.toNat = 0x22 → wX word.toNat = 0 → (t.sreg (wA word.toNat)).toNat ≤ s.chip.tt.counter →
      ThreadStep (.dwait cell thread word) s cell thread t.step) ∧
    (wOp word.toNat = 0x22 → wX word.toNat = 0 → s.chip.tt.counter < (t.sreg (wA word.toNat)).toNat →
      ThreadStep (.dwait cell thread word) s cell thread { t with st := .waitTick (t.sreg (wA word.toNat)).toNat, word := word.toNat }) ∧
    (wOp word.toNat = 0x22 → wX word.toNat = 1 →
      ThreadStep (.dwait cell thread word) s cell thread { t with st := .waitBoundary s.chip.tt.turnNum, word := word.toNat }) ∧
    (∀ b : Barrier, wOp word.toNat = 0x0B → wX word.toNat ≤ 3 → 0 < wImm word.toNat → wImm word.toNat ≤ p.part.threads →
      b = p.bars.getD (wX word.toNat) {} → (if b.waiting = [] then wImm word.toNat else b.need) ≤ b.waiting.length + 1 →
      Completes (.bar cell thread word) s ((b.waiting ++ [thread.val]).foldl (fun c k => c.setThread cell k Thread.step)
        (s.chip.setPart cell fun p => { p with bars := p.bars.set (wX word.toNat) {} }))) ∧
    (∀ b : Barrier, wOp word.toNat = 0x0B → wX word.toNat ≤ 3 → 0 < wImm word.toNat → wImm word.toNat ≤ p.part.threads →
      b = p.bars.getD (wX word.toNat) {} → b.waiting.length + 1 < (if b.waiting = [] then wImm word.toNat else b.need) →
      Completes (.bar cell thread word) s (((s.chip.setPart cell fun p =>
          { p with bars := p.bars.set (wX word.toNat) ⟨b.waiting ++ [thread.val], if b.waiting = [] then wImm word.toNat else b.need⟩ }).setThread cell thread
        fun t => { t with st := .waitBar (wX word.toNat), word := word.toNat }).barCheck cell 8)) ∧
    (wOp word.toNat = 0x01 → s.chip.xfersOf cell thread = [] → t.failed = 0 → (∀ h ∈ t.resv, h = none) → (∀ h ∈ t.takes, h = none) →
      Completes (.cellEnd cell thread word) s
        (((s.chip.setThread cell thread fun t => { t with st := .ended }).barCheck cell 8).partEnd cell)) ∧
    (wOp word.toNat = 0x01 → s.chip.xfersOf cell thread ≠ [] →
      ThreadStep (.cellEnd cell thread word) s cell thread { t with st := .waitEnd, word := word.toNat })) ∧
  (∀ (s : State) (cell thread : Fin 64) (t : Thread), s.chip.thread? cell thread = some t → (s.chip.cell cell).st = .run →
    s.chip.islOpen (cellIsland cell) = true →
    (∀ tick, t.st = .waitTick tick → Completes (.dwaitWake cell thread) s ((s.chip.reachTick tick).setThread cell thread Thread.step)) ∧
    (∀ turn, t.st = .waitBoundary turn → s.chip.tt.turnNum ≠ turn →
      Completes (.dwaitWake cell thread) s (s.chip.setThread cell thread Thread.step)))

/-- LBEGIN and LNEXT complete: the first or next iteration, the end of a walk, and a finished walker. (07_loop_tables.md R201, R203, R204, R205, R210; 06_cell_operations.md R175) -/
def Obligations.LoopOperationsComplete : Prop :=
  ∀ (s : State) (cell thread : Fin 64) (word : Qword) (ecc : Fin 3) (line : Nat) (p : PartState) (t : Thread),
    Issues s.chip cell thread word.toNat p t →
    (∀ l k, wOp word.toNat = 0x06 → s.chip.im.loops.find? (fun l => l.id == wImm word.toNat) = some l →
      wD word.toNat + l.desc.roles.length - 1 ≤ 31 → k = p.loopStart t word.toNat l →
      (∀ pos vals sk, walkSearch k ((s.chip.walkEcc cell k ecc line).lengthAt cell) 0 = .found pos vals sk →
        Completes (.lbegin cell thread ⟨word, ecc, line⟩) s (((s.chip.walkEcc cell k ecc line).setThread cell thread fun t =>
          ((t.setSs (wD word.toNat) vals).setWalker (wX word.toNat) { k with pos := pos }).step).countWalk cell 1 sk)) ∧
      (∀ sk, walkSearch k ((s.chip.walkEcc cell k ecc line).lengthAt cell) 0 = .done sk →
        Completes (.lbegin cell thread ⟨word, ecc, line⟩) s (((s.chip.walkEcc cell k ecc line).setThread cell thread fun t =>
          ((t.setSs (wD word.toNat) (List.replicate l.desc.roles.length 0xFFFFFFFFFFFFFFFF)).setWalker (wX word.toNat)
            { k with finished := true }).step).countWalk cell 0 sk))) ∧
    (∀ k, wOp word.toNat = 0x07 → t.walker (wX word.toNat) = some k →
      (k.finished = true → ThreadStep (.lnext cell thread ⟨word, ecc, line⟩) s cell thread t.step) ∧
      (∀ pos vals sk, k.finished = false → walkSearch k ((s.chip.walkEcc cell k ecc line).lengthAt cell) (k.pos + 1) = .found pos vals sk →
        Completes (.lnext cell thread ⟨word, ecc, line⟩) s (((s.chip.walkEcc cell k ecc line).setThread cell thread fun t =>
          ((t.setSs k.dreg vals).setWalker (wX word.toNat) { k with pos := pos }).jump word.toNat).countWalk cell 1 sk)) ∧
      (∀ sk, k.finished = false → walkSearch k ((s.chip.walkEcc cell k ecc line).lengthAt cell) (k.pos + 1) = .done sk →
        Completes (.lnext cell thread ⟨word, ecc, line⟩) s (((s.chip.walkEcc cell k ecc line).setThread cell thread fun t =>
          (t.setWalker (wX word.toNat) { k with finished := true }).step).countWalk cell 0 sk)))

/-- RRES, RWR, RCOM, RTAKE, RMILE and RDONE of a ring of this package complete. (06_cell_operations.md R185, R186, R187, R188, R189; 09_rings.md R241, R242, R243, R246, R247, R258) -/
def Obligations.CellRingOperationsComplete : Prop :=
  ∀ (s : State) (cell thread : Fin 64) (word : Qword) (p : PartState) (t : Thread) (w r n : Nat),
    Issues s.chip cell thread w p t → w = word.toNat →
    (wOp w = 0x10 → (freeHandle t.resv).isSome = true → refOk (t.sreg (wA w)).toNat = true → refRing (t.sreg (wA w)).toNat = r →
      s.chip.refAway (t.sreg (wA w)).toNat = false → s.chip.cellMay r false = true → (s.chip.ring r).st ≠ .closed →
      n = wImm w → n ≤ s.chip.ringMaxWords r →
      (s.chip.canGrant r n = true → Completes (.rres cell thread word) s (s.chip.grantTo cell thread (wD w) r n)) ∧
      (s.chip.canGrant r n = false → wNw w = true → Completes (.rres cell thread word) s (s.chip.bareStatus cell thread (wD w) stFull)) ∧
      (s.chip.canGrant r n = false → wNw w = false → Completes (.rres cell thread word) s
        ((s.chip.setRing r fun x => { x with waitRes := x.waitRes ++ [⟨.cell cell thread, n⟩] }).setThread cell thread
          fun t => { t with st := .waitRes r, word := w }))) ∧
    (∀ h i ecc line c1 p1, wOp w = 0x11 → t.resvOf (t.sreg (wA w)) = some h → h.pkg = s.chip.pkg → 1 ≤ wY w → wX w + wY w ≤ h.words →
      inStore (t.sreg (wB w)).toNat (64 * wY w) = true →
      c1 = s.chip.storeEcc cell ecc.val (pickLine (unitsOf (t.sreg (wB w)).toNat (64 * wY w)) line) → c1.partAt cell = some p1 →
      p1.bad (t.sreg (wB w)).toNat (64 * wY w) = false → s.chip.resvOpen cell thread h = some i → c1.resvOpen cell thread h = some i →
      Completes (.rwr cell thread ⟨word, ecc, line⟩) s
        ((c1.setRingWords h.ring (i.idx + wX w) (p1.load (t.sreg (wB w)).toNat (64 * wY w))).setThread cell thread Thread.step)) ∧
    (∀ h ecc line, wOp w = 0x11 → t.resvOf (t.sreg (wA w)) = some h → h.pkg = s.chip.pkg → s.chip.resvOpen cell thread h = none →
      ThreadStep (.rwr cell thread ⟨word, ecc, line⟩) s cell thread t.step) ∧
    (∀ h i, wOp w = 0x12 → t.resvOf (t.sreg (wA w)) = some h → h.pkg = s.chip.pkg → s.chip.resvOpen cell thread h = some i →
      hdrGood (s.chip.ringWord h.ring i.idx) = true →
      Completes (.rcom cell thread word) s ((s.chip.commitItem h.ring h.seq false).setThread cell thread fun t' =>
        ({ t' with resv := t'.resv.set (handleOf (t.sreg (wA w))) none }.setS (wD w)
          (statusWord h.seq h.words (handleOf (t.sreg (wA w))) stOk)).step)) ∧
    (wOp w = 0x13 → (freeHandle t.takes).isSome = true → refOk (t.sreg (wA w)).toNat = true → refRing (t.sreg (wA w)).toNat = r →
      refRemote (t.sreg (wA w)).toNat = false → s.chip.cellMay r true = true → (s.chip.ring r).st ≠ .closed →
      (∀ c, (s.chip.clearHead r).deliverTake cell thread w r = some c → Completes (.rtake cell thread word) s c) ∧
      ((s.chip.clearHead r).deliverTake cell thread w r = none → wNw w = true →
        Completes (.rtake cell thread word) s ((s.chip.clearHead r).bareStatus cell thread (wD w) stEmpty)) ∧
      ((s.chip.clearHead r).deliverTake cell thread w r = none → wNw w = false →
        Completes (.rtake cell thread word) s
          (((s.chip.clearHead r).setRing r fun x => { x with waitTake := x.waitTake ++ [⟨cell, thread⟩] }).setThread cell thread
            fun t => { t with st := .waitTake r, word := w }))) ∧
    (∀ h, wOp w = 0x14 → t.takeOf (t.sreg (wA w)) = some h → s.chip.itemCancelled h = false →
      Completes (.rmile cell thread word) s
        ((s.chip.setMile h.ring h.seq ((t.sreg (wB w)).toNat % 65536)).setThread cell thread fun t' =>
          (t'.setS (wD w) (statusWord h.seq h.words (handleOf (t.sreg (wA w))) stOk)).step)) ∧
    (∀ h, wOp w = 0x15 → t.takeOf (t.sreg (wA w)) = some h → s.chip.itemCancelled h = false →
      Completes (.rdone cell thread word) s
        (((s.chip.completeItem h.ring h.seq 0 0).setPart cell fun p => p.freeTouches h.ring h.seq).setThread cell thread fun t' =>
          ({ t' with takes := t'.takes.set (handleOf (t.sreg (wA w))) none }.setS (wD w)
            (statusWord h.seq h.words (handleOf (t.sreg (wA w))) stOk)).step))

/-- RRES_WAIT_GRANT and RTAKE_WAIT_DELIVER serve the first waiting thread that can run. (06_cell_operations.md R187; 09_rings.md R242, R246) -/
def Obligations.RingWaitsComplete : Prop :=
  ∀ (s : State) (ring : BitVec 14),
    (∀ q cell thread t, (s.chip.ring ring.toNat).waitRes.find? s.chip.requestRuns = some q →
      q.who = .cell cell thread → s.chip.thread? cell thread = some t →
      ((s.chip.ring ring.toNat).st ≠ .closed → s.chip.canGrant ring.toNat q.words = true →
        Completes (.rresWaitGrant ring) s ((s.chip.setRing ring.toNat fun x => { x with waitRes := x.waitRes.erase q }).grantTo cell thread
          (wD t.word) ring.toNat q.words)) ∧
      ((s.chip.ring ring.toNat).st = .closed →
        Completes (.rresWaitGrant ring) s ((s.chip.setRing ring.toNat fun x => { x with waitRes := x.waitRes.erase q }).bareStatus cell thread
          (wD t.word) stClosed))) ∧
    (∀ q t, (s.chip.ring ring.toNat).waitTake.find? (fun w => s.chip.waiterRuns w.cell) = some q → s.chip.thread? q.cell q.thread = some t →
      (∀ c, (s.chip.ring ring.toNat).st ≠ .closed → (s.chip.clearHead ring.toNat).deliverTake q.cell q.thread t.word ring.toNat = some c →
        Completes (.rtakeWaitDeliver ring) s (c.setRing ring.toNat fun x => { x with waitTake := x.waitTake.erase q })) ∧
      ((s.chip.ring ring.toNat).st = .closed →
        Completes (.rtakeWaitDeliver ring) s ((s.chip.setRing ring.toNat fun x => { x with waitTake := x.waitTake.erase q }).bareStatus
          q.cell q.thread (wD t.word) stClosed)))

/-- DARM and DCAN complete for departures of this package. (06_cell_operations.md R190, R191; 04_islands_and_timetable.md R123, R124) -/
def Obligations.ThreadDeparturesComplete : Prop :=
  ∀ (s : State) (cell thread : Fin 64) (word : Qword) (p : PartState) (t : Thread) (w : Nat),
    Issues s.chip cell thread w p t → w = word.toNat →
    (∀ q : DepReq, wOp w = 0x20 → (wX w).testBit 0 = false → scopeWide (bitsOf (wImm w) 31 16) = false →
      q = { whenAt := if (t.sreg (wC w)).toNat % 2 ^ 32 = 0 then .once (t.sreg (wA w)).toNat
              else .periodic ((t.sreg (wC w)).toNat % 2 ^ 32) (t.sreg (wA w)).toNat
            action := bitsOf (wImm w) 15 0, scope := bitsOf (wImm w) 31 16, order := bitsOf (wImm w) 47 32, arg := (t.opB w).toNat
            log := (wImm w).testBit 48, src := .thread, armedBy := some (p.part.ring, p.part.seq) } →
      s.chip.armCheck q = none →
      ∃ free, Completes (.darm cell thread word) s ((s.chip.addDep q false).2.draw.2.setThread cell thread fun t =>
        (t.setS (wD w) (BitVec.ofNat 64 (s.chip.tt.nextId * 2 ^ 32 + free % 2 ^ 24 * 256))).step)) ∧
    (∀ d, wOp w = 0x21 → scopeWide d.scope = false →
      s.chip.tt.deps.find? (fun d => d.id == (t.sreg (wA w)).toNat && d.armedBy == some (p.part.ring, p.part.seq)) = some d →
      s.chip.tt.deps.find? (fun d => d.id == (t.sreg (wA w)).toNat) = some d → s.chip.tt.counter + armLead d.scope ≤ s.chip.depTick d →
      Completes (.dcan cell thread word) s
        ((({ s.chip with tt := s.chip.tt.dropDep d } : Chip).logDep
          depCancelled (s.chip.depTick d) 0 (t.sreg (wA w)).toNat d).setThread cell thread fun t =>
            (t.setS (wD w) (BitVec.ofNat 64 depCancelled)).step)) ∧
    (∀ d, wOp w = 0x21 → s.chip.tt.deps.find? (fun d => d.id == (t.sreg (wA w)).toNat && d.armedBy == some (p.part.ring, p.part.seq)) = none →
      s.chip.tt.spent.find? (fun d => d.id == (t.sreg (wA w)).toNat && d.armedBy == some (p.part.ring, p.part.seq)) = some d →
      Completes (.dcan cell thread word) s ((s.chip.logDep depTooLate (s.chip.depTick d) 0 (t.sreg (wA w)).toNat d).setThread cell thread fun t =>
        (t.setS (wD w) (BitVec.ofNat 64 depTooLate)).step)) ∧
    (wOp w = 0x21 → s.chip.tt.deps.find? (fun d => d.id == (t.sreg (wA w)).toNat && d.armedBy == some (p.part.ring, p.part.seq)) = none →
      s.chip.tt.spent.find? (fun d => d.id == (t.sreg (wA w)).toNat && d.armedBy == some (p.part.ring, p.part.seq)) = none →
      ThreadStep (.dcan cell thread word) s cell thread (t.setS (wD w) (BitVec.ofNat 64 depInvalid)).step)

/-- LDS, STS, LDV and STV complete, and change their thread or their own bytes of the cell store only. (06_cell_operations.md R181; 06_cell_operations.md R170; 05_cells.md R150, R152) -/
def Obligations.CellStoreOperationsComplete : Prop :=
  ∀ (s : State) (cell thread : Fin 64) (word : Qword) (p : PartState) (t : Thread) (w off line : Nat),
    Issues s.chip cell thread w p t → w = word.toNat → off = (t.sreg (wA w) + BitVec.ofNat 64 (wImm w)).toNat →
    (wOp w = 0x30 → off + 8 ≤ cellStoreBytes → off % 8 = 0 → p.bad off 8 = false →
      ThreadStep (.lds cell thread word 0 line) s cell thread (t.setS (wD w) (BitVec.ofNat 64 (leNat (sread p.store off 8)))).step) ∧
    (wOp w = 0x30 → off + 8 ≤ cellStoreBytes → off % 8 = 0 → p.bad off 8 = true →
      Completes (.lds cell thread word 0 line) s (s.chip.except cell thread excStorePoison 0 off)) ∧
    (wOp w = 0x30 → cellStoreBytes < off + 8 → ∀ ecc, Completes (.lds cell thread word ecc line) s (s.chip.except cell thread excBounds 0 off)) ∧
    (wOp w = 0x30 → off + 8 ≤ cellStoreBytes → off % 8 ≠ 0 → ∀ ecc,
      Completes (.lds cell thread word ecc line) s (s.chip.except cell thread excAlign 0 off)) ∧
    (∀ ecc c1 p1, wOp w = 0x30 → off + 8 ≤ cellStoreBytes → off % 8 = 0 → c1 = s.chip.storeEcc cell ecc.val (pickLine (unitsOf off 8) line) →
      c1.partAt cell = some p1 → p1.bad off 8 = false →
      Completes (.lds cell thread word ecc line) s (c1.setThread cell thread fun t => (t.setS (wD w) (BitVec.ofNat 64 (leNat (p1.load off 8)))).step)) ∧
    (∀ ecc c1 p1, wOp w = 0x32 → off + 1024 ≤ cellStoreBytes → off % 64 = 0 →
      c1 = s.chip.storeEcc cell ecc.val (pickLine (unitsOf off 1024) line) → c1.partAt cell = some p1 → p1.bad off 1024 = false →
      Completes (.ldv cell thread word ecc line) s (c1.setThread cell thread fun t => (t.setV (wD w) (lanesOf (p1.load off 1024))).step)) ∧
    (wOp w = 0x31 → off + 8 ≤ cellStoreBytes → off % 8 = 0 →
      PartStep (.sts cell thread word) s cell
        { p.put off (leBytes 8 (t.sreg (wB w)).toNat) with threads := p.threads.set thread t.step }) ∧
    (wOp w = 0x32 → off + 1024 ≤ cellStoreBytes → off % 64 = 0 → p.bad off 1024 = false →
      ThreadStep (.ldv cell thread word 0 line) s cell thread (t.setV (wD w) (lanesOf (sread p.store off 1024))).step) ∧
    (wOp w = 0x33 → (t.vreg (wB w)).length = 256 → off + 1024 ≤ cellStoreBytes → off % 64 = 0 →
      PartStep (.stv cell thread word) s cell
        { p.put off (bytesOfLanes (t.vreg (wB w))) with threads := p.threads.set thread t.step })

/-- XGET, XPUT, XWAIT, XATOM, TRANSFER_COMPLETE and TRANSFER_CLOSED_LIMIT complete. (06_cell_operations.md R181, R182; 08_memory_tiers.md R222, R226, R231) -/
def Obligations.TransferOperationsComplete : Prop :=
  (∀ (s : State) (cell thread : Fin 64) (word : Qword) (p : PartState) (t : Thread) (w a off n : Nat),
    Issues s.chip cell thread w p t → w = word.toNat → a = (t.sreg (wA w)).toNat → off = (t.sreg (wB w)).toNat → n = (t.sreg (wC w)).toNat →
    (0 < n → off + n ≤ cellStoreBytes → off % 64 = 0 → n % 64 = 0 → a % 64 = 0 → s.chip.addrGood a n = true →
      (s.chip.tagBusy cell thread (wX w) = false →
        (wOp w = 0x34 → Completes (.xget cell thread word) s ((s.chip.startXfer { cell := cell, thread := thread, tag := wX w, kind := .get
                                                                                  addr := a, off := off, len := n, since := s.chip.elapsed }).setThread
          cell thread Thread.step)) ∧
        (wOp w = 0x35 → s.chip.returnFull cell a = false → ∀ ecc line c1 p1 bad, c1 = s.chip.storeEcc cell ecc.val (pickLine (unitsOf off n) line) →
          c1.partAt cell = some p1 →
          bad = (List.range (n / 64)).filter (fun k => p1.bad (off + 64 * k) 64) →
          Completes (.xput cell thread ⟨word, ecc, line⟩) s (((c1.logTouches cell thread a n).startXfer
            { cell := cell, thread := thread, tag := wX w, kind := .put, addr := a, off := off, len := n
              since := c1.elapsed, data := p1.load off n, bad := bad }).setThread cell thread Thread.step))) ∧
      (s.chip.tagBusy cell thread (wX w) = true →
        (wOp w = 0x34 → ThreadStep (.xget cell thread word) s cell thread { t with st := .waitTagFree (wX w), word := w }) ∧
        (wOp w = 0x35 → s.chip.returnFull cell a = false → ∀ ecc line, ThreadStep (.xput cell thread ⟨word, ecc, line⟩) s cell thread { t with st := .waitTagFree (wX w), word := w }))) ∧
    (wOp w = 0x35 → s.chip.returnFull cell a = true → ∀ ecc line, Completes (.xput cell thread ⟨word, ecc, line⟩) s s.chip) ∧
    (wOp w = 0x37 → a % 8 = 0 → s.chip.addrGood a 8 = true →
      Completes (.xatom cell thread word) s ((((s.chip.setThread cell thread fun t => { t with st := .waitAtom, word := w })).logTouches
        cell thread a 8).startXfer { cell := cell, thread := thread, tag := 16, kind := .atom (wX w) off n, addr := a, off := 0
                                     len := 8, dreg := wD w, since := s.chip.elapsed })) ∧
    (wOp w = 0x36 → wNw w = true → ThreadStep (.xwait cell thread word) s cell thread
      (t.setS (wD w) (BitVec.ofNat 64 (s.chip.busyMask cell thread &&& wImm w % 2 ^ 16))).step) ∧
    (wOp w = 0x36 → wNw w = false → s.chip.busyMask cell thread &&& wImm w % 2 ^ 16 ≠ 0 →
      ThreadStep (.xwait cell thread word) s cell thread { t with st := .waitTags (wImm w % 2 ^ 16), word := w }) ∧
    (wOp w = 0x36 → wNw w = false → s.chip.busyMask cell thread &&& wImm w % 2 ^ 16 = 0 → t.failed &&& wImm w % 2 ^ 16 = 0 →
      ThreadStep (.xwait cell thread word) s cell thread t.step)) ∧
  (∀ (s : State) (cell thread : Fin 64) (tag : Fin 17) (obs : Fin 4) (line : Nat) (x : Xfer),
    (s.chip.xfersOf cell thread).find? (fun x => x.tag == tag.val) = some x →
    (x.st ≠ .away → s.chip.portHolds x = false → Completes (.transferComplete cell thread tag obs line) s
      ((s.chip.finishXfer x obs line).recheck cell thread fun c => c.partEnd cell)) ∧
    (x.kind ≠ .put → x.st = .away → x.closedSince = none → Completes (.transferClosedLimit cell thread tag.castSucc) s
      (((s.chip.passTo (x.since + tMs)).failXfer x 7).recheck cell thread fun c => c.partEnd cell)) ∧
    (∀ since, x.kind ≠ .put → x.closedSince = some since → Completes (.transferClosedLimit cell thread tag.castSucc) s
      (((s.chip.passTo (since + tMs)).failXfer x 7).recheck cell thread fun c => c.partEnd cell))) ∧
  (∀ (s : State) (cell thread : Fin 64) (q : RemoteReq), s.chip.askedOp (wireTag 0 cell thread 17) = some q →
    ((∃ a b d e, q.kind = .rwr a b d e) ∨ (∃ a b, q.kind = .rcom a b)) →
    Completes (.transferClosedLimit cell thread 17) s ((s.chip.passTo (q.since + tMs)).originError (wireTag 0 cell thread 17) 7))

/-- STAGE, MMA, ACCRD, ACCWR and ACCST complete. (06_cell_operations.md R176, R177, R178; 05_cells.md R141, R142, R143, R148, R149) -/
def Obligations.MacOperationsComplete : Prop :=
  ∀ (s : State) (cell thread : Fin 64) (word : Qword) (p : PartState) (t : Thread) (w line : Nat),
    Issues s.chip cell thread w p t → w = word.toNat →
    (∀ f reg, wOp w = 0x40 → fmtOfCode (wY w) = some f →
      reg = stageRegions f ((wX w).testBit 3) (t.sreg (wA w)).toNat (t.sreg (wB w)).toNat (wImm w % 2 ^ 32) →
      (∀ e ∈ reg, e.1 + e.2 ≤ cellStoreBytes ∧ p.bad e.1 e.2 = false) →
      PartStep (.stage cell thread word 0 line) s cell
        { p with stage := p.stage.set (wX w % 8) (some (p.stageTile f ((wX w).testBit 3) (t.sreg (wA w)).toNat (t.sreg (wB w)).toNat (wImm w % 2 ^ 32)))
                 threads := p.threads.set thread t.step }) ∧
    (∀ slots r, wOp w = 0x41 → mmaSlots p w = some slots → r = mmaRun (t.tile (wD w)) ((wX w).testBit 0) slots →
      Completes (.mma cell thread word) s
        (((s.chip.setReg (cellReg rCELL_MACBUSY cell) (s.chip.reg (cellReg rCELL_MACBUSY cell) +
            if slots.any (fun e => e.1.fmt = .bf16 || e.2.fmt = .bf16) then 2 else 1)).setThread cell thread fun t =>
              (t.setTile (wD w) r.1).step).setFlags cell thread r.2)) ∧
    (wOp w = 0x42 → ThreadStep (.accrd cell thread word) s cell thread
      ((((t.setV (wD w) ((t.tile (wA w)).take 256)).setV (wD w + 1) (((t.tile (wA w)).drop 256).take 256)).setV (wD w + 2)
        (((t.tile (wA w)).drop 512).take 256)).setV (wD w + 3) (((t.tile (wA w)).drop 768).take 256)).step) ∧
    (wOp w = 0x43 → ThreadStep (.accwr cell thread word) s cell thread
      (t.setTile (wD w) (t.vreg (wA w) ++ t.vreg (wA w + 1) ++ t.vreg (wA w + 2) ++ t.vreg (wA w + 3))).step) ∧
    (∀ f offs rows, wOp w = 0x44 → fmtOfCode (wX w) = some f → f.isMx = false →
      offs = (List.range 32).map (fun r => ((t.sreg (wB w)).toNat + r * (wImm w % 2 ^ 32)) % 2 ^ 64) →
      (∀ o ∈ offs, o + 4 * f.width ≤ cellStoreBytes) →
      rows = (List.range 32).map (fun r => rowBytes f (((t.tile (wA w)).drop (32 * r)).take 32)) →
      Completes (.accst cell thread word) s
        (((s.chip.setPart cell fun p => (List.range 32).foldl (fun p r => p.put (offs.getD r 0) (rows.getD r ([], none, 0)).1) p).setThread
          cell thread Thread.step).setFlags cell thread (orFlags (rows.map fun x => x.2.2)))) ∧
    (∀ f offs rows, wOp w = 0x44 → fmtOfCode (wX w) = some f → f.isMx = true →
      offs = (List.range 32).map (fun r => ((t.sreg (wB w)).toNat + r * (wImm w % 2 ^ 32)) % 2 ^ 64) →
      (∀ o ∈ offs, o + 4 * f.width ≤ cellStoreBytes) → (∀ r < 32, ((t.sreg (wC w)).toNat + r) % 2 ^ 64 + 1 ≤ cellStoreBytes) →
      rows = (List.range 32).map (fun r => convMx f (fun _ => .nearest) (((t.tile (wA w)).drop (32 * r)).take 32)) →
      Completes (.accst cell thread word) s
        (((s.chip.setPart cell fun p => (List.range 32).foldl (fun p r =>
          (p.put (offs.getD r 0) (((rows.map fun x => packElems f x.elems)).getD r [])).put (((t.sreg (wC w)).toNat + r) % 2 ^ 64)
            [BitVec.ofNat 8 ((rows.map fun x => x.scale).getD r 0)]) p).setThread
          cell thread Thread.step).setFlags cell thread (orFlags (rows.map fun x => x.flags))))

/-- The vector, conversion and special-function operations complete. (05_cells.md R149, R155, R156, R157, R158, R159; 06_cell_operations.md R172, R179, R180, R591, R592) -/
def Obligations.VectorOperationsComplete : Prop :=
  ∀ (s : State) (cell thread : Fin 64) (word : Qword) (p : PartState) (t : Thread) (w : Nat) (lanes : List FpRes → Chip),
    Issues s.chip cell thread w p t → w = word.toNat →
    (lanes = fun r => (s.chip.setThread cell thread fun t => (t.setV (wD w) (r.map (·.bits))).step).setFlags cell thread (orFlags (r.map (·.flags)))) →
    (wOp w = 0x50 → wX w = 0 → Completes (.vadd cell thread word) s (lanes (List.zipWith fpAdd (t.vreg (wA w)) (t.vreg (wB w))))) ∧
    (wOp w = 0x50 → wX w = 1 →
      Completes (.vadd cell thread word) s (lanes (List.zipWith (fun a b => fpAdd a (fpNeg b)) (t.vreg (wA w)) (t.vreg (wB w))))) ∧
    (wOp w = 0x51 → Completes (.vmul cell thread word) s (lanes (List.zipWith fpMul (t.vreg (wA w)) (t.vreg (wB w))))) ∧
    (wOp w = 0x52 → Completes (.vfma cell thread word) s
      (lanes (List.zipWith (fun (ab : Word × Word) x => fpFma ab.1 ab.2 x) (List.zip (t.vreg (wA w)) (t.vreg (wB w))) (t.vreg (wC w))))) ∧
    (wOp w = 0x53 → ThreadStep (.vmin cell thread word) s cell thread
      (t.setV (wD w) (List.zipWith fpMin (t.vreg (wA w)) (t.vreg (wB w)))).step) ∧
    (wOp w = 0x54 → ThreadStep (.vmax cell thread word) s cell thread
      (t.setV (wD w) (List.zipWith fpMax (t.vreg (wA w)) (t.vreg (wB w)))).step) ∧
    (wOp w = 0x55 → ThreadStep (.vcmp cell thread word) s cell thread (t.setV (wD w) (List.zipWith (fun a b =>
      if (if (wX w).testBit 3 then uintCmp (wX w % 8) a b else fpCmp (wX w % 8) a b) then 0xFFFFFFFF else 0) (t.vreg (wA w)) (t.vreg (wB w)))).step) ∧
    (wOp w = 0x56 → ThreadStep (.vsel cell thread word) s cell thread (t.setV (wD w)
      (List.zipWith (fun (ab : Word × Word) x => if x ≠ 0 then ab.1 else ab.2) (List.zip (t.vreg (wA w)) (t.vreg (wB w))) (t.vreg (wC w)))).step) ∧
    (wOp w = 0x57 → ThreadStep (.vbcast cell thread word) s cell thread (t.setV (wD w) (List.replicate 256 ((t.opB w).setWidth 32))).step) ∧
    (∀ q, wOp w = 0x58 → wX w = 0 → q = sumTree 8 (t.vreg (wA w)) → Completes (.vred cell thread word) s
      ((s.chip.setThread cell thread fun t => (t.setS (wD w) ((q.1.getD 0 0).setWidth 64)).step).setFlags cell thread q.2)) ∧
    (wOp w = 0x58 → wX w = 1 → ThreadStep (.vred cell thread word) s cell thread
      (t.setS (wD w) ((((t.vreg (wA w)).drop 1).foldl fpMax ((t.vreg (wA w)).getD 0 0)).setWidth 64)).step) ∧
    (wOp w = 0x58 → wX w = 2 → ThreadStep (.vred cell thread word) s cell thread
      (t.setS (wD w) ((((t.vreg (wA w)).drop 1).foldl fpMin ((t.vreg (wA w)).getD 0 0)).setWidth 64)).step) ∧
    (∀ f r, wOp w = 0x59 → fmtOfCode (wX w) = some f → wY w = 0 → r = packLanes f (fun _ => .nearest) (t.vreg (wA w)) →
      Completes (.vcvt cell thread word) s ((s.chip.setThread cell thread fun t => (t.setV (wD w) r.1).step).setFlags cell thread r.2)) ∧
    (∀ f, wOp w = 0x59 → fmtOfCode (wX w) = some f → wY w = 1 →
      Completes (.vcvt cell thread word) s (lanes (unpackLanes f (t.vreg (wA w))))) ∧
    (wOp w = 0x60 → Completes (.sfn cell thread word) s (lanes ((t.vreg (wA w)).map (sfnLane (wX w))))) ∧
    (wOp w = 0x61 → Completes (.roph cell thread word) s (lanes ((t.vreg (wB w)).map (rophLane ((t.sreg (wA w)).setWidth 32))))) ∧
    (wOp w = 0x62 → ThreadStep (.dice cell thread word) s cell thread (t.setV (wD w) ((List.range 256).map fun l =>
      if wX w = 1 then diceUniform (diceWord (t.diceBlock (wC w)) l) else diceWord (t.diceBlock (wC w)) l)).step) ∧
    (∀ f d r, wOp w = 0x63 → fmtOfCode (wX w) = some f →
      d = { t.diceBlock (wC w) with c2 := ((t.diceBlock (wC w)).c2 &&& 0xFFFF) ||| 0x10000 } →
      r = packLanes f (fun e => .dice (diceWord d e)) (t.vreg (wA w)) →
      Completes (.vcvts cell thread word) s ((s.chip.setThread cell thread fun t => (t.setV (wD w) r.1).step).setFlags cell thread r.2))

/-- The start-up commands of section 02 complete. (02_start_up.md R44, R46, R48, R53, R54, R55, R59, R60; 03_amibo_image.md R90; 21_faults.md R546) -/
def Obligations.StartUpCommandsComplete : Prop :=
  ∀ (o : Otp) (c : Chip) (q : List Instr),
    (∀ (obs : BootObs), exec (.porstRise obs) ⟨o, c, q⟩ = .next (State.startUp ⟨o, c, q⟩ obs)) ∧
    (∀ (ticks : Nat) (obs : BootObs), ticks < 1600 → exec (.porstLowPulse ticks obs) ⟨o, c, q⟩ = .next (⟨o, c.pass ticks, q⟩)) ∧
    (∀ (ticks : Nat) (obs : BootObs), 16000 ≤ ticks → exec (.porstLowPulse ticks obs) ⟨o, c, q⟩ = .next (State.startUp ⟨o, c.pass ticks, q⟩ obs)) ∧
    (∀ (ticks : Nat) (obs : BootObs), 1600 ≤ ticks → ticks < 16000 → exec (.porstLowPulse ticks obs) ⟨o, c, q⟩ = .next ⟨o, (c.pass ticks).draw.2, q⟩ ∨
        exec (.porstLowPulse ticks obs) ⟨o, c, q⟩ = .next (State.startUp ⟨o, (c.pass ticks).draw.2, q⟩ obs)) ∧
    (∀ (sfdpA sfdpB : Nat) (openA openB : BitVec 9) (t : Nat), c.boot.step = 5 → c.boot.stopped = false → c.boot.waitUntil = some t → Completes (.flashRecoveryExpiry sfdpA sfdpB openA openB) ⟨o, c, q⟩ (((c.passTo t).readHeaders o sfdpA sfdpB openA openB).pickSlot)) ∧
    (∀ (ecdsa endEcdsa mldsa endMldsa : List SigCheck), c.streaming = true → Completes (.slotStreamDone ecdsa endEcdsa mldsa endMldsa) ⟨o, c, q⟩ (match judgeSlot o c.chosenFlash (ecdsa ++ endEcdsa ++ mldsa ++ endMldsa) with
        | .inl code => c.slotFail code
        | .inr im => c.slotGood o im)) ∧
    (c.streaming = true → Completes (.flashReadTimeout) ⟨o, c, q⟩ (c.slotFail 0x26)) ∧
    (∀ (checkA checkB : Word) (t : Nat), 5 < c.boot.step → c.boot.stopped = false → c.boot.waitUntil = some t → Completes (.attemptRetry checkA checkB) ⟨o, c, q⟩ (({ c.passTo t with boot := { (c.passTo t).boot with attempt := (c.passTo t).boot.attempt + 1 } } : Chip).pinCheck checkA checkB)) ∧
    (∀ (mask : BitVec 8), c.boot.hbmWait = true → c.boot.stopped = false → Completes (.hbmTrainingDone mask) ⟨o, c, q⟩ (c.hbmTrained o mask.toNat)) ∧
    (∀ (im : Image), c.boot.loaded = some im → c.boot.step = 12 → c.boot.hbmWait = false → c.boot.stopped = false → Completes (.handOver) ⟨o, c, q⟩ (c.handOver o im)) ∧
    (∀ (isl : Fin 14), (c.island isl.val).st = .opening → 1 < isl.val → Completes (.platformOpenTimeout isl) ⟨o, c, q⟩ ((c.passTo ((c.island isl.val).began + openLimit isl.val)).openTimeout o isl.val)) ∧
    ((c.island 1).st = .opening → c.boot.step = 3 → c.boot.stopped = false → Completes (.i1OpenTimeout) ⟨o, c, q⟩ ((((c.passTo ((c.island 1).began + tMs)).setIsland 1 fun i => { i with st := .closed }).startStop 0x45).takeLatch 0x12)) ∧
    (∀ (c1 : Chip), c.boot.step = 15 → c.boot.stopped = false → (c1 = if (c.passTo (c.boot.linkAt + c.im.clk.linkWindow)).mem.backed then c.passTo (c.boot.linkAt + c.im.clk.linkWindow)
        else (c.passTo (c.boot.linkAt + c.im.clk.linkWindow)).backLate) → Completes (.linkWindowExpiry) ⟨o, c, q⟩ ({ c1 with boot := { c1.boot with
        step := 16, lockAt := c1.elapsed
        linkShort := c1.plannedHalves.any fun u => (c1.half u.1 u.2).st != .up && (c1.half u.1 u.2).st != .widthchg } })) ∧
    (c.boot.step = 16 → c.boot.stopped = false → c.boot.code ≠ 3 → c.im.clk.lockRequired = false → Completes (.lockTimeoutExpiry) ⟨o, c, q⟩ ((c.passTo (c.boot.lockAt + c.im.clk.lockTimeout)).freeStart)) ∧
    (∀ (c1 : Chip), c.boot.step = 16 → c.boot.stopped = false → c.boot.code ≠ 3 → c.im.clk.lockRequired = true → c1 = c.passTo (c.boot.lockAt + c.im.clk.lockTimeout) → Completes (.lockTimeoutExpiry) ⟨o, c, q⟩ (({ c1 with boot := { c1.boot with code := 3 } } : Chip).signal .bootCode)) ∧
    (∀ (t : Nat), c.boot.ohmaxAt = some t → 13 ≤ c.boot.step → c.boot.step ≤ 17 → c.boot.stopped = false → Completes (.ohmaxSilentTimeout) ⟨o, c, q⟩ ((c.passTo (c.ctl.beats.foldl max t + tSec)).startStop 0x47)) ∧
    (∀ (slot : Nat), 3 ≤ c.boot.step → c.boot.step < 13 → c.boot.stopped = false → (slot = (match c.boot.chosen with | some 0 => c.boot.slotA | some _ => c.boot.slotB | none => 0)) → Completes (.startupDeadlineExpiry) ⟨o, c, q⟩ ((c.passTo (c.boot.t0 + 60 * tSec)).startStop (if 0x20 ≤ slot then slot else 0x40)))

/-- The timetable's commands complete: time flits, the cold-start root, the turn boundary, sync, clocks and registers. (04_islands_and_timetable.md R106, R112, R113, R118, R120, R132, R133, R134, R135, R137; 13_bilsal_links.md R360, R361) -/
def Obligations.TimetableCommandsComplete : Prop :=
  ∀ (o : Otp) (c : Chip) (q : List Instr),
    (∀ (link : Fin 24) (half : Fin 2) (sentAt : Nat) (c1 : Chip), c.hearsTime link.val half.val = true → (c1 = if (c.half link.val half.val).txPrev / 16 / 64000 < c.tt.counter / 64000 then c else c.reachTick ((c.tt.counter / 64000 + 1) * 64000)) → Completes (.timeFlitSend link half sentAt) ⟨o, c, q⟩ (c1.setHalf link.val half.val fun x => { x.frame 2 0 0 0 (c1.timeBody link.val half.val) with
        timeOut := c1.timeBody link.val half.val, tseq := (x.tseq + 1) % 65536
        txPrev := c1.tt.counter * 16 + sentAt % 16, txLatPrev := (c1.stampLane link.val half.val).lat })) ∧
    (∀ (link : Fin 24) (half : Fin 2) (flit : List Byte) (errs seenAt : Nat) (lane : Fin 4), c.hearsTime link.val half.val = false → Completes (.timeFlitReceive link half ⟨flit, errs⟩ seenAt lane) ⟨o, c, q⟩ (c)) ∧
    (∀ (link : Fin 24) (half : Fin 2) (flit : List Byte) (errs seenAt : Nat) (lane : Fin 4), c.hearsTime link.val half.val = true → fecCorrects errs = false → Completes (.timeFlitReceive link half ⟨flit, errs⟩ seenAt lane) ⟨o, c, q⟩ ((c.bump (rLNK_FECUNC + link.val * 0x800)).sendNak link.val half.val)) ∧
    (∀ (link : Fin 24) (half : Fin 2) (flit : List Byte) (errs seenAt : Nat) (lane : Fin 4), c.hearsTime link.val half.val = true → fecCorrects errs = true → flitGood flit = false → Completes (.timeFlitReceive link half ⟨flit, errs⟩ seenAt lane) ⟨o, c, q⟩ ((if errs = 0 then c else c.bump (rLNK_FECCORR + link.val * 0x800)).crcFailed link.val half.val)) ∧
    (∀ (link : Fin 24) (half : Fin 2) (flit : List Byte) (errs seenAt : Nat) (lane : Fin 4) (c1 : Chip) (x : LinkHalf), c.hearsTime link.val half.val = true → fecCorrects errs = true → flitGood flit = true → flitShape flit = true → fieldAt flit 0 1 = 2 → (c1 = (if errs = 0 then c else c.bump (rLNK_FECCORR + link.val * 0x800)).flitHeader link.val half.val flit) → x = c1.half link.val half.val → (fieldAt flit 58 2 ≠ (x.tseq + 65535) % 65536 ∨ fieldAt flit 56 2 ≠ x.rxSeqLast ∨ x.rxLast = 0) → Completes (.timeFlitReceive link half ⟨flit, errs⟩ seenAt lane) ⟨o, c, q⟩ (c1.setHalf link.val half.val fun x => { x with
        rxLast := c1.tt.counter * 16 + seenAt % 16, rxSeqLast := fieldAt flit 60 2
        rxLatLast := ((c1.link link.val).rx.getD lane.val {}).lat })) ∧
    (c.tt.carries = false → 16 ≤ c.boot.step → c.boot.stopped = false → c.upHalves ≠ [] → (∀ u ∈ c.upHalves, ∃ k ∈ c.tt.clearRun.find? (fun k => k.1 == halfKey u.1 u.2), 16 ≤ k.2) → c.im.syncStation = some c.pkg → Completes (.coldStartRoot) ⟨o, c, q⟩ (((c.passTo (c.net.mapSince + 100 * tUs)).setTt fun t => { t with rootPkg := some c.pkg, parent := none, depth := 0 }).enterTime .root 0 0)) ∧
    (∀ (readBack : Bool) (stretch : List Nat), boundaryNext c.tt c.turnPeriod = true → Completes (.turnBoundary ⟨readBack, stretch⟩) ⟨o, c, q⟩ ((c.reachTick (c.tt.nextBoundary c.turnPeriod)).boundaryWork readBack stretch)) ∧
    (∀ (readBack : Bool) (stretch : List Nat), boundaryNext c.tt c.turnPeriod = false → Completes (.turnBoundary ⟨readBack, stretch⟩) ⟨o, c, q⟩ (c)) ∧
    (∀ (isl : Fin 14), Completes (.clockSettled isl) ⟨o, c, q⟩ (c.setIsland isl.val fun x => match x.change with
        | some f => { x.setRunning f c.elapsed with change := none }
        | none => x)) ∧
    (∀ (tick high : Nat), c.syncMode = 1 → c.tt.sync.st ≠ .off → 16000 ≤ high → high ≤ 3200000000 → Completes (.syncPpsEdge tick high) ⟨o, c, q⟩ (((c.reachTick tick).polarity (decide (12800000000 ≤ high))).syncEdge tick tSec true)) ∧
    (∀ (tick high : Nat), c.syncMode = 1 → c.tt.sync.st ≠ .off → (high < 16000 ∨ 3200000000 < high) → Completes (.syncPpsEdge tick high) ⟨o, c, q⟩ ((c.reachTick tick).polarity (decide (12800000000 ≤ high)))) ∧
    (∀ (tick : Nat) (frame : List Byte) (c1 : Chip), c.syncMode = 2 → c.tt.sync.st ≠ .off → frame.length = 7 → fieldAt frame 0 1 = 0xA5 → crc16 (frame.take 5) = fieldAt frame 5 2 → c1 = (c.reachTick tick).polarity false → Completes (.syncCodeFrame tick frame) ⟨o, c, q⟩ ((if fieldAt frame 1 4 = c1.tt.turnNum % 2 ^ 32 then c1 else c1.bump rTT_SYNC_NUMERR).syncEdge tick
        (if fieldAt frame 1 4 = c1.tt.turnNum % 2 ^ 32 then c1 else c1.bump rTT_SYNC_NUMERR).turnPeriod false)) ∧
    (c.syncMode ≠ 0 → (c.tt.sync.st = .acquire ∨ c.tt.sync.st = .track) → c.tt.sync.missing < 3 → Completes (.syncIntervalMissing) ⟨o, c, q⟩ (c.setSync fun y => { y with missing := y.missing + 1, consistent := 0 })) ∧
    (c.syncMode ≠ 0 → (c.tt.sync.st = .acquire ∨ c.tt.sync.st = .track) → 3 ≤ c.tt.sync.missing → Completes (.syncIntervalMissing) ⟨o, c, q⟩ (((c.setSync fun y => { y with missing := y.missing + 1, consistent := 0 }).setSync fun y => { y with st := .freerun, missing := 0 }).notice 135 1)) ∧
    (Completes (.ttNowLoRead) ⟨o, c, q⟩ (c.setReg rTT_NOW_HI (c.tt.counter / 2 ^ 32))) ∧
    (∀ (value : Word), value.toNat.testBit 0 = true → Completes (.ttCntclr value) ⟨o, c, q⟩ (((((c.setReg rTT_SYNC_MISS 0).setReg rTT_SYNC_EXTRA 0).setReg rTT_SYNC_NUMERR 0).setReg rTT_DEPREJ 0).setReg rTT_LOGLOST 0))

/-- The departure actions complete: each fires at its tick with its effect. (04_islands_and_timetable.md R106, R118, R122, R125, R126, R130, R131; 10_dispatch_and_switching.md R275; 09_rings.md R254; 12_generate_and_learn.md R332; 14_collectives.md R380; 19_power_states.md R486) -/
def Obligations.DeparturesComplete : Prop :=
  ∀ (o : Otp) (c : Chip) (q : List Instr),
    (∀ (d : Departure) (t : Nat), Fires c d t → d.action = 0x0001 → Completes (.logMark) ⟨o, c, q⟩ (c.fired d t)) ∧
    (∀ (d : Departure) (t : Nat), Fires c d t → d.action = 0x0002 → d.arg = 1 → Completes (.telemetrySnapshot) ⟨o, c, q⟩ ((c.fired d t).setCtl fun k => { k with mirrors := (c.fired d t).statusMirror o })) ∧
    (∀ (obs : WearObs) (d : Departure) (t : Nat), Fires c d t → d.action = 0x0002 → d.arg = 2 → (c.fired d t).ohmaxRuns = true → Completes (.wearSample obs) ⟨o, c, q⟩ ((c.fired d t).slowSample o obs)) ∧
    (∀ (d : Departure) (t : Nat), Fires c d t → d.action = 0x0010 → Completes (.syncAdjust) ⟨o, c, q⟩ ((c.fired d t).setTt fun x => { x with shift := signed 64 d.arg })) ∧
    (∀ (d : Departure) (t : Nat), Fires c d t → d.action = 0x0011 → Completes (.turnSet) ⟨o, c, q⟩ (((c.fired d t).setTt fun x => { x with turnSet := some d.arg }).turnSetFired d.id)) ∧
    (∀ (d : Departure) (t : Nat), Fires c d t → d.action = 0x0020 → Completes (.amendCommit) ⟨o, c, q⟩ ((c.fired d t).commitAmend o d)) ∧
    (∀ (d : Departure) (t : Nat) (ch : TrnChan), Fires c d t → d.action = 0x0030 → switchOp d = 1 → (c.fired d t).trnChan (bitsOf d.arg 7 4) = some ch → (ch.member (c.fired d t).pkg = true ∨ (c.fired d t).pkg = ch.srcPkg) → bitsOf d.arg 31 8 = 0 → Completes (.weightSwitchStage) ⟨o, c, q⟩ ((c.fired d t).stageEdge (bitsOf d.arg 7 4) (d.arg / 2 ^ 32) d.scope)) ∧
    (∀ (d : Departure) (t : Nat) (ch : TrnChan), Fires c d t → d.action = 0x0030 → switchOp d = 2 → (c.fired d t).trnChan (bitsOf d.arg 7 4) = some ch → (ch.member (c.fired d t).pkg = true ∨ (c.fired d t).pkg = ch.srcPkg) → bitsOf d.arg 31 8 = 0 → Completes (.weightSwitchCommit) ⟨o, c, q⟩ ((c.fired d t).commitEdge (bitsOf d.arg 7 4) (d.arg / 2 ^ 32))) ∧
    (∀ (d : Departure) (t : Nat) (ch : TrnChan), Fires c d t → d.action = 0x0030 → switchOp d = 3 → (c.fired d t).trnChan (bitsOf d.arg 7 4) = some ch → (ch.member (c.fired d t).pkg = true ∨ (c.fired d t).pkg = ch.srcPkg) → bitsOf d.arg 31 8 = 0 → Completes (.weightSwitchAbort) ⟨o, c, q⟩ ((c.fired d t).abortEdge (bitsOf d.arg 7 4) (d.arg / 2 ^ 32))) ∧
    (∀ (d : Departure) (t : Nat) (e : Nat × ColDesc × Bool), Fires c d t → d.action = 0x0040 → ((c.fired d t).col.armed.find? (fun e => e.1 == d.id) = some e) → Completes (.collectiveLaunch) ⟨o, c, q⟩ ((c.fired d t).launch e.2.1 e.2.2)) ∧
    (∀ (d : Departure) (t : Nat) (k : Task), Fires c d t → d.action = 0x0050 → (c.atFiring d t).postFails d = false → (c.fired d t).checkPost d = .good k → Completes (.taskPost) ⟨o, c, q⟩ (((c.fired d t).touch (postOff d) 128).postTask ((c.fired d t).postScope d) k)) ∧
    (∀ (d : Departure) (t : Nat), Fires c d t → d.action = 0x0051 → d.arg < 2 ^ 14 → (c.fired d t).ringHold d.arg = true → Completes (.doorbell) ⟨o, c, q⟩ ((c.fired d t).releaseHeld d.arg (if ((c.fired d t).ringProd d.arg).testBit 2 then .host else .network))) ∧
    (∀ (d : Departure) (t : Nat) (isl : List Nat), Fires c d t → d.action = 0x0060 → d.arg = 1 → (c.fired d t).stateIslands o d.scope 1 = some isl → (c.fired d t).halted = false → Completes (.islandOpen) ⟨o, c, q⟩ (isl.foldl Chip.openIsland (if d.scope = 0 then (c.fired d t).wakeP2 4 else c.fired d t))) ∧
    (∀ (d : Departure) (t : Nat) (isl : List Nat), Fires c d t → d.action = 0x0060 → d.arg = 2 → (c.fired d t).stateIslands o d.scope 2 = some isl → (c.fired d t).halted = false → Completes (.islandClose) ⟨o, c, q⟩ (isl.foldl (fun c n => if isDieIsland n && c.sidingsHold (n - 12) then c.notice 487 n else c.closeIsland n) (c.fired d t))) ∧
    (∀ (d : Departure) (t : Nat), Fires c d t → d.action = 0x0060 → d.arg = 3 → d.scope = 0 → (c.fired d t).halted = false → Completes (.enterP2) ⟨o, c, q⟩ ((c.fired d t).enterPower 3)) ∧
    (∀ (d : Departure) (t : Nat), Fires c d t → d.action = 0x0060 → d.arg = 4 → d.scope = 0 → (c.fired d t).halted = false → Completes (.enterP3) ⟨o, c, q⟩ ((c.fired d t).enterPower 4)) ∧
    (∀ (d : Departure) (t : Nat), Fires c d t → d.action = 0x0070 → mhzOk o d.arg = true → Completes (.clockSet) ⟨o, c, q⟩ ((depIslands d).foldl (fun c i => c.setMhz i d.arg) (c.fired d t)))

/-- The events of memory and of the ring engine complete. (08_memory_tiers.md R218, R219, R220, R224, R227, R234; 09_rings.md R244, R259, R260, R261) -/
def Obligations.MemoryAndRingCommandsComplete : Prop :=
  ∀ (o : Otp) (c : Chip) (q : List Instr),
    (c.islOpen 10 = true → exec (.migrationEpoch) ⟨o, c, q⟩ = .next (⟨o, { c.passTo (c.mem.epochAt + c.epochTicks) with mem := (c.passTo (c.mem.epochAt + c.epochTicks)).epoch o.assy }, q⟩)) ∧
    (∀ (stalled : Nat) (v : Move) (l : List Move) (m : Mem), c.mem.moves = v :: l → c.islOpen 10 = true → m = c.mem.finishMove v (((c.objAt (v.wagon * wagonBytes)).map (·.inclusive)).getD false) → Completes (.wagonMoveSwitch stalled) ⟨o, c, q⟩ ({ c with mem := { m with migStall := satAdd 32 m.migStall stalled } })) ∧
    (∀ (stack : Fin 8), (c.reg rMEM_STAT).testBit (16 + stack.val) = true → Completes (.hbmStackFail stack) ⟨o, c, q⟩ (({ c with mem := { c.mem with stackFailed := true } } : Chip).raise
        { sev := 4, source := 0x09, cause := 0x11, scope := .package, unitId := 11, arg := stack.val })) ∧
    (∀ (value : Word) (addr : Nat), c.islOpen 10 = true → addr = c.reg rMEM_UCLR_LO + value.toNat * 2 ^ 32 → addrSpace addr = 0 → addrPkg addr = c.pkg → (c.objAt (addrOff addr)).isSome = true → Completes (.memUclrHiWrite value) ⟨o, c, q⟩ ({ c with mem := c.mem.clearPage (addrOff addr / 4096) })) ∧
    (∀ (value : Word) (addr : Nat), addr = c.reg rMEM_UCLR_LO + value.toNat * 2 ^ 32 → (addrSpace addr ≠ 0 ∨ addrPkg addr ≠ c.pkg ∨ c.objAt (addrOff addr) = none) → Completes (.memUclrHiWrite value) ⟨o, c, q⟩ (c)) ∧
    (∀ (ring : BitVec 14) (i : RItem), ((c.ring ring.toNat).items.find? (fun i => decide (i.st = .reserved)) = some i) → Completes (.reservationTimeout ring) ⟨o, c, q⟩ ((c.passTo (i.since + 64 * tUs)).voidItem ring.toNat i.seq)) ∧
    (∀ (ring : BitVec 14), (c.ring ring.toNat).st = .opened → Completes (.ringDrainFlush ring) ⟨o, c, q⟩ (c.setRing ring.toNat fun x => { x with st := .flushing, drainSince := some c.elapsed })) ∧
    (∀ (ring : BitVec 14) (t : Nat), (c.ring ring.toNat).drainSince = some t → (c.ring ring.toNat).hasOpen = false → Completes (.ringDrainEnd ring) ⟨o, c, q⟩ (c.cutRing ring.toNat)) ∧
    (∀ (ring : BitVec 14) (t : Nat), (c.ring ring.toNat).drainSince = some t → (c.ring ring.toNat).hasOpen = true → Completes (.ringDrainEnd ring) ⟨o, c, q⟩ ((c.passTo (t + 64 * tUs)).cutRing ring.toNat)) ∧
    (∀ (ring : BitVec 14), (c.ring ring.toNat).st ≠ .closed → Completes (.ringCutFlush ring) ⟨o, c, q⟩ (c.cutRing ring.toNat)) ∧
    (∀ (ring : BitVec 14), (c.ring ring.toNat).st = .closed → Completes (.ringCutFlush ring) ⟨o, c, q⟩ (c))

/-- The dispatcher's commands complete: selection, starts, light switches and weight streams. (10_dispatch_and_switching.md R269, R270, R271, R272, R273, R276, R278, R279, R282, R283, R284; 05_cells.md R152) -/
def Obligations.DispatcherCommandsComplete : Prop :=
  ∀ (o : Otp) (c : Chip) (q : List Instr),
    (∀ (c1 : Chip) (k : Cand) (pl : Place), c.islOpen 10 = true → (c1 = c.clearTaskHeads.candidates.foldl (fun c k => if c.wsetReady k.task then c else c.wantSet k.task) c.clearTaskHeads) → c1.bestCand = some (k, pl) → Completes (.taskSelect) ⟨o, c, q⟩ (c1.placeCand k pl)) ∧
    (∀ (cell : Fin 64) (since : Nat) (ps : PartState) (t : Task), (c.cell cell).starting = some since → (c.cell cell).ps = some ps → c.islOpen (cellIsland cell) = true → c.disp.task? ps.part.ring ps.part.seq = some t → Completes (.coldStartDone cell) ⟨o, c, q⟩ ((c.passTo (since + 5 * tUs)).setCell cell fun x => { x with
        ps := some ((c.passTo (since + 5 * tUs)).freshPart t ps.part.p cell), starting := none })) ∧
    (∀ (cell : Fin 64) (line : Nat) (w : Switch) (p : PartState), (c.cell cell).switch = some w → w.phase = 0 → c.quiet cell = true → w.incoming = none → (c.cell cell).ps = some p → p.poison = [] → Completes (.quiesceDone cell 0 line) ⟨o, c, q⟩ ((c.passTo (w.since + 2 * tUs)).setCell cell fun x => { x with
        switch := some { w with phase := 1, since := (c.passTo (w.since + 2 * tUs)).elapsed } })) ∧
    (∀ (cell : Fin 64) (w : Switch) (k : Nat × Nat × Nat) (c1 : Chip), (c.cell cell).switch = some w → w.phase = 0 → w.forClose = false → c.quiet cell = false → w.incoming = some k → c1 = (c.passTo (w.since + 80 * tUs)).unclaim w → Completes (.quiesceAbandon cell) ⟨o, c, q⟩ (((c1.setDisp fun d => { d with
        blocked := (d.blocked.filter fun (e : Nat × Nat × Nat) => !(e.1 == k.1 && e.2.1 == k.2.1)) ++ [(k.1, k.2.1, c1.elapsed + 100 * tUs)] }).setCell cell
        fun x => { x with st := .run, switch := none }).bump rDSP_ABANDON)) ∧
    (∀ (ring : BitVec 14) (seq : Nat) (e : Nat × Nat × Nat), (c.disp.blocked.find? (fun (e : Nat × Nat × Nat) => e.1 == ring.toNat && e.2.1 == seq) = some e) → Completes (.preemptRetryTimer ring seq) ⟨o, c, q⟩ ((c.passTo e.2.2).setDisp fun d => { d with blocked := d.blocked.erase e })) ∧
    (∀ (cell : Fin 64) (w : Switch) (k : Nat × Nat × Nat) (c1 : Chip), (c.cell cell).switch = some w → w.phase = 1 → w.incoming = some k → c1 = (c.passTo (w.since + 70 * tUs)).savePart cell w.forClose → Completes (.switchSaveDone cell) ⟨o, c, q⟩ (c1.setCell cell fun x => { x with switch := some { w with phase := 2, since := c1.elapsed } })) ∧
    (∀ (cell : Fin 64) (w : Switch), (c.cell cell).switch = some w → w.phase = 1 → w.incoming = none → Completes (.switchSaveDone cell) ⟨o, c, q⟩ (((c.passTo (w.since + 70 * tUs)).savePart cell w.forClose).setCell cell fun x => { x with st := .idle, switch := none })) ∧
    (∀ (cell : Fin 64) (w : Switch) (k : Nat × Nat × Nat) (t : Task) (c1 : Chip), (c.cell cell).switch = some w → w.phase = 2 → w.incoming = some k → w.resumed = false → w.light = true → c.disp.task? k.1 k.2.1 = some t → c1 = ((c.passTo (w.since + 78 * tUs)).bumpWrap rDSP_LIGHT).setReg rDSP_LASTSW (min (((c.passTo (w.since + 78 * tUs)).elapsed - w.began) / tUs) 0xFFFF) → Completes (.switchLoadDone cell) ⟨o, c, q⟩ (c1.setCell cell fun x => { x with st := .run, switch := none, ps := some (c1.freshPart t k.2.2 cell) })) ∧
    (∀ (cell : Fin 64) (w : Switch) (k : Nat × Nat × Nat) (ps : PartState), (c.cell cell).switch = some w → w.phase = 2 → w.incoming = some k → w.resumed = true → w.light = false → c.disp.savedPart? k = some ps → Completes (.switchLoadDone cell) ⟨o, c, q⟩ (((c.passTo (w.since + 78 * tUs)).setDisp fun d => d.dropSaved k).loadPart cell ps)) ∧
    (∀ (wset : Fin 16) (data : List Byte) (w : Wset) (dst : Nat) (c1 : Chip), c.disp.wsets[wset.val]? = some w → w.st = .streaming → addrSpace w.src = 0 → addrPkg w.src = c.pkg → c1 = c.passTo (w.since + streamTicks w.bytes) → dst = ((c.im.obj? w.dst).map (·.base)).getD 0 → c1.streamFails w dst = false → Completes (.wsetStreamDone wset data) ⟨o, c, q⟩ (({ c1 with mem := c1.mem.copyRange (addrOff w.src) dst w.bytes (c1.depotMode (addrOff w.src)) (c1.depotMode dst) } : Chip).setDisp fun d =>
        { d with wsets := d.wsets.modify wset fun w => { w with st := .resident } })) ∧
    (∀ (wset : Fin 16) (w : Wset) (dst : Nat), c.disp.wsets[wset.val]? = some w → w.st = .streaming → dst = ((c.im.obj? w.dst).map (·.base)).getD 0 → ((addrSpace w.src = 0 ∧ addrPkg w.src ≠ c.pkg) ∨ c.streamFails w dst = true) → Completes (.wsetStreamFail wset) ⟨o, c, q⟩ (c.wsetFail wset)) ∧
    (∀ (ps : PartState) (c1 : Chip), (c.disp.saved.find? (fun ps => ps.leftOpen.isSome && !c.islOpen (cellIsland ps.cell) && ((c.disp.task? ps.part.ring ps.part.seq).map (·.isStatic)).getD false) = some ps) → c1 = c.passTo ((c.island (cellIsland ps.cell)).leftOpen + 2 * c.turnPeriod) → Completes (.noCellTimeout) ⟨o, c, q⟩ ((c1.setDisp fun d => d.setSaved (ps.part.ring, ps.part.seq, ps.part.p) fun x => { x with leftOpen := none }).raise
        { sev := 1, source := 0x03, cause := 0x22, scope := .task ps.part.ring ps.part.seq, atCell := ps.cell }))

/-- The sequence engine's commands complete: control items, the end of a boundary's copies, and overdue boundary work. (11_sequences.md R292, R293, R297, R299, R303, R304; 09_rings.md R258) -/
def Obligations.SequenceCommandsComplete : Prop :=
  ∀ (o : Otp) (c : Chip) (q : List Instr),
    (∀ (ring : BitVec 14) (p : SeqPlan) (i : RItem) (b h : List Byte) (c1 : Chip), c.seqPlan = some p → ((p.models.any fun m => m.joinRing == ring.toNat) = true) → ((c.seq.queue.filter fun w => w.resumer.isNone).length < p.queueMax) → c.headCtl ring.toNat = some h → c.takeCtl ring.toNat = some (i, b, c1) → (ctlShape b && ctlOp b == 1) = true → fieldAt b 17 1 < p.models.length → (p.model (fieldAt b 17 1)).joinRing = ring.toNat → 1 ≤ fieldAt b 24 4 → fieldAt b 24 4 ≤ (p.model (fieldAt b 17 1)).maxTokens → (((c1.seq.live.any fun s => s.id == ctlSeqId b) || c1.seq.queue.any fun w => w.resumer.isNone && w.id == ctlSeqId b) = false) → Completes (.seqJoin ring) ⟨o, c, q⟩ ({ c1 with seq := { c1.seq with order := c1.seq.order + 1, queue := c1.seq.queue ++
        [⟨fieldAt b 18 1, none, c1.seq.order, false, ctlSeqId b, fieldAt b 17 1, fieldAt b 24 4, ring.toNat, i.seq, hdrReq b⟩] } })) ∧
    (∀ (p : SeqPlan) (i : RItem) (b h : List Byte) (c1 : Chip), c.seqPlan = some p → c.headCtl p.ctrl = some h → ctlOp h = 2 → c.takeCtl p.ctrl = some (i, b, c1) → ctlShape b = true → Completes (.seqCancel) ⟨o, c, q⟩ ((c1.cancelSeqs p (fieldAt b 20 4)).completeItem p.ctrl i.seq complDone 0)) ∧
    (∀ (p : SeqPlan) (i : RItem) (b h : List Byte) (c1 : Chip) (s : Seq) (c2 : Chip), c.seqPlan = some p → c.headCtl p.ctrl = some h → ctlOp h = 3 → c.takeCtl p.ctrl = some (i, b, c1) → ctlShape b = true → c1.pausedSeq (ctlSeqId b) = some s → s.st = .held → (c2 = c1.setSeq s.slot fun s => { s with wantResume := some (fieldAt b 18 1, c1.seq.order) }) → Completes (.seqResume) ⟨o, c, q⟩ (({ c2 with seq := { c2.seq with order := c2.seq.order + 1 } } : Chip).completeItem p.ctrl i.seq complDone 0)) ∧
    (∀ (p : SeqPlan) (i : RItem) (b h : List Byte) (c1 : Chip) (s : Seq), c.seqPlan = some p → c.headCtl p.ctrl = some h → ctlOp h = 3 → c.takeCtl p.ctrl = some (i, b, c1) → ctlShape b = true → c1.pausedSeq (ctlSeqId b) = some s → s.st ≠ .held → ((c1.seq.queue.any fun w => w.resumer == some s.slot) = false) → Completes (.seqResume) ⟨o, c, q⟩ ((((c1.setSeq s.slot fun s => { s with prio := fieldAt b 18 1 }).putRecOf p s.slot).queueResumer s.slot (fieldAt b 18 1) false).completeItem p.ctrl i.seq complDone 0)) ∧
    (∀ (p : SeqPlan) (i : RItem) (b h : List Byte) (c1 : Chip) (s : Seq), c.seqPlan = some p → c.headCtl p.ctrl = some h → ctlOp h = 4 → c.takeCtl p.ctrl = some (i, b, c1) → ctlShape b = true → c1.pausedSeq (ctlSeqId b) = some s → Completes (.seqTtl) ⟨o, c, q⟩ ((c1.setSeq s.slot fun s => { s with ttl := fieldAt b 24 4 }).completeItem p.ctrl i.seq complDone 0)) ∧
    (∀ (p : SeqPlan) (i : RItem) (b h : List Byte) (c1 : Chip), c.seqPlan = some p → c.headCtl p.ctrl = some h → ctlOp h = 4 → c.takeCtl p.ctrl = some (i, b, c1) → ctlShape b = true → c1.pausedSeq (ctlSeqId b) = none → Completes (.seqTtl) ⟨o, c, q⟩ ((c1.bump rSEQ_NOOP).completeItem p.ctrl i.seq complDone 0)) ∧
    (∀ (p : SeqPlan) (t : Nat), c.seqPlan = some p → c.seq.busy = some t → c.seq.posted = false → Completes (.parkCopyDone) ⟨o, c, q⟩ ((c.passTo (t + c.copyTicks)).postBatches p)) ∧
    (∀ (p : SeqPlan) (snap : SeqSnap) (rest : List SeqSnap) (c1 : Chip), c.seqPlan = some p → c.seq.busy = none → c.seq.overdue = snap :: rest → c1 = { c with seq := { c.seq with overdue := rest } } → Completes (.seqOverrunStart) ⟨o, c, q⟩ (((c1.bump rSEQ_OVERRUN).notice 304 snap.turn).seqWork p snap))

/-- The turntable's commands complete: release, READY and DONE reports and their timeouts, and the stream's start. (12_generate_and_learn.md R310, R316, R318, R319, R320) -/
def Obligations.TurntableCommandsComplete : Prop :=
  ∀ (o : Otp) (c : Chip) (q : List Instr),
    (∀ (ch : Fin 16) (t : TrnChan), c.trnChan ch.val = some t → (c.trnCh ch.val).st = .release → c.released ch.val (c.trnCh ch.val).target = true → (c.demoted t (c.trnCh ch.val).target).isEmpty = true → c.pkg ≠ t.srcPkg → Completes (.bankReleased ch) ⟨o, c, q⟩ (c.setTrn ch.val fun x => { x with st := .ready })) ∧
    (∀ (ch : Fin 16) (pkg : Nat) (t : TrnChan) (c1 : Chip), c.trnChan ch.val = some t → (c.trnCh ch.val).rootSt = .release → pkg ∉ (c.trnCh ch.val).ready → t.member pkg = true → (c1 = c.setTrn ch.val fun x => { x with ready := x.ready ++ [pkg] }) → Completes (.turntableReadyReport ch pkg) ⟨o, c, q⟩ (if (t.memberList c.im).all fun p => p ∈ (c1.trnCh ch.val).ready then c1.beginSetup ch.val else c1)) ∧
    (∀ (ch : Fin 16) (p : TrnPlan), c.im.trnPlan = some p → (c.trnCh ch.val).rootSt = .release → (c.trnCh ch.val).st ≠ .release → Completes (.turntableReadyTimeout ch) ⟨o, c, q⟩ ((c.passTo ((c.trnCh ch.val).stagedAt + p.readyMs * tMs)).beginSetup ch.val)) ∧
    (∀ (ch : Fin 16) (p : TrnPlan), c.im.trnPlan = some p → (c.trnCh ch.val).rootSt ≠ .release → (c.trnCh ch.val).st = .release → Completes (.turntableReadyTimeout ch) ⟨o, c, q⟩ ((c.passTo ((c.trnCh ch.val).stagedAt + p.readyMs * tMs)).setTrn ch.val fun x => { x with st := .idle, stage := 0, lastFail := 4 })) ∧
    (∀ (ch : Fin 16) (t : TrnChan) (c1 : Chip), c.trnChan ch.val = some t → (c.trnCh ch.val).rootSt = .ready → c1 = c.passTo ((c.trnCh ch.val).streamAt + 200 * tUs) → Completes (.turntableStreamStart ch) ⟨o, c, q⟩ ((c1.setTrn ch.val fun x => { x with rootSt := .streaming, streamAt := c1.elapsed }).streamUnits ch.val t (c.trnCh ch.val).rootStage (c.objBase t.srcObj) (t.bytes / wagonBytes) 0)) ∧
    (∀ (ch : Fin 16) (pkg : Nat) (c1 : Chip), (c.trnCh ch.val).rootSt = .streaming → pkg ∉ (c.trnCh ch.val).done → pkg ∈ (c.trnCh ch.val).ready → (c1 = c.setTrn ch.val fun x => { x with done := x.done ++ [pkg] }) → Completes (.turntableDoneReport ch pkg) ⟨o, c, q⟩ (if (c.trnCh ch.val).ready.all fun p => p ∈ (c1.trnCh ch.val).done then c1.armCommit ch.val else c1)) ∧
    (∀ (ch : Fin 16) (p : TrnPlan), c.im.trnPlan = some p → (c.trnCh ch.val).rootSt = .streaming → (c.trnCh ch.val).st = .idle → Completes (.turntableDoneTimeout ch) ⟨o, c, q⟩ ((c.passTo ((c.trnCh ch.val).streamAt + p.doneMs * tMs)).armCommit ch.val)) ∧
    (∀ (ch : Fin 16) (p : TrnPlan), c.im.trnPlan = some p → (c.trnCh ch.val).rootSt = .idle → (c.trnCh ch.val).st = .streaming → Completes (.turntableDoneTimeout ch) ⟨o, c, q⟩ (c.setTrn ch.val fun x => { x with st := .idle, stage := 0, lastFail := 5, other := 0 }))

/-- The collective engine's commands complete: express and bulk packets, timeouts, and the messages of two-phase arming. (14_collectives.md R374, R375, R378, R379, R381, R383, R385; 04_islands_and_timetable.md R129; 12_generate_and_learn.md R319, R320) -/
def Obligations.CollectiveCommandsComplete : Prop :=
  ∀ (o : Otp) (c : Chip) (q : List Instr),
    (∀ (tree : Fin 64) (inst : Nat) (i : ColInst), c.colInst? tree.val inst = some i → i.finished = false → i.desc.isSome = true → Completes (.collectiveTimeout tree inst) ⟨o, c, q⟩ ((c.passTo (i.since + if i.bulk then c.bulkTimeout else c.expTimeout)).colFail tree.val inst 2 c.pkg none)) ∧
    (∀ (tree : Fin 64) (inst : Nat) (i : ColInst), c.colInst? tree.val inst = some i → i.finished = false → i.desc = none → Completes (.collectiveTimeout tree inst) ⟨o, c, q⟩ ((c.passTo (i.since + if i.bulk then c.bulkTimeout else c.expTimeout)).dropInst tree.val inst)) ∧
    (∀ (link : Fin 24) (half : Fin 2) (p : Packet) (rest : List RecvFlit) (c1 : Chip), takePacket tPIP (c.half link.val half.val).recv = some (p, rest) → (fieldAt p.data 1 1 == pipArm || fieldAt p.data 1 1 == pipAck || fieldAt p.data 1 1 == pipCancel) = false → p.dst = c.pkg → c1 = c.keepBuffers link.val half.val rest → Completes (.expressPipReceive link half) ⟨o, c, q⟩ (c1.colArrive (pipFacts p.data) p.src ((fieldAt p.data 3 1).testBit 0)
        (if (fieldAt p.data 3 1).testBit 2 then some (fieldAt p.data 11 1, fieldAt p.data 12 2) else none)
        (if (fieldAt p.data 3 1).testBit 1 then 224 else 0) (p.data.drop 32))) ∧
    (∀ (link : Fin 24) (half : Fin 2) (p : Packet) (rest : List RecvFlit) (c1 : Chip), takePacket tSTREAM (c.half link.val half.val).recv = some (p, rest) → fieldAt p.data 1 1 ≠ opTurntable → p.dst = c.pkg → c1 = c.keepBuffers link.val half.val rest → Completes (.streamReceive link half) ⟨o, c, q⟩ (c1.colArrive (streamFacts p.data) p.src ((fieldAt p.data 3 1).testBit 0)
        (if (fieldAt p.data 3 1).testBit 2 then some (fieldAt p.data 17 1, fieldAt p.data 18 2) else none) (fieldAt p.data 8 8) (p.data.drop 32))) ∧
    (∀ (link : Fin 24) (half : Fin 2) (p : Packet) (rest : List RecvFlit) (c1 : Chip), takePacket tSTREAM (c.half link.val half.val).recv = some (p, rest) → fieldAt p.data 1 1 = opTurntable → p.dst = c.pkg → c1 = c.keepBuffers link.val half.val rest → Completes (.streamReceive link half) ⟨o, c, q⟩ (c1.turntableUnit p)) ∧
    (∀ (link : Fin 24) (half : Fin 2) (p : Packet) (rest : List RecvFlit) (c1 : Chip), takePacket tPIP (c.half link.val half.val).recv = some (p, rest) → fieldAt p.data 1 1 = pipArm → p.dst = c.pkg → c1 = c.keepBuffers link.val half.val rest → (fieldAt p.data 3 1).testBit 0 = false → Completes (.pipArm link half) ⟨o, c, q⟩ ((c1.holdRecord (parseArm p.data)).armOn (parseArm p.data))) ∧
    (∀ (link : Fin 24) (half : Fin 2) (p : Packet) (rest : List RecvFlit) (c1 : Chip) (a : ArmRec), takePacket tPIP (c.half link.val half.val).recv = some (p, rest) → fieldAt p.data 1 1 = pipArm → p.dst = c.pkg → c1 = c.keepBuffers link.val half.val rest → (fieldAt p.data 3 1).testBit 0 = true → a = parseArm p.data → Completes (.pipArm link half) ⟨o, c, q⟩ (((((c1.holdRecord a).setArm a.pkg a.dep fun a => { a with downSeen := true }).toChildren 0 a.span 0 (((c1.holdRecord a).setArm a.pkg a.dep fun a => { a with downSeen := true }).armPacket a pipArm true a.armBytes)).ackUp a.pkg a.dep))) ∧
    (∀ (link : Fin 24) (half : Fin 2) (p : Packet) (rest : List RecvFlit) (c1 : Chip) (a : ArmRec), takePacket tPIP (c.half link.val half.val).recv = some (p, rest) → fieldAt p.data 1 1 = pipAck → p.dst = c.pkg → c1 = c.keepBuffers link.val half.val rest → (fieldAt p.data 3 1).testBit 0 = false → a = ackRecord p.data → Completes (.pipArmAck link half) ⟨o, c, q⟩ ((c1.setArm a.pkg a.dep fun r => if r.acks.any fun x => x.1 == p.src then r else { r with acks := r.acks ++ [(p.src, fieldAt p.data 38 2, fieldAt p.data 40 2, fieldAt p.data 42 1)] }).ackUp a.pkg a.dep)) ∧
    (∀ (link : Fin 24) (half : Fin 2) (p : Packet) (rest : List RecvFlit) (c1 : Chip) (a r : ArmRec), takePacket tPIP (c.half link.val half.val).recv = some (p, rest) → fieldAt p.data 1 1 = pipAck → p.dst = c.pkg → a = ackRecord p.data → c1 = (c.keepBuffers link.val half.val rest).toChildren 0 a.span 0 ((c.keepBuffers link.val half.val rest).armPacket a pipAck true (a.ackBytes (fieldAt p.data 38 2) (fieldAt p.data 40 2) (fieldAt p.data 42 1))) → (fieldAt p.data 3 1).testBit 0 = true → c1.armRec? a.pkg a.dep = some r → Completes (.pipArmAck link half) ⟨o, c, q⟩ (c1.armTotals r (fieldAt p.data 38 2) (fieldAt p.data 40 2))) ∧
    (∀ (link : Fin 24) (half : Fin 2) (p : Packet) (rest : List RecvFlit) (c1 : Chip) (a r : ArmRec) (id : Nat), takePacket tPIP (c.half link.val half.val).recv = some (p, rest) → fieldAt p.data 1 1 = pipCancel → p.dst = c.pkg → a = ackRecord p.data → c1 = c.keepBuffers link.val half.val rest → (fieldAt p.data 3 1).testBit 0 = false → c1.armRec? a.pkg a.dep = some r → r.localDep = some id → Completes (.pipArmCancel link half) ⟨o, c, q⟩ (((c1.dropArm a.pkg a.dep).unarm id depCancelled id).sendCancel a)) ∧
    (∀ (a : ArmRec), (c.arms.find? (fun a => a.asker.isSome) = some a) → Completes (.twoPhaseArmTimeout) ⟨o, c, q⟩ ((c.passTo (a.askedAt + 10 * tUs)).cancelArm a))

/-- The fault service's commands complete: handlings, package stop, the LOST record, quarantine, discard and hardware failures. (21_faults.md R534, R537, R538, R541, R542, R544, R546, R550, R552, R554) -/
def Obligations.FaultCommandsComplete : Prop :=
  ∀ (o : Otp) (c : Chip) (q : List Instr),
    (∀ (h : Handling) (a : Aborted), c.flt.stack.getLast? = some h → h.waits = false → (∀ n, h.scope ≠ .island n) → a = (h.folded ++ [h.scope]).foldl abortScope (c, h.items, h.pages) → c.ohmaxRuns = true → c.flt.stop = false → Completes (.faultHandlingEnd) ⟨o, c, q⟩ (a.1.popHandling { h with items := a.2.1.eraseDups, pages := a.2.2.eraseDups } 0x10)) ∧
    (∀ (h : Handling) (n : Nat), c.flt.stack.getLast? = some h → h.waits = true → h.scope = .island n → c.islOpen n = true → (c.island n).prepare = false → c.ohmaxRuns = true → c.flt.stop = false → Completes (.faultHandlingEnd) ⟨o, c, q⟩ (c.popHandling h 0x10)) ∧
    (∀ (done : Nat), c.flt.passing = true → c.takenItems.length ≤ done → Completes (.packageStopPassEnd done) ⟨o, c, q⟩ (c.endStop done)) ∧
    (∀ (done : Nat), c.flt.passing = true → done < c.takenItems.length → Completes (.packageStopPassEnd done) ⟨o, c, q⟩ ((c.passTo (c.flt.stopAt + 5 * tMs)).endStop done)) ∧
    (c.flt.lostSince ≠ 0 → c.ledgerRing = true → 2 ≤ c.ringFree 2 → Completes (.lostRecord) ⟨o, c, q⟩ (((c.setFlt fun f => { f with lostSince := 0 }).ledger { kind := kLOST, source := 0x0D, arg := c.flt.lostSince } true).2)) ∧
    (∀ (cells : Dword) (isl : BitVec 14), Completes (.quarantineRelease cells isl) ⟨o, c, q⟩ (((c.setReg rFLT_QUAR_LO (c.reg rFLT_QUAR_LO &&& (cells.toNat % 2 ^ 32 ^^^ 0xFFFFFFFF))).setReg rFLT_QUAR_HI ((c.setReg rFLT_QUAR_LO (c.reg rFLT_QUAR_LO &&& (cells.toNat % 2 ^ 32 ^^^ 0xFFFFFFFF))).reg rFLT_QUAR_HI &&& (cells.toNat / 2 ^ 32 ^^^ 0xFFFFFFFF))).setReg rFLT_QUARISL (((c.setReg rFLT_QUAR_LO (c.reg rFLT_QUAR_LO &&& (cells.toNat % 2 ^ 32 ^^^ 0xFFFFFFFF))).setReg rFLT_QUAR_HI ((c.setReg rFLT_QUAR_LO (c.reg rFLT_QUAR_LO &&& (cells.toNat % 2 ^ 32 ^^^ 0xFFFFFFFF))).reg rFLT_QUAR_HI &&& (cells.toNat / 2 ^ 32 ^^^ 0xFFFFFFFF))).reg rFLT_QUARISL &&& (isl.toNat ^^^ 0xFFFFFFFF)))) ∧
    (∀ (rec : Word) (e : Nat × List Nat), (c.flt.ends.find? (fun (e : Nat × List Nat) => e.1 == rec.toNat) = some e) → Completes (.faultDiscard rec) ⟨o, c, q⟩ ({ (c.setReg rFLT_DISCARD rec.toNat) with mem := e.2.foldl Mem.clearPage c.mem })) ∧
    (∀ (engine : Fin 7), c.islOpen (engineIsland engine.val) = true → engine.val < 5 → Completes (.engineInternalError engine) ⟨o, c, q⟩ (c.raise { sev := 4, source := 0x08, cause := 0x13, scope := .package, unitId := engine.val })) ∧
    (∀ (engine : Fin 7), c.islOpen (engine.val + 7) = true → 5 ≤ engine.val → Completes (.engineInternalError engine) ⟨o, c, q⟩ (c.raise { sev := 3, source := 0x08, cause := 0x13, scope := .island (engine.val + 7), unitId := engine.val + 7 })) ∧
    ((c.island 1).st ≠ .closed → Completes (.signalBoxHardwareFailure true) ⟨o, c, q⟩ (c.takeLatch 0x35)) ∧
    ((c.island 1).st ≠ .closed → Completes (.signalBoxHardwareFailure false) ⟨o, c, q⟩ (c.draw.2.takeLatch (c.draw.1 % 65536)))

/-- Control accesses, heartbeats, the watchdog and the wear unit's samples complete. (00_scope.md R14; 17_signal_box.md R435, R436, R437, R440, R441, R446, R449, R450; 21_faults.md R546; 22_wear.md R556, R559) -/
def Obligations.ControlCommandsComplete : Prop :=
  ∀ (o : Otp) (c : Chip) (q : List Instr),
    (∀ (master : Fin 8) (addr value sets : Word) (valid : List SigCheck) (t : Nat), c.islOpen 1 = true → master.val ≠ 5 → c.decodeCause o { master := master, addr := addr.toNat, write := true, data := value.toNat, sets := sets.toNat } = 0 → c.target o addr.toNat = some t → 1 < t → t ≠ 8 → (targetIsland t addr.toNat != 0 && !c.islOpen (targetIsland t addr.toNat)) = false → Completes (.controlRegisterWrite master addr value sets valid) ⟨o, c, q⟩ (c.regWrite o master.val addr.toNat value.toNat sets.toNat valid)) ∧
    (∀ (master : Fin 8) (foreign : Bool) (addr size : Nat) (write fetch : Bool) (data : Dword) (x : Access), c.islOpen 1 = true → x = { master := master, foreign := foreign, addr := addr, size := size, write := write, fetch := fetch, data := data.toNat } → c.decodeCause o x ≠ 0 → Completes (.controlDecodeError master foreign addr size write fetch data) ⟨o, c, q⟩ (c.decodeError x (c.decodeCause o x))) ∧
    (∀ (master : Fin 8) (addr : Word) (write : Bool) (data : Word) (x : Access) (t : Nat), c.islOpen 1 = true → x = { master := master, addr := addr.toNat, write := write, data := data.toNat } → c.decodeCause o x = 0 → c.target o addr.toNat = some t → targetIsland t addr.toNat ≠ 0 → c.islOpen (targetIsland t addr.toNat) = false → Completes (.closedIslandAccess master addr write data) ⟨o, c, q⟩ ((c.bump rSB_CLOSEDACC).setCtl fun k => { k with answer := leBytes 4 0 })) ∧
    (∀ (master : Fin 8) (window : Fin 4) (off : BitVec 28) (size : Nat) (data : Dword) (far : Option (List Byte)) (x : Access), c.islOpen 1 = true → c.islOpen 10 = true → master.val ≠ 5 → x = { master := master, addr := 0x40000000 + window * 2 ^ 28 + off.toNat, size := size, write := true, data := data.toNat } → c.decodeCause o x = 0 → c.target o x.addr = some 8 → c.bridgePkg window.val = c.pkg → c.bridgeCause (c.bridgeBase window.val + off.toNat) size = none → Completes (.bridgeAccess master window off size true data far) ⟨o, c, q⟩ ((c.memWrite (c.bridgeBase window.val + off.toNat) (leBytes size data.toNat)).setCtl fun k => { k with answer := leBytes size 0 })) ∧
    (∀ (value : Word), c.islOpen 1 = true → value.toNat.testBit 0 = true → Completes (.sbRemapWrite value) ⟨o, c, q⟩ (c.setReg rSB_REMAP 1)) ∧
    (∀ (value : Word), c.islOpen 1 = true → Completes (.sbHbeatWrite value) ⟨o, c, q⟩ (c.setCtl fun k => { k with beats := k.beats.zipIdx.map fun (e : Nat × Nat) => if value.toNat.testBit e.2 then c.elapsed else e.1 })) ∧
    (∀ (core : Fin 4) (c1 : Chip), 18 ≤ c.boot.step → c.islOpen 1 = true → c.flt.latch = false → c1 = c.passTo (c.ctl.beats.getD core.val 0 + 100 * tMs) → Completes (.coreWatchdogExpiry core) ⟨o, c, q⟩ ((c1.setField rSB_CORESTAT 7 4 (c1.regField rSB_CORESTAT 7 4 ||| 2 ^ core.val)).takeLatch 0x34)) ∧
    (∀ (tjPlat tjPort tjHbm : List Int) (vdd : Nat) (power : Int) (c1 : Chip), c.boot.held = false → c.boot.step ≠ 0 → c1 = c.passTo (c.wear.fastAt + 10 * tMs) → Completes (.fastMonitorSample tjPlat tjPort tjHbm vdd power) ⟨o, c, q⟩ ((c1.setWear fun w => { w with fastAt := c1.elapsed }).fastSample tjPlat tjPort tjHbm o.stackMask vdd power)) ∧
    (∀ (obs : WearObs) (c1 : Chip), c.ohmaxRuns = true → c1 = c.passTo (c.wear.sampleAt + c.im.wearPeriod * tSec) → Completes (.slowMonitorSample obs) ⟨o, c, q⟩ ((c1.setWear fun w => { w with sampleAt := c1.elapsed }).slowSample o obs)) ∧
    (c.ohmaxRuns = true → Completes (.dailyPrediction) ⟨o, c, q⟩ ((c.passTo (c.wear.dayAt + dayTicks)).dailyStep))

/-- The commands of the power states complete: islands that close and open, entries, wakes, supplies, temperature and power. (19_power_states.md R488, R489, R491, R495, R497, R498, R500, R502, R504; 23_electrical.md R573, R574, R585, R586, R587, R588) -/
def Obligations.PowerCommandsComplete : Prop :=
  ∀ (o : Otp) (c : Chip) (q : List Instr),
    (∀ (isl : Fin 14), (c.island isl.val).st = .opened → (c.island isl.val).prepare = true → (isPlatIsland isl.val = true → c.prepared isl.val = true) → Completes (.islandPrepareDone isl) ⟨o, c, q⟩ (c.prepareEnd isl.val)) ∧
    (∀ (isl : Fin 14), (c.island isl.val).st = .closing → Completes (.islandClosed isl) ⟨o, c, q⟩ (c.closedEdge isl.val)) ∧
    (∀ (isl : Fin 14), (c.island isl.val).st = .closing → Completes (.islandClosingLimit isl) ⟨o, c, q⟩ ((c.passTo ((c.island isl.val).since + 20 * tUs)).gateFlush isl.val)) ∧
    (∀ (isl : Fin 14), 1 < isl.val → (c.island isl.val).st = .opening → Completes (.islandOpenEdge isl) ⟨o, c, q⟩ (c.openEdge o isl.val)) ∧
    (∀ (p k : Nat) (c1 : Chip), c.boot.opening = some p → c.boot.stopped = false → (∀ n ∈ platIslands, (c.island n).st ≠ .opening) → c1 = c.passTo c.boot.openAt → c1.nextPlatform o p = some k → Completes (.platformOpenInterval) ⟨o, c, q⟩ ((c1.beginOpen (platIsland k)).askPlatform (k + 1))) ∧
    (∀ (p : Nat) (c1 : Chip), c.boot.opening = some p → c.boot.stopped = false → (∀ n ∈ platIslands, (c.island n).st ≠ .opening) → c1 = c.passTo c.boot.openAt → c1.nextPlatform o p = none → Completes (.platformOpenInterval) ⟨o, c, q⟩ (({ c1 with boot := { c1.boot with opening := none } } : Chip).endStep14.endExit)) ∧
    (∀ (e : HeldPacket), c.net.held.find? (·.bounced) = some e → (∀ w ∈ c.ports.held.head?, e.since ≤ w.since) → Completes (.bounceExpiry) ⟨o, c, q⟩ ((c.passTo (e.since + c.regField rPWR_BOUNCE 15 0 * tMs)).dropHeld e)) ∧
    (c.entryReady = true → Completes (.p2EntryComplete) ⟨o, c, q⟩ (c.entryDone)) ∧
    (∀ (rails : Bool) (obs : BootObs), c.sleepy = true → (c.reg rPWR_WAKECFG).testBit 0 = true → c.tt.counter ≤ c.reg64 rPWR_ALARM_LO → Completes (.wakeAlarm rails obs) ⟨o, c, q⟩ ((c.reachTick (c.reg64 rPWR_ALARM_LO)).wake o 1 rails obs)) ∧
    (∀ (pin : Fin 48) (rising rails : Bool) (obs : BootObs) (w : Nat), c.sleepy = true → w = c.reg rPWR_WAKECFG → (c.pin pin.val).cfg.fn = fnGpioIn → 40 ≤ pin.val → w.testBit 1 = true → w.testBit (8 + (pin.val - 40)) = true → w.testBit 16 = !rising → Completes (.wakePin pin rising rails obs) ⟨o, c, q⟩ ((c.setPin pin.val fun p => { p with level := rising, input := rising }).wake o 2 rails obs)) ∧
    (c.pwr.st = .railWait → Completes (.wakeRailTimeout) ⟨o, c, q⟩ (((c.passTo (c.pwr.railAt + 100 * tMs)).setPwr fun p => { p with st := .standby, pendWake := none }).notice 500 0)) ∧
    (∀ (obs : BootObs), c.boot.held = true → exec (.railReturn obs) ⟨o, c, q⟩ = .next (State.startUp ⟨o, c, q⟩ obs)) ∧
    (∀ (obs : BootObs), c.boot.held = false → c.pwr.st = .railWait → Completes (.railReturn obs) ⟨o, c, q⟩ (c.startWake o (c.pwr.pendWake.getD 0) obs)) ∧
    (∀ (need : Nat) (t : Nat), t = c.regField rPWR_AVS 25 16 → avsNext t need ≠ t → Completes (.avsTargetUpdate need) ⟨o, c, q⟩ (((c.passTo (c.pwr.avsAt + 10 * tMs)).setField rPWR_AVS 25 16 (avsNext t need)).setPwr fun p =>
        { p with avsAt := (c.passTo (c.pwr.avsAt + 10 * tMs)).elapsed })) ∧
    (∀ (need : Nat), avsNext (c.regField rPWR_AVS 25 16) need = c.regField rPWR_AVS 25 16 → Completes (.avsTargetUpdate need) ⟨o, c, q⟩ (c.passTo (c.pwr.avsAt + 10 * tMs))) ∧
    (∀ (plat : Fin 8) (mhz sensed : Nat), Completes (.avsDroop plat mhz sensed) ⟨o, c, q⟩ (c.supplyStep plat.val (mhz / 25 * 25) sensed)) ∧
    (∀ (plat : Fin 8) (sensed : Nat), Completes (.vddCoreRecovery plat sensed) ⟨o, c, q⟩ (c.supplyStep plat.val 0xFFFF sensed)) ∧
    (∀ (rail : Nat), Completes (.brownOut rail) ⟨o, c, q⟩ (c.brownOut o rail)) ∧
    (Completes (.aoPowerOnReset) ⟨o, c, q⟩ (c.aoReset)) ∧
    (∀ (plat port hbm : List Int) (c1 : Chip), c1 = c.passTo (c.pwr.sampleAt + 100 * tUs) → Completes (.thermalSample plat port hbm) ⟨o, c, q⟩ ((c1.setPwr fun p => { p with sampleAt := c1.elapsed }).thermal plat port hbm)) ∧
    (Completes (.thermalTrip) ⟨o, c, q⟩ (c.raise { sev := 4, source := 0x0A, cause := 0x14, scope := .package })) ∧
    (∀ (watts ungated : Nat), Completes (.powerEstimate watts ungated) ⟨o, c, q⟩ ((c.pass tUs).estimate watts ungated)) ∧
    (Completes (.powerSustainedGate) ⟨o, c, q⟩ (c.gateSustained))

/-- The commands of the security root and of debug complete: programming that is asked for, challenges, requests, halts and their time limits. (20_security_and_debug.md R510, R511, R513, R518, R520, R522, R523, R524, R526, R529) -/
def Obligations.SecurityCommandsComplete : Prop :=
  ∀ (o : Otp) (c : Chip) (q : List Instr),
    (c.secPermits o rSEC_GO 1 = true → Completes (.keySlotProgram) ⟨o, c, q⟩ (c.askFuses (.keySlot (c.reg rSEC_KSPROG_SLOT % 16) c.stagedHash))) ∧
    (c.secPermits o rSEC_GO 1 = false → Completes (.keySlotProgram) ⟨o, c, q⟩ (c)) ∧
    (c.secPermits o rSEC_GO 2 = true → Completes (.kekProgram) ⟨o, c, q⟩ (c.askFuses (.kek (c.reg rSEC_KEKPROG_SLOT % 4) c.stagedKekId c.stagedWrap))) ∧
    (c.secPermits o rSEC_GO 2 = false → Completes (.kekProgram) ⟨o, c, q⟩ (c)) ∧
    (∀ (mask : BitVec 16), c.secPermits o rSEC_KSREVOKE mask.toNat = true → Completes (.keyRevoke mask) ⟨o, c, q⟩ ((c.setReg rSEC_KSREVOKE mask.toNat).askFuses (.revoke mask.toNat))) ∧
    (∀ (mask : BitVec 16), c.secPermits o rSEC_KSREVOKE mask.toNat = false → Completes (.keyRevoke mask) ⟨o, c, q⟩ (c)) ∧
    (c.islOpen 1 = true → Completes (.debugChallenge) ⟨o, c, q⟩ (c.drawNonce.2.setDbg fun d => { d with nonce := some c.drawNonce.1, nonceTill := c.drawNonce.2.elapsed + 60 * tSec })) ∧
    (∀ (value : Word) (ecdsa mldsa : List SigCheck), c.islOpen 1 = true → Completes (.debugRequest value ecdsa mldsa) ⟨o, c, q⟩ (c.dbgRequest o value.toNat (ecdsa ++ mldsa))) ∧
    (c.sec.dbg.level ≠ 0 → c.sec.dbg.free = false → c.flt.latch = false → Completes (.debugSessionExpiry) ⟨o, c, q⟩ ((c.passTo c.sec.dbg.endAt).dbgEnd)) ∧
    (∀ (n : List Byte), c.sec.dbg.nonce = some n → Completes (.debugNonceExpiry) ⟨o, c, q⟩ ((c.passTo c.sec.dbg.nonceTill).setDbg fun d => { d with nonce := none })) ∧
    (∀ (value : Word), c.debugPass true rDBG_HALT_LO value.toNat = true → Completes (.cellHalt false value) ⟨o, c, q⟩ (c.dbgHalt 0 value.toNat)) ∧
    (∀ (value : Word), c.debugPass true rDBG_HALT_HI value.toNat = true → Completes (.cellHalt true value) ⟨o, c, q⟩ (c.dbgHalt 32 value.toNat)) ∧
    (∀ (high : Bool) (value : Word), (c.debugPass true (if high then rDBG_HALT_HI else rDBG_HALT_LO) value.toNat = false) → Completes (.cellHalt high value) ⟨o, c, q⟩ (c)) ∧
    (∀ (value : Word), c.debugPass true rDBG_CORE value.toNat = true → Completes (.coreHalt value) ⟨o, c, q⟩ (c.dbgCore value.toNat)) ∧
    (∀ (value : Word), c.debugPass true rDBG_CORE value.toNat = false → Completes (.coreHalt value) ⟨o, c, q⟩ (c)) ∧
    (∀ (write : Bool) (value : Word), c.debugPass write rDBG_DATA value.toNat = true → Completes (.debugDataAccess write value) ⟨o, c, q⟩ ((c.dbgData write value.toNat).2.setCtl fun k => { k with answer := leBytes 4 (c.dbgData write value.toNat).1 })) ∧
    (∀ (write : Bool) (value : Word), c.debugPass write rDBG_DATA value.toNat = false → Completes (.debugDataAccess write value) ⟨o, c, q⟩ (c)) ∧
    (c.pwr.waitDebug = none → Completes (.debugReleaseTimeout) ⟨o, c, q⟩ (c)) ∧
    (∀ (t : Nat), c.pwr.waitDebug = some t → Completes (.debugReleaseTimeout) ⟨o, c, q⟩ (c.dbgAbandon))

/-- What the TAP does: BYPASS, IDCODE and SAMPLE/PRELOAD always, EXTEST, CLAMP and HIGHZ only where they are honoured, and DAPACC. (20_security_and_debug.md R521) -/
def Obligations.TapAnswers : Prop :=
  ∀ (o : Otp) (c : Chip) (q : List Instr),
    (Completes (.tapBypass) ⟨o, c, q⟩ ({ c with tap := { c.tap with ir := .bypass, driving := none, floating := false } })) ∧
    (Completes (.tapIdcode) ⟨o, c, q⟩ ({ c with tap := { c.tap with ir := .idcode, driving := none, floating := false, out := o.idcode } })) ∧
    (∀ (shift : List Bool), Completes (.tapSamplePreload shift) ⟨o, c, q⟩ ({ c with tap := { c.tap with ir := .samplePreload, driving := none, floating := false, boundary := shift } })) ∧
    (∀ (low : Bool), (low = true ∨ o.lc = 0 ∨ o.lc = 3 ∨ o.lc = 4) → Completes (.tapExtest low) ⟨o, c, q⟩ ({ c with tap := { c.tap with ir := .extest, driving := some c.tap.boundary, floating := false } })) ∧
    (o.lc ≠ 0 → o.lc ≠ 3 → o.lc ≠ 4 → Completes (.tapExtest false) ⟨o, c, q⟩ ({ c with tap := { c.tap with ir := .bypass, driving := none, floating := false } })) ∧
    (∀ (low : Bool), (low = true ∨ o.lc = 0 ∨ o.lc = 3 ∨ o.lc = 4) → Completes (.tapClamp low) ⟨o, c, q⟩ ({ c with tap := { c.tap with ir := .clamp, driving := some c.tap.boundary, floating := false } })) ∧
    (o.lc ≠ 0 → o.lc ≠ 3 → o.lc ≠ 4 → Completes (.tapClamp false) ⟨o, c, q⟩ ({ c with tap := { c.tap with ir := .bypass, driving := none, floating := false } })) ∧
    (∀ (low : Bool), (low = true ∨ o.lc = 0 ∨ o.lc = 3 ∨ o.lc = 4) → Completes (.tapHighz low) ⟨o, c, q⟩ ({ c with tap := { c.tap with ir := .highz, driving := none, floating := true } })) ∧
    (o.lc ≠ 0 → o.lc ≠ 3 → o.lc ≠ 4 → Completes (.tapHighz false) ⟨o, c, q⟩ ({ c with tap := { c.tap with ir := .bypass, driving := none, floating := false } })) ∧
    (Completes (.tapDapacc) ⟨o, c, q⟩ ({ c with tap := { c.tap with ir := .dapacc, driving := none, floating := false } }))

/-- The events of service pins complete: the steps of a points change, GPIO writes, shorts and retries, the turn strobe and the console. (18_service_pins_and_lamp_port.md R457, R460, R461, R463, R464, R466, R467; 16_amendments.md R425) -/
def Obligations.PinCommandsComplete : Prop :=
  ∀ (o : Otp) (c : Chip) (q : List Instr),
    (∀ (pin : Fin 48) (e : PinEntry), c.pinOff pin = false → (c.pin pin).change = some e → (c.pin pin).phase = 0 → isXspi (c.pin pin).cfg.fn = false → Completes (.pointsChange pin) ⟨o, c, q⟩ (c.setPin pin fun p => { p with enabled := false, attached := false, phase := 1, changeAt := c.elapsed, strobe := none })) ∧
    (∀ (pin : Fin 48) (e : PinEntry) (c1 : Chip), c.pinOff pin = false → (c.pin pin).change = some e → (c.pin pin).phase = 1 → c.proc? (0x400 + pin) = none → c1 = c.passTo ((c.pin pin).changeAt + 2 * tUs) → Completes (.pointsChangeQuiet pin) ⟨o, c, q⟩ (c1.setPin pin fun p => { p with cfg := e, phase := 2, changeAt := c1.elapsed })) ∧
    (∀ (pin : Fin 48) (p : AmdProc), c.pinOff pin = false → (c.pin pin).phase = 1 → c.proc? (0x400 + pin) = some p → Completes (.pointsChangeQuiet pin) ⟨o, c, q⟩ ((c.passTo ((c.pin pin).changeAt + 2 * tUs)).procDrained o (0x400 + pin))) ∧
    (∀ (pin : Fin 48) (level : Bool) (e : PinEntry) (c1 : Chip), c.pinOff pin = false → (c.pin pin).change = some e → (c.pin pin).phase = 2 → isXspi e.fn = false → c1 = c.passTo ((c.pin pin).changeAt + 2 * tUs) → Completes (.pointsChangeInputReady pin level) ⟨o, c, q⟩ ((c1.setPin pin fun p => { p with
        change := none, phase := 0, attached := decide (e.fn ≠ 0), enabled := fnDrives e.fn && !p.fault, level := level, input := level, strobed := none }).bumpWrap rPIN_CHANGES)) ∧
    (∀ (mask value : BitVec 48), Completes (.gpioOutWrite mask value) ⟨o, c, q⟩ ((c.setReg64 rPIN_GPIO_OUT_LO ((c.reg64 rPIN_GPIO_OUT_LO &&& (mask.toNat ^^^ (2 ^ 64 - 1))) ||| (value.toNat &&& mask.toNat))).setCtl fun k =>
        { k with gpioSet := k.gpioSet ||| (bit (mask.toNat % 2 ^ 32 != 0) + 2 * bit (mask.toNat / 2 ^ 32 != 0)) })) ∧
    (∀ (pin : Fin 48), c.pinDrives pin = true → (c.pin pin).fault = false → ((c.pin pin).cfg.openDrain = false ∨ c.pinValue pin = (c.pin pin).cfg.invert) → pin.val ≠ 40 → isXspi (c.pin pin).cfg.fn = false → Completes (.pinShortDetect pin) ⟨o, c, q⟩ (((c.setPin pin fun p => { p with enabled := false, fault := true, clean := 0, faultAt := c.elapsed, strobe := none }).bump rPIN_FAULTCNT).notice 466
        (pin + (c.pin pin).cfg.fn * 256))) ∧
    (∀ (pin : Fin 48) (clean : Bool) (c1 : Chip), (c.pin pin).fault = true → c.pinOff pin = false → c1 = c.passTo ((c.pin pin).faultAt + tSec) → Completes (.pinFaultRetry pin clean) ⟨o, c, q⟩ (if clean = false then c1.setPin pin fun p => { p with clean := 0, faultAt := c1.elapsed }
        else if (c.pin pin).clean = 0 then c1.setPin pin fun p => { p with clean := 1, faultAt := c1.elapsed }
        else c1.setPin pin fun p => { p with fault := false, clean := 0, enabled := p.attached && fnDrives p.cfg.fn })) ∧
    (∀ (pin : Fin 48) (t : Nat), c.pinOn pin fnStrobe = true → c.tt.running = true → (c.pin pin).strobed ≠ some c.tt.turnNum → t = c.tt.boundary + strobePhase (c.pin pin).cfg → t < c.tt.nextBoundary c.turnPeriod → Completes (.turnStrobeAssert pin) ⟨o, c, q⟩ ((c.reachTick t).setPin pin fun p => { p with strobe := some t, strobed := some c.tt.turnNum })) ∧
    (∀ (pin : Fin 48) (t : Nat), (c.pin pin).strobe = some t → Completes (.turnStrobeDeassert pin) ⟨o, c, q⟩ ((c.reachTick (min (t + strobeWidth (c.pin pin).cfg) (c.tt.nextBoundary c.turnPeriod - 1))).setPin pin fun p => { p with strobe := none })) ∧
    (∀ (line : List Byte), c.anyPin fnUartRx = true → c.anyPin fnUartTx = true → c.islOpen 1 = true → c.ctl.run % 2 = 1 → Completes (.consoleCommand line) ⟨o, c, q⟩ (c.setCtl fun k => { k with console := c.consoleReply o line }))

/-- The amendment handler's commands complete: a taken record, and the drain, half drain, time limits and application of a class-C procedure. (16_amendments.md R409, R412, R421, R422, R423, R425, R427; 10_dispatch_and_switching.md R308) -/
def Obligations.AmendmentCommandsComplete : Prop :=
  ∀ (o : Otp) (c : Chip) (q : List Instr),
    (∀ (ecdsa mldsa : List SigCheck) (i : RItem) (c1 : Chip), c.amd.unsent = [] → c.ohmaxRuns = true → c.islOpen 10 = true → c.flt.stop = false → (c.ring 1).st = .opened → 2 ≤ c.ringFree 1 → c.takeItem 0 .ohmax = some (i, c1) → Completes (.amendRecordTake ecdsa mldsa) ⟨o, c, q⟩ (c1.amJudge o (c1.ringWords 0 i.idx i.words) i (ecdsa ++ mldsa))) ∧
    (∀ (scope : BitVec 16) (p : AmdProc), c.proc? scope.toNat = some p → c.scopeQuiet scope.toNat = true → c.elapsed ≤ p.since + p.limit → c.islOpen (scopeIsland scope.toNat) = true → Completes (.classCDrained scope) ⟨o, c, q⟩ (c.applyProc o p)) ∧
    (∀ (scope : BitVec 16) (p : AmdProc), c.proc? scope.toNat = some p → scopeKind scope.toNat = 1 → p.half = false → c.scopeQuiet scope.toNat = false → Completes (.classCHalfDrainSave scope) ⟨o, c, q⟩ (((c.passTo (p.since + p.limit / 2)).setAmd fun a => { a with procs := a.procs.map fun x => if x.scope = scope.toNat then { x with half := true } else x }).saveForClose
        (scopeUnit scope.toNat))) ∧
    (∀ (scope : BitVec 16) (p : AmdProc), c.proc? scope.toNat = some p → c.scopeQuiet scope.toNat = false → Completes (.classCDrainTimeout scope) ⟨o, c, q⟩ ((c.passTo (p.since + p.limit)).giveUp p amDrainTimeout 0xFF)) ∧
    (∀ (scope : BitVec 16) (op : Nat) (p : AmdProc), c.proc? scope.toNat = some p → c.scopeQuiet scope.toNat = true → op < p.ops.length → Completes (.classCApplyTimeout scope op) ⟨o, c, q⟩ (c.procRollback o scope.toNat op)) ∧
    (∀ (obj : Word) (code : BitVec 8), c.procWrites o 0x500 [(rAMD_PLACE_OBJ, obj.toNat), (rAMD_PLACE_CODE, code.toNat)] = true → Completes (.placementChange obj code) ⟨o, c, q⟩ (c.procDrained o 0x500)) ∧
    (∀ (obj : Word) (code : BitVec 8), c.procWrites o 0x500 [(rAMD_PLACE_OBJ, obj.toNat), (rAMD_PLACE_CODE, code.toNat)] = false → Completes (.placementChange obj code) ⟨o, c, q⟩ (c)) ∧
    (∀ (plat : Fin 8) (role : Fin 3), c.procWrites o (0x100 + plat.val) [(rAMD_ROLE + 4 * plat.val, role.val)] = true → Completes (.platformRoleChange plat role) ⟨o, c, q⟩ (c.procDrained o (0x100 + plat.val))) ∧
    (∀ (plat : Fin 8) (role : Fin 3), c.procWrites o (0x100 + plat.val) [(rAMD_ROLE + 4 * plat.val, role.val)] = false → Completes (.platformRoleChange plat role) ⟨o, c, q⟩ (c))

/-- The lamp port's receiver and transmitter complete: pulses, frames, action points, dazzle and blanking, absence, replies. (18_service_pins_and_lamp_port.md R469, R470, R471, R472, R473, R474, R475) -/
def Obligations.LampReceiverCompletes : Prop :=
  ∀ (o : Otp) (c : Chip) (q : List Instr),
    (∀ (gap width : Nat) (c1 : Chip), c.pinOn 41 fnLampRx = true → c.lamp.rx ≠ .blanked → c.lamp.rx ≠ .tx → 125 ≤ width → width ≤ 400 → c1 = c.passTo (c.elapsed + gap * tNs + width * tNs) → c1.pinOn 41 fnLampRx = true → Completes (.lampRxPulse gap width) ⟨o, c, q⟩ (c1.setLamp fun l => l.pulse (c.elapsed + gap * tNs))) ∧
    (∀ (gap width : Nat) (c1 : Chip), c.lamp.rx ≠ .blanked → c.lamp.rx ≠ .tx → (width < 125 ∨ 400 < width) → c1 = c.passTo (c.elapsed + gap * tNs + width * tNs) → c1.pinOn 41 fnLampRx = true → Completes (.lampRxPulse gap width) ⟨o, c, q⟩ (c1.bump rLAMP_REJECT)) ∧
    (∀ (b : List Byte) (len : Nat) (c1 : Chip), c.lamp.rx = .frame → b = symbolBytes c.lamp.symbols → len = fieldAt b 3 1 → len ≤ 248 → 6 + len ≤ b.length → crc16 (b.take (4 + len)) = fieldAt b (4 + len) 2 → fieldAt b 0 1 = 0xC5 → c1 = c.passTo (c.lamp.grid + (16 * (6 + len) * lampChip : Nat)).toNat → Completes (.lampFrameEnd) ⟨o, c, q⟩ (c1.setLamp fun l => { l.clear .hunt with
        good := some { cmd := fieldAt b 1 1, tag := fieldAt b 2 1, payload := (b.drop 4).take len, lastChip := c1.elapsed } })) ∧
    (∀ (b : List Byte) (len code : Nat), c.lamp.rx = .frame → b = symbolBytes c.lamp.symbols → len = fieldAt b 3 1 → (code = (if 4 ≤ b.length ∧ 248 < len then abLength else if b.length < 4 ∨ b.length < 6 + len then abSymbol
        else if crc16 (b.take (4 + len)) ≠ fieldAt b (4 + len) 2 then abCrc else if fieldAt b 0 1 ≠ 0xC5 then abDir else 0)) → code ≠ 0 → Completes (.lampFrameEnd) ⟨o, c, q⟩ (c.lampAbort code)) ∧
    (∀ (g : LampCmd), c.lamp.good = some g → Completes (.lampActionPoint) ⟨o, c, q⟩ (c.lampAct o)) ∧
    (∀ (gap : Nat) (level : BitVec 8), c.lamp.rx ≠ .blanked → c.lamp.rx ≠ .tx → Completes (.lampDazzle gap level) ⟨o, c, q⟩ (((c.passTo (c.elapsed + gap * tNs)).lampLevel level.toNat).lampBlank)) ∧
    (∀ (gap : Nat) (level : BitVec 8), c.lamp.rx = .blanked → Completes (.lampBlankEnd gap level) ⟨o, c, q⟩ (((c.passTo (c.elapsed + gap * tNs)).lampLevel level.toNat).setLamp fun l => l.clear .hunt)) ∧
    (∀ (level : BitVec 8) (c1 : Chip), c1 = c.lampLevel level.toNat → c1.lamp.absent = false → level.toNat < c1.regField rLAMP_CFG 15 8 → Completes (.lampAbsent level) ⟨o, c, q⟩ ((c1.setLamp fun l => { l with absent := true }).notice 474 0)) ∧
    (∀ (r : LampReply) (rest : List LampReply) (c1 : Chip), c.lamp.replies = r :: rest → (c.lamp.rx = .hunt ∨ c.lamp.rx = .blanked) → c1 = c.passTo (max r.earliest r.ready) → c1.lampTxUp = true → Completes (.lampReplyStart) ⟨o, c, q⟩ ((c1.bumpField rLAMP_GOOD 15 0 1).setLamp fun l =>
        { l.clear .tx with replies := rest, sent := lampFrame r, txEnd := c1.elapsed + (16 + 16 * (lampFrame r).length) * lampChip, dazzled := l.rx == .blanked })) ∧
    (∀ (r : LampReply) (rest : List LampReply), c.lamp.replies = r :: rest → c.lamp.rx ≠ .tx → Completes (.lampReplyDrop) ⟨o, c, q⟩ (((c.passTo (max r.earliest r.ready + 5 * tMs)).bumpField rLAMP_ERR 7 0 1).setLamp fun l => { l with replies := rest })) ∧
    (c.lamp.rx = .tx → c.lamp.dazzled = false → Completes (.lampTxEnd) ⟨o, c, q⟩ ((c.passTo (c.lamp.txEnd + 20 * tUs)).setLamp fun l => l.clear .hunt)) ∧
    (c.lamp.rx = .tx → c.lamp.dazzled = true → Completes (.lampTxEnd) ⟨o, c, q⟩ ((c.passTo (c.lamp.txEnd + 20 * tUs)).lampBlank))

/-- The lamp port's commands complete: what I0 serves, what Ohmax serves, sessions, nonces and the reply of LAMP_RSEND. (18_service_pins_and_lamp_port.md R476, R478, R479, R480, R482, R483; 17_signal_box.md R442) -/
def Obligations.LampCommandsComplete : Prop :=
  ∀ (o : Otp) (c : Chip) (q : List Instr),
    (∀ (g : LampCmd), c.lamp.serving = some g → g.cmd = 0x01 → c.lamp.itemAt = none → Completes (.lampIdent) ⟨o, c, q⟩ ((c.lampReply g (c.identBytes o)).setLamp fun l => { l with serving := none })) ∧
    (∀ (g : LampCmd), c.lamp.serving = some g → g.cmd = 0x02 → c.lamp.itemAt = none → Completes (.lampStatus) ⟨o, c, q⟩ ((c.lampReply g (c.statusBytes o)).setLamp fun l => { l with serving := none })) ∧
    (∀ (g : LampCmd), c.lamp.serving = some g → g.cmd = 0x03 → c.lamp.itemAt = none → Completes (.lampLedgerRead) ⟨o, c, q⟩ ((c.lampReply g (c.ledgerBytes (fieldAt g.payload 0 1))).setLamp fun l => { l with serving := none })) ∧
    (∀ (g : LampCmd), c.lamp.serving = some g → g.cmd = 0x10 → c.lamp.itemAt = none → Completes (.lampChallenge) ⟨o, c, q⟩ (((c.drawNonce.2.setLamp fun l => { l with nonce := some c.drawNonce.1, nonceTill := c.elapsed + 60 * tSec }).lampReply g (okReply c.drawNonce.1)).setLamp
        fun l => { l with serving := none })) ∧
    (∀ (g : LampCmd) (i : RItem) (c1 : Chip) (r : List Byte × Chip), c.lamp.serving = some g → g.cmd = 0x11 → c.lamp.itemAt.isSome = true → c.lampOhmax = true → c.takeLamp 256 = some (i, c1) → r = Chip.lampTokenChunk g (c1.completeItem 5 i.seq 0 0) → Completes (.lampTokenChunk) ⟨o, c, q⟩ (r.2.setRegBytes rLAMP_RBUF (r.1 ++ List.replicate (248 - r.1.length) 0))) ∧
    (∀ (ecdsa mldsa : List SigCheck) (g : LampCmd) (i : RItem) (c1 : Chip) (r : List Byte × Chip), c.lamp.serving = some g → g.cmd = 0x12 → c.lamp.itemAt.isSome = true → c.lampOhmax = true → c.takeLamp 256 = some (i, c1) → r = Chip.lampUnlock o (ecdsa ++ mldsa) g (c1.completeItem 5 i.seq 0 0) → Completes (.lampUnlock ecdsa mldsa) ⟨o, c, q⟩ (r.2.setRegBytes rLAMP_RBUF (r.1 ++ List.replicate (248 - r.1.length) 0))) ∧
    (∀ (g : LampCmd) (i : RItem) (c1 : Chip), c.lamp.serving = some g → g.cmd = 0x13 → c.lamp.itemAt.isSome = true → c.lampOhmax = true → c.takeLamp 256 = some (i, c1) → Completes (.lampLock) ⟨o, c, q⟩ ((c1.completeItem 5 i.seq 0 0).lampEnd.setRegBytes rLAMP_RBUF (badReply lpOk ++ List.replicate (248 - (badReply lpOk).length) 0))) ∧
    (∀ (g : LampCmd) (i : RItem) (c1 : Chip) (r : List Byte × Chip), c.lamp.serving = some g → g.cmd = 0x20 → c.lamp.itemAt.isSome = true → c.lampOhmax = true → c.takeLamp 256 = some (i, c1) → r = Chip.lampAmdChunk g (c1.completeItem 5 i.seq 0 0) → Completes (.lampAmdChunk) ⟨o, c, q⟩ (r.2.setRegBytes rLAMP_RBUF (r.1 ++ List.replicate (248 - r.1.length) 0))) ∧
    (∀ (g : LampCmd) (i : RItem) (c1 : Chip) (r : List Byte × Chip), c.lamp.serving = some g → g.cmd = 0x21 → c.lamp.itemAt.isSome = true → c.lampOhmax = true → c.takeLamp 256 = some (i, c1) → r = Chip.lampAmdPost g (c1.completeItem 5 i.seq 0 0) → Completes (.lampAmdPost) ⟨o, c, q⟩ (r.2.setRegBytes rLAMP_RBUF (r.1 ++ List.replicate (248 - r.1.length) 0))) ∧
    (∀ (g : LampCmd) (t : Nat), c.lamp.serving = some g → c.lamp.itemAt = some t → Completes (.lampNoReply) ⟨o, c, q⟩ (((c.passTo (t + 100 * tMs)).lampStatus g lpNoReply).setLamp fun l => { l with serving := none, itemAt := none })) ∧
    (∀ (value : Word) (g : LampCmd), c.lamp.serving = some g → c.lamp.itemAt.isSome = true → g.tag = bitsOf value.toNat 15 8 → Completes (.lampRsendWrite value) ⟨o, c, q⟩ ((c.lampReply g ((c.regBytes rLAMP_RBUF 62).take (bitsOf value.toNat 7 0))).setLamp fun l => { l with serving := none, itemAt := none })) ∧
    (∀ (t : Nat), c.lamp.session = some t → Completes (.lampSessionExpiry) ⟨o, c, q⟩ ((c.passTo t).lampEnd)) ∧
    (∀ (n : List Byte), c.lamp.nonce = some n → Completes (.lampNonceExpiry) ⟨o, c, q⟩ ((c.passTo c.lamp.nonceTill).setLamp fun l => { l with nonce := none }))

/-- The I3C commands complete: addresses, events, the directed reads and the private transfers of the map. (22_wear.md R564, R565; 02_start_up.md R46; 19_power_states.md R502) -/
def Obligations.SidebandCommandsComplete : Prop :=
  ∀ (o : Otp) (c : Chip) (q : List Instr),
    (∀ (addr : BitVec 7), c.boot.held = false → 2 ≤ c.boot.step → c.i3c.dyn = none → Completes (.i3cEntdaa addr) ⟨o, c, q⟩ (c.setI3c fun x => { x with dyn := some addr.toNat, out := i3cPid ++ i3cBcr ++ i3cDcr })) ∧
    (∀ (addr : BitVec 7), c.boot.held = false → 2 ≤ c.boot.step → c.i3c.dyn = none → Completes (.i3cSetdasa addr) ⟨o, c, q⟩ (c.setI3c fun x => { x with dyn := some addr.toNat, out := [] })) ∧
    (c.boot.held = false → 2 ≤ c.boot.step → Completes (.i3cRstdaa) ⟨o, c, q⟩ (c.setI3c fun x => { x with dyn := none, ibi := 0, out := [] })) ∧
    (c.boot.held = false → 2 ≤ c.boot.step → Completes (.i3cEnec) ⟨o, c, q⟩ (c.setI3c fun x => { x with events := true, out := [] })) ∧
    (c.boot.held = false → 2 ≤ c.boot.step → Completes (.i3cDisec) ⟨o, c, q⟩ (c.setI3c fun x => { x with events := false, out := [] })) ∧
    (∀ (data : List Byte) (rails : Bool) (obs : BootObs), c.boot.held = false → 2 ≤ c.boot.step → 2 ≤ data.length → (hitsWake (fieldAt data 0 2) (data.drop 2) = false ∨ c.sleepy = false ∨ (c.reg rPWR_WAKECFG).testBit 2 = false) → Completes (.i3cPrivateWrite data rails obs) ⟨o, c, q⟩ (c.setI3c fun x => { x with addr := fieldAt data 0 2, out := [] })) ∧
    (∀ (data : List Byte) (rails : Bool) (obs : BootObs), c.boot.held = false → 2 ≤ c.boot.step → 2 ≤ data.length → hitsWake (fieldAt data 0 2) (data.drop 2) = true → c.sleepy = true → (c.reg rPWR_WAKECFG).testBit 2 = true → Completes (.i3cPrivateWrite data rails obs) ⟨o, c, q⟩ ((c.setI3c fun x => { x with addr := fieldAt data 0 2, out := [] }).wake o 3 rails obs)) ∧
    (∀ (count : Nat), c.boot.held = false → 2 ≤ c.boot.step → Completes (.i3cPrivateRead count) ⟨o, c, q⟩ (c.setI3c fun x => { x with out := c.i3cBytes o c.i3c.addr (min count 256), addr := (x.addr + min count 256) % 65536 })) ∧
    (c.boot.held = false → 2 ≤ c.boot.step → c.i3c.dyn.isSome = true → Completes (.i3cGetpid) ⟨o, c, q⟩ (c.setI3c fun x => { x with out := i3cPid })) ∧
    (c.boot.held = false → 2 ≤ c.boot.step → c.i3c.dyn.isSome = true → Completes (.i3cGetbcr) ⟨o, c, q⟩ (c.setI3c fun x => { x with out := i3cBcr })) ∧
    (c.boot.held = false → 2 ≤ c.boot.step → c.i3c.dyn.isSome = true → Completes (.i3cGetdcr) ⟨o, c, q⟩ (c.setI3c fun x => { x with out := i3cDcr })) ∧
    (c.boot.held = false → 2 ≤ c.boot.step → c.i3c.dyn.isSome = true → Completes (.i3cGetmwl) ⟨o, c, q⟩ (c.setI3c fun x => { x with out := beBytes 2 (Config.i3cFixed 3) })) ∧
    (c.boot.held = false → 2 ≤ c.boot.step → c.i3c.dyn.isSome = true → Completes (.i3cGetmrl) ⟨o, c, q⟩ (c.setI3c fun x => { x with out := beBytes 2 256 ++ beBytes 1 1 })) ∧
    (c.boot.held = false → 2 ≤ c.boot.step → c.i3c.dyn.isSome = true → Completes (.i3cGetstatus) ⟨o, c, q⟩ (c.draw.2.setI3c fun x => { x with out := beBytes 2 c.draw.1 }))

/-- The SPDM requests complete: version, capabilities, algorithms, digests, certificates, challenge and measurements. (15_host_and_memory_ports.md R396; 20_security_and_debug.md R516, R517, R525) -/
def Obligations.SpdmCommandsComplete : Prop :=
  ∀ (o : Otp) (c : Chip) (q : List Instr),
    (∀ (chan : Fin 4), ((if chan.val < 2 then c.fxLive chan.val else c.ethLive (chan.val - 2)) = true) → c.ohmaxRuns = true → c.pstate o < 2 → Completes (.spdmGetVersion chan) ⟨o, c, q⟩ (c.setPorts fun p => { p with spdmVersion := true, spdmCaps := false, spdmAlgs := false, spdm := .version })) ∧
    (∀ (chan : Fin 4), ((if chan.val < 2 then c.fxLive chan.val else c.ethLive (chan.val - 2)) = true) → c.ohmaxRuns = true → c.pstate o < 2 → c.ports.spdmVersion = true → Completes (.spdmGetCapabilities chan) ⟨o, c, q⟩ (c.setPorts fun p => { p with spdmCaps := true, spdm := .capabilities })) ∧
    (∀ (chan : Fin 4), ((if chan.val < 2 then c.fxLive chan.val else c.ethLive (chan.val - 2)) = true) → c.ohmaxRuns = true → c.pstate o < 2 → c.ports.spdmVersion = false → Completes (.spdmGetCapabilities chan) ⟨o, c, q⟩ (c.spdmSay (.error false))) ∧
    (∀ (chan : Fin 4), ((if chan.val < 2 then c.fxLive chan.val else c.ethLive (chan.val - 2)) = true) → c.ohmaxRuns = true → c.pstate o < 2 → c.ports.spdmCaps = true → Completes (.spdmNegotiateAlgorithms chan) ⟨o, c, q⟩ (c.setPorts fun p => { p with spdmAlgs := true, spdm := .algorithms })) ∧
    (∀ (chan : Fin 4), ((if chan.val < 2 then c.fxLive chan.val else c.ethLive (chan.val - 2)) = true) → c.ohmaxRuns = true → c.pstate o < 2 → c.ports.spdmCaps = false → Completes (.spdmNegotiateAlgorithms chan) ⟨o, c, q⟩ (c.spdmSay (.error false))) ∧
    (∀ (chan : Fin 4), ((if chan.val < 2 then c.fxLive chan.val else c.ethLive (chan.val - 2)) = true) → c.ohmaxRuns = true → c.pstate o < 2 → c.ports.spdmAlgs = true → Completes (.spdmGetDigests chan) ⟨o, c, q⟩ (c.spdmSay (if o.identity then .digests 1 [sha384 o.spdmChain] else .digests 0 []))) ∧
    (∀ (chan : Fin 4) (slot : Fin 8) (off len : Half), ((if chan.val < 2 then c.fxLive chan.val else c.ethLive (chan.val - 2)) = true) → c.ohmaxRuns = true → c.pstate o < 2 → c.ports.spdmAlgs = true → o.identity = true → slot.val = 0 → off.toNat < o.spdmChain.length → Completes (.spdmGetCertificate chan slot off len) ⟨o, c, q⟩ (c.spdmSay (.certificate ((o.spdmChain.drop off.toNat).take (min len.toNat 4088)) ((o.spdmChain.drop off.toNat).length - ((o.spdmChain.drop off.toNat).take (min len.toNat 4088)).length)))) ∧
    (∀ (chan : Fin 4) (slot : Fin 8) (off len : Half), ((if chan.val < 2 then c.fxLive chan.val else c.ethLive (chan.val - 2)) = true) → c.ohmaxRuns = true → c.pstate o < 2 → c.ports.spdmAlgs = true → (o.identity = false ∨ slot.val ≠ 0 ∨ o.spdmChain.length ≤ off.toNat) → Completes (.spdmGetCertificate chan slot off len) ⟨o, c, q⟩ (c.spdmSay (.error false))) ∧
    (∀ (chan : Fin 4) (slot : Fin 8), ((if chan.val < 2 then c.fxLive chan.val else c.ethLive (chan.val - 2)) = true) → c.ohmaxRuns = true → c.pstate o < 2 → c.ports.spdmAlgs = true → o.identity = true → slot.val = 0 → Completes (.spdmChallenge chan slot) ⟨o, c, q⟩ (((c.drawMany 2).2.drawMany 6).2.spdmSay (.challengeAuth 0 (sha384 o.spdmChain) (c.drawMany 2).1 ((c.drawMany 2).2.drawMany 6).1))) ∧
    (∀ (chan : Fin 4) (slot : Fin 8), ((if chan.val < 2 then c.fxLive chan.val else c.ethLive (chan.val - 2)) = true) → c.ohmaxRuns = true → c.pstate o < 2 → c.ports.spdmAlgs = true → o.identity = false → Completes (.spdmChallenge chan slot) ⟨o, c, q⟩ (c.spdmSay (.error true))) ∧
    (∀ (chan : Fin 4) (index : BitVec 8) (signed : Bool) (blocks : List MeasBlock) (g : Nat × Chip), ((if chan.val < 2 then c.fxLive chan.val else c.ethLive (chan.val - 2)) = true) → c.ohmaxRuns = true → c.pstate o < 2 → c.ports.spdmAlgs = true → (index.toNat ≤ 6 ∨ index.toNat = 0xFF) → (signed = false ∨ o.identity = true) → (blocks = (if index.toNat = 0 then [] else if index.toNat = 0xFF then [1, 2, 3, 4, 5, 6].map (Chip.measBlock o c) else [c.measBlock o index.toNat])) → (g = (if signed then (c.drawMany 2).2.drawMany 6 else (0, (c.drawMany 2).2))) → Completes (.spdmGetMeasurements chan index signed) ⟨o, c, q⟩ (g.2.spdmSay (.measurements 6 blocks (c.drawMany 2).1 (if signed then some g.1 else none)))) ∧
    (∀ (chan : Fin 4) (index : BitVec 8) (signed : Bool), ((if chan.val < 2 then c.fxLive chan.val else c.ethLive (chan.val - 2)) = true) → c.ohmaxRuns = true → c.pstate o < 2 → c.ports.spdmAlgs = true → 6 < index.toNat → index.toNat ≠ 0xFF → Completes (.spdmGetMeasurements chan index signed) ⟨o, c, q⟩ (c.spdmSay (.error false)))

/-- The flex ports' commands complete: links, configuration, BAR accesses, doorbells and the CXL host port. (02_start_up.md R63; 15_host_and_memory_ports.md R388, R389, R390, R391, R392, R394, R395, R397, R398; 08_memory_tiers.md R228; 09_rings.md R252, R253) -/
def Obligations.FlexPortCommandsComplete : Prop :=
  ∀ (o : Otp) (c : Chip) (q : List Instr),
    (∀ (fx : Fin 2) (c1 : Chip), (c1 = c.setFx fx.val fun x => { x with sent := [] }) → Completes (.fxPerstDeassert fx) ⟨o, c, q⟩ ((c1.setFx fx.val fun x => { x with perst := false }).fxTrain fx.val)) ∧
    (∀ (fx : Fin 2) (c1 : Chip), (c1 = c.setFx fx.val fun x => { x with sent := [] }) → c1.im.fxMode fx.val = 1 → c1.islOpen (portIsland fx.val) = true → Completes (.fxPerstAssert fx) ⟨o, c, q⟩ ((c1.setFx fx.val fun x => { x with perst := true }).fxDown fx.val 0 true)) ∧
    (∀ (fx : Fin 2) (c1 : Chip), (c1 = c.setFx fx.val fun x => { x with sent := [] }) → c1.im.fxMode fx.val ≠ 1 → Completes (.fxPerstAssert fx) ⟨o, c, q⟩ (c1.setFx fx.val fun x => { x with perst := true })) ∧
    (∀ (fx : Fin 2) (speed : Fin 6) (width : Fin 3) (c1 : Chip), (c1 = c.setFx fx.val fun x => { x with sent := [] }) → c1.im.fxMode fx.val = 1 → (c1.fx fx.val).link = 1 → portLanes width.val ≤ c1.im.fxWidth fx.val → Completes (.fxLinkL0 fx speed width) ⟨o, c, q⟩ (c1.setFx fx.val fun x => { x with link := 2, speed := speed.val + 1, width := portLanes width.val, ready := x.setUp, since := c1.elapsed })) ∧
    (∀ (fx : Fin 2) (c1 : Chip), (c1 = c.setFx fx.val fun x => { x with sent := [] }) → c1.im.fxMode fx.val = 1 → (c1.fx fx.val).link = 2 → c1.ohmaxRuns = true → Completes (.fxFunctionReady fx) ⟨o, c, q⟩ (c1.setFx fx.val fun x => { x with ready := true, setUp := true })) ∧
    (∀ (fx : Fin 2) (write : Bool) (off : BitVec 12) (value : Word) (kind : Fin 4) (c1 : Chip), (c1 = c.setFx fx.val fun x => { x with sent := [] }) → c1.im.fxMode fx.val = 1 → (c1.fx fx.val).link = 2 → (c1.fx fx.val).ready = false → Completes (.pcieConfigRequest fx write off value kind) ⟨o, c, q⟩ (c1.setFx fx.val fun x => x.answer 2 [] false)) ∧
    (∀ (fx : Fin 2) (off : BitVec 12) (value : Word) (kind : Fin 4) (c1 : Chip), (c1 = c.setFx fx.val fun x => { x with sent := [] }) → c1.im.fxMode fx.val = 1 → (c1.fx fx.val).link = 2 → (c1.fx fx.val).ready = true → Completes (.pcieConfigRequest fx true off value kind) ⟨o, c, q⟩ (c1.setFx fx.val fun x => (x.cfgWrite (off.toNat / 4 * 4) value kind.val).answer 0 [] false)) ∧
    (∀ (fx : Fin 2) (off : BitVec 12) (value : Word) (kind : Fin 4) (c1 : Chip), (c1 = c.setFx fx.val fun x => { x with sent := [] }) → c1.im.fxMode fx.val = 1 → (c1.fx fx.val).link = 2 → (c1.fx fx.val).ready = true → Completes (.pcieConfigRequest fx false off value kind) ⟨o, c, q⟩ ((c1.cfgRead o fx.val (off.toNat / 4 * 4)).2.setFx fx.val fun x => x.answer 0 (leBytes 4 (c1.cfgRead o fx.val (off.toNat / 4 * 4)).1) false)) ∧
    (∀ (fx : Fin 2) (off : BitVec 40) (data : List Byte) (c1 : Chip), (c1 = c.setFx fx.val fun x => { x with sent := [] }) → c1.fxLive fx.val = true → data.length ≤ (c1.fx fx.val).mps → c1.im.winLog2 fx.val ≠ 0 → off.toNat + data.length ≤ 2 ^ c1.im.winLog2 fx.val → (c1.fx fx.val).d3 = false → Completes (.bar2Write fx off false data) ⟨o, c, q⟩ (c1.portWrite fx.val (c1.im.winBase fx.val + off.toNat) data)) ∧
    (∀ (fx : Fin 2) (off : BitVec 40) (data : List Byte) (c1 : Chip), (c1 = c.setFx fx.val fun x => { x with sent := [] }) → c1.fxLive fx.val = true → data.length ≤ (c1.fx fx.val).mps → (c1.fx fx.val).d3 = false → Completes (.bar2Write fx off true data) ⟨o, c, q⟩ ((c1.fxUncorr fx.val).notice 394 fx.val)) ∧
    (∀ (fx : Fin 2) (off : BitVec 40) (poisoned : Bool) (data : List Byte) (c1 : Chip), (c1 = c.setFx fx.val fun x => { x with sent := [] }) → c1.fxLive fx.val = true → (c1.fx fx.val).mps < data.length → (c1.fx fx.val).d3 = false → Completes (.bar2Write fx off poisoned data) ⟨o, c, q⟩ (c1.fxUncorr fx.val)) ∧
    (∀ (fx : Fin 2) (off : BitVec 40) (len : Nat) (obs : Fin 4) (line : Nat) (c1 : Chip), (c1 = c.setFx fx.val fun x => { x with sent := [] }) → c1.fxLive fx.val = true → (c1.fx fx.val).d3 = false → Completes (.bar2Read fx true off len obs line) ⟨o, c, q⟩ (c1.setFx fx.val fun x => x.answer 0 (c1.bar0Read o fx.val (off.toNat % 2 ^ 24) (min len 4096)) false)) ∧
    (∀ (fx : Fin 2) (off : BitVec 40) (len : Nat) (obs : Fin 4) (line : Nat) (d : List Byte × Bool) (c2 : Chip) (c1 : Chip), (c1 = c.setFx fx.val fun x => { x with sent := [] }) → c1.fxLive fx.val = true → c1.im.winLog2 fx.val ≠ 0 → off.toNat + len ≤ 2 ^ c1.im.winLog2 fx.val → c1.memOpen = true → c1.portRead (c1.im.winBase fx.val + off.toNat) len obs.val line = (some (some d), c2) → (c1.fx fx.val).d3 = false → Completes (.bar2Read fx false off len obs line) ⟨o, c, q⟩ (c2.setFx fx.val fun x => x.answer 0 d.1 d.2)) ∧
    (∀ (fx : Fin 2) (off : BitVec 24) (data : List Byte) (c1 : Chip), (c1 = c.setFx fx.val fun x => { x with sent := [] }) → c1.fxLive fx.val = true → data.length ≤ (c1.fx fx.val).mps → 0x40000 ≤ off.toNat → off.toNat + data.length ≤ 0x40400 → (c1.fx fx.val).d3 = false → Completes (.statusWindowWrite fx off false data) ⟨o, c, q⟩ (c1.setFx fx.val fun x => (x.msixStore (off.toNat - 0x40000) data).firePending)) ∧
    (∀ (fx : Fin 2) (off : BitVec 24) (data : List Byte) (c1 : Chip), (c1 = c.setFx fx.val fun x => { x with sent := [] }) → c1.fxLive fx.val = true → data.length ≤ (c1.fx fx.val).mps → (off.toNat < 0x10000 ∨ 0x40400 < off.toNat + data.length) → (off.toNat < 0x10000 ∨ 0x40000 ≤ off.toNat) → (c1.fx fx.val).d3 = false → Completes (.statusWindowWrite fx off false data) ⟨o, c, q⟩ ((c1.fxUncorr fx.val).hostAmWrite off.toNat data.length)) ∧
    (∀ (fx : Fin 2) (off : BitVec 16) (data : List Byte) (c1 : Chip), (c1 = c.setFx fx.val fun x => { x with sent := [] }) → c1.fxLive fx.val = true → data.length ≤ (c1.fx fx.val).mps → off.toNat % 64 = 0 → (c1.fx fx.val).d3 = false → Completes (.itemDoorbell fx off false data) ⟨o, c, q⟩ (c1.portWrite fx.val (dbBase + 65536 * 1 + off.toNat) data)) ∧
    (∀ (fx : Fin 2) (off : BitVec 16) (data : List Byte) (c1 : Chip), (c1 = c.setFx fx.val fun x => { x with sent := [] }) → c1.fxLive fx.val = true → data.length ≤ (c1.fx fx.val).mps → off.toNat % 64 ≠ 0 → (c1.fx fx.val).d3 = false → Completes (.itemDoorbell fx off false data) ⟨o, c, q⟩ ((if fieldAt data 0 2 ≤ 0x3FFF then c1.refuseDb (fieldAt data 0 2) else c1).msix fx.val 1)) ∧
    (∀ (fx : Fin 2) (off : BitVec 16) (data : List Byte) (c1 : Chip), (c1 = c.setFx fx.val fun x => { x with sent := [] }) → c1.fxLive fx.val = true → data.length ≤ (c1.fx fx.val).mps → off.toNat % 64 = 0 → (c1.fx fx.val).d3 = false → Completes (.tailDoorbell fx off false data) ⟨o, c, q⟩ (c1.portWrite fx.val (dbBase + 65536 * 2 + off.toNat) data)) ∧
    (∀ (fx : Fin 2) (off : BitVec 16) (data : List Byte) (c1 : Chip), (c1 = c.setFx fx.val fun x => { x with sent := [] }) → c1.fxLive fx.val = true → data.length ≤ (c1.fx fx.val).mps → off.toNat % 64 ≠ 0 → (c1.fx fx.val).d3 = false → Completes (.tailDoorbell fx off false data) ⟨o, c, q⟩ ((if fieldAt data 0 2 ≤ 0x3FFF then c1.refuseDb (fieldAt data 0 2) else c1).msix fx.val 1)) ∧
    (∀ (fx : Fin 2) (off : BitVec 16) (data : List Byte) (c1 : Chip), (c1 = c.setFx fx.val fun x => { x with sent := [] }) → c1.fxLive fx.val = true → data.length ≤ (c1.fx fx.val).mps → off.toNat % 64 = 0 → (c1.fx fx.val).d3 = false → Completes (.consumeDoorbell fx off false data) ⟨o, c, q⟩ (c1.portWrite fx.val (dbBase + 65536 * 3 + off.toNat) data)) ∧
    (∀ (fx : Fin 2) (off : BitVec 16) (data : List Byte) (c1 : Chip), (c1 = c.setFx fx.val fun x => { x with sent := [] }) → c1.fxLive fx.val = true → data.length ≤ (c1.fx fx.val).mps → off.toNat % 64 ≠ 0 → (c1.fx fx.val).d3 = false → Completes (.consumeDoorbell fx off false data) ⟨o, c, q⟩ ((if fieldAt data 0 2 ≤ 0x3FFF then c1.refuseDb (fieldAt data 0 2) else c1).msix fx.val 1)) ∧
    (∀ (fx : Fin 2) (bytes : Nat) (speed : Fin 6) (width : Fin 2) (c2 c3 : Chip) (c1 : Chip), (c1 = c.setFx fx.val fun x => { x with sent := [] }) → c1.im.fxMode fx.val = 2 → (c1.fx fx.val).link = 1 → portLanes (width.val + 1) ≤ c1.im.fxWidth fx.val → c1.islOpen (portIsland fx.val) = true → c1.ohmaxRuns = true → (c2 = c1.setFx fx.val fun x => { x with link := 2, speed := speed.val + 1, width := portLanes (width.val + 1), since := c1.elapsed }) → c3 = { c2 with mem := { c2.mem with sdgFrames := sput 0 c2.mem.sdgFrames fx.val (min bytes (2 ^ 41) / 65536) } } → Completes (.cxlLinkUp fx bytes speed width) ⟨o, c, q⟩ (if c3.mem.backed || ([0, 1].any fun k => c3.im.fxMode k == 2 && (c3.fx k).link != 2) then c3 else c3.backLate)) ∧
    (∀ (fx : Fin 2) (c1 : Chip), (c1 = c.setFx fx.val fun x => { x with sent := [] }) → c1.im.fxMode fx.val = 2 → (c1.fx fx.val).link = 2 → Completes (.cxlCorrectableError fx) ⟨o, c, q⟩ (c1.fxCorr fx.val)) ∧
    (∀ (fx : Fin 2) (kind : Fin 4) (c1 : Chip), (c1 = c.setFx fx.val fun x => { x with sent := [] }) → c1.im.fxMode fx.val = 2 → (c1.fx fx.val).link = 2 → kind.val ≠ 0 → Completes (.cxlFatalError fx kind) ⟨o, c, q⟩ (c1.fxDown fx.val 3 false)) ∧
    (∀ (fx : Fin 2) (c1 : Chip), (c1 = c.setFx fx.val fun x => { x with sent := [] }) → c1.im.fxMode fx.val = 2 → (c1.fx fx.val).link = 2 → Completes (.cxlFatalError fx 0) ⟨o, c, q⟩ ((c1.fxUncorr fx.val).fxDown fx.val 3 false)) ∧
    (∀ (fx : Fin 2) (c1 : Chip), (c1 = c.setFx fx.val fun x => { x with sent := [] }) → c1.im.fxMode fx.val = 2 → (c1.fx fx.val).link = 2 → Completes (.cxlReadTimeout fx) ⟨o, c, q⟩ (c1.fxDown fx.val 3 false)) ∧
    (∀ (fx : Fin 2) (c1 : Chip), (c1 = c.setFx fx.val fun x => { x with sent := [] }) → c1.procSets (0x300 + fx.val) (rPORT_FX_CTL + 0x40 * fx.val) 1 1 = true → Completes (.fxRetrain fx) ⟨o, c, q⟩ (c1.procDrained o (0x300 + fx.val)))

/-- The Ethernet ports' commands complete: links, ingest, RDMA, rate control, egress, queue-pair errors and PTP. (15_host_and_memory_ports.md R399, R400, R401, R402, R403, R404) -/
def Obligations.NetworkCommandsComplete : Prop :=
  ∀ (o : Otp) (c : Chip) (q : List Instr),
    (∀ (eth : Fin 2) (c1 : Chip), (c1 = c.setEth eth.val fun x => { x with sent := [] }) → c1.im.ethEn eth.val = true → c1.islOpen (portIsland eth.val) = true → 15 ≤ c1.boot.step → Completes (.ethernetLinkChange eth true) ⟨o, c, q⟩ (c1.setEth eth.val fun x => { x with up := true })) ∧
    (∀ (eth : Fin 2) (c1 : Chip), (c1 = c.setEth eth.val fun x => { x with sent := [] }) → Completes (.ethernetLinkChange eth false) ⟨o, c, q⟩ (c1.ethDown eth.val)) ∧
    (∀ (eth : Fin 2) (qpn : BitVec 24) (e : List Byte) (imm : Option Word) (data : List Byte) (ecn : Bool) (c2 : Chip) (c1 : Chip), (c1 = c.setEth eth.val fun x => { x with sent := [] }) → c1.im.qpEntry eth.val qpn.toNat = some e → c1.ethLive eth.val = true → (c1.qp e).error = false → (c2 = (if ecn then c1.ethSend eth.val (.cnp qpn.toNat) else c1).setQp e fun x => { x with epsn := (x.epsn + max 1 (ceilDiv data.length (max 1 ((if ecn then c1.ethSend eth.val (.cnp qpn.toNat) else c1).im.ethPmtu eth.val)))) % 2 ^ 24 }) → Completes (.roceSendReceive eth qpn imm data ecn) ⟨o, c, q⟩ (c2.ingest eth.val (c1.qp e).epsn e (bit imm.isSome) ((imm.map (·.toNat)).getD 0) data fun c => (c, true))) ∧
    (∀ (eth : Fin 2) (qpn : BitVec 24) (e : List Byte) (imm : Word) (va : Dword) (rkey : Word) (data : List Byte) (ecn : Bool) (c2 : Chip) (c1 : Chip), (c1 = c.setEth eth.val fun x => { x with sent := [] }) → c1.im.qpEntry eth.val qpn.toNat = some e → c1.ethLive eth.val = true → (c1.qp e).error = false → (c2 = (if ecn then c1.ethSend eth.val (.cnp qpn.toNat) else c1).setQp e fun x => { x with epsn := (x.epsn + max 1 (ceilDiv data.length (max 1 ((if ecn then c1.ethSend eth.val (.cnp qpn.toNat) else c1).im.ethPmtu eth.val)))) % 2 ^ 24 }) → Completes (.roceWriteImmReceive eth qpn imm va rkey data ecn) ⟨o, c, q⟩ (c2.ingest eth.val (c1.qp e).epsn e 2 imm.toNat [] fun c => c.rdmaStore eth.val va.toNat rkey.toNat data)) ∧
    (∀ (eth : Fin 2) (qpn : BitVec 24) (e : List Byte) (va : Dword) (rkey : Word) (data : List Byte) (ecn : Bool) (c2 : Chip) (c1 : Chip), (c1 = c.setEth eth.val fun x => { x with sent := [] }) → c1.im.qpEntry eth.val qpn.toNat = some e → c1.ethLive eth.val = true → (c1.qp e).error = false → (c2 = (if ecn then c1.ethSend eth.val (.cnp qpn.toNat) else c1).setQp e fun x => { x with epsn := (x.epsn + max 1 (ceilDiv data.length (max 1 ((if ecn then c1.ethSend eth.val (.cnp qpn.toNat) else c1).im.ethPmtu eth.val)))) % 2 ^ 24 }) → c2.rdmaTarget eth.val va.toNat rkey.toNat data.length = none → Completes (.rdmaWriteReceive eth qpn va rkey data ecn) ⟨o, c, q⟩ (c2.ethSend eth.val (.access qpn.toNat))) ∧
    (∀ (eth : Fin 2) (qpn : BitVec 24) (e : List Byte) (va : Dword) (rkey : Word) (data : List Byte) (ecn : Bool) (c2 : Chip) (c1 : Chip), (c1 = c.setEth eth.val fun x => { x with sent := [] }) → c1.im.qpEntry eth.val qpn.toNat = some e → c1.ethLive eth.val = true → (c1.qp e).error = false → (c2 = (if ecn then c1.ethSend eth.val (.cnp qpn.toNat) else c1).setQp e fun x => { x with epsn := (x.epsn + max 1 (ceilDiv data.length (max 1 ((if ecn then c1.ethSend eth.val (.cnp qpn.toNat) else c1).im.ethPmtu eth.val)))) % 2 ^ 24 }) → c2.rdmaTarget eth.val va.toNat rkey.toNat data.length = some va.toNat → Completes (.rdmaWriteReceive eth qpn va rkey data ecn) ⟨o, c, q⟩ (c2.portWrite (2 + eth.val + 4 * qpn.toNat) va.toNat data)) ∧
    (∀ (eth : Fin 2) (qpn : BitVec 24) (e : List Byte) (va : Dword) (rkey : Word) (len : Nat) (obs : Fin 4) (line : Nat) (ecn : Bool) (c2 : Chip) (c1 : Chip), (c1 = c.setEth eth.val fun x => { x with sent := [] }) → c1.im.qpEntry eth.val qpn.toNat = some e → c1.ethLive eth.val = true → (c1.qp e).error = false → (c2 = (if ecn then c1.ethSend eth.val (.cnp qpn.toNat) else c1).setQp e fun x => { x with epsn := (x.epsn + max 1 (ceilDiv len (max 1 ((if ecn then c1.ethSend eth.val (.cnp qpn.toNat) else c1).im.ethPmtu eth.val)))) % 2 ^ 24 }) → rkey.toNat ≠ c2.im.ethKey eth.val → Completes (.rdmaReadRequest eth qpn va rkey len obs line ecn) ⟨o, c, q⟩ (c2.ethSend eth.val (.access qpn.toNat))) ∧
    (∀ (eth : Fin 2) (qpn : BitVec 24) (e : List Byte) (va : Dword) (rkey : Word) (len : Nat) (obs : Fin 4) (line : Nat) (ecn : Bool) (c2 : Chip) (c1 : Chip), (c1 = c.setEth eth.val fun x => { x with sent := [] }) → c1.im.qpEntry eth.val qpn.toNat = some e → c1.ethLive eth.val = true → (c1.qp e).error = false → (c2 = (if ecn then c1.ethSend eth.val (.cnp qpn.toNat) else c1).setQp e fun x => { x with epsn := (x.epsn + max 1 (ceilDiv len (max 1 ((if ecn then c1.ethSend eth.val (.cnp qpn.toNat) else c1).im.ethPmtu eth.val)))) % 2 ^ 24 }) → rkey.toNat = c2.im.ethKey eth.val → dbBase + 0x100000 ≤ va.toNat → va.toNat + len ≤ dbBase + 0x180000 → Completes (.rdmaReadRequest eth qpn va rkey len obs line ecn) ⟨o, c, q⟩ (c2.ethSend eth.val (.resp qpn.toNat (c2.ringTable o eth.val (va.toNat - (dbBase + 0x100000)) len)))) ∧
    (∀ (eth : Fin 2) (qpn : BitVec 24) (e : List Byte) (va : Dword) (rkey : Word) (len : Nat) (obs : Fin 4) (line : Nat) (ecn : Bool) (c2 : Chip) (d : List Byte × Bool) (c3 : Chip) (c1 : Chip), (c1 = c.setEth eth.val fun x => { x with sent := [] }) → c1.im.qpEntry eth.val qpn.toNat = some e → c1.ethLive eth.val = true → (c1.qp e).error = false → (c2 = (if ecn then c1.ethSend eth.val (.cnp qpn.toNat) else c1).setQp e fun x => { x with epsn := (x.epsn + max 1 (ceilDiv len (max 1 ((if ecn then c1.ethSend eth.val (.cnp qpn.toNat) else c1).im.ethPmtu eth.val)))) % 2 ^ 24 }) → rkey.toNat = c2.im.ethKey eth.val → va.toNat < 2 ^ 50 → c2.covered va.toNat len = true → c2.memOpen = true → c2.portRead va.toNat len obs.val line = (some (some d), c3) → Completes (.rdmaReadRequest eth qpn va rkey len obs line ecn) ⟨o, c, q⟩ (c3.ethSend eth.val (if d.2 then .access qpn.toNat else .resp qpn.toNat d.1))) ∧
    (∀ (eth : Fin 2) (qpn : BitVec 24) (e : List Byte) (c1 : Chip), (c1 = c.setEth eth.val fun x => { x with sent := [] }) → c1.im.qpEntry eth.val qpn.toNat = some e → c1.ethLive eth.val = true → Completes (.cnpReceive eth qpn) ⟨o, c, q⟩ ((if (c1.ports.qps.any fun x => x.port == eth.val && decide (x.rate < 2 ^ 20)) then c1 else c1.setEth eth.val fun x => { x with recovered := c1.elapsed }).setQp e fun x => { x with rate := x.rate / 2 })) ∧
    (∀ (eth : Fin 2) (c2 : Chip) (c1 : Chip), (c1 = c.setEth eth.val fun x => { x with sent := [] }) → ((c1.ports.qps.any fun x => x.port == eth.val && decide (x.rate < 2 ^ 20)) = true) → (c2 = (c1.passTo ((c1.eth eth.val).recovered + 55 * tUs)).setEth eth.val fun x => { x with recovered := (c1.passTo ((c1.eth eth.val).recovered + 55 * tUs)).elapsed }) → Completes (.cnpRateRecovery eth) ⟨o, c, q⟩ ((c2.im.qpEntries.filter fun e => qpPort e == eth.val).foldl (fun (c : Chip) e => if (c.qp e).rate = 2 ^ 20 then c else c.setQp e fun x => { x with rate := min (2 ^ 20) (x.rate + 2 ^ 16) }) c2)) ∧
    (∀ (eth : Fin 2) (qpn : BitVec 24) (e : List Byte) (i : RItem) (c2 : Chip) (c1 : Chip), (c1 = c.setEth eth.val fun x => { x with sent := [] }) → c1.im.qpEntry eth.val qpn.toNat = some e → c1.ethLive eth.val = true → (c1.qp e).error = false → (qpFlags e).testBit 1 = true → c1.memOpen = true → (c1.qp e).item = none → c1.takeItem (qpRing e) .network = some (i, c2) → Completes (.egressSend eth qpn) ⟨o, c, q⟩ ((c2.setQp e fun x => { x with item := some (i.seq, true) }).ethSend eth.val (.send qpn.toNat (c2.egressBytes (qpRing e) i.seq)))) ∧
    (∀ (eth : Fin 2) (qpn : BitVec 24) (e : List Byte) (seq : Nat) (c1 : Chip), (c1 = c.setEth eth.val fun x => { x with sent := [] }) → c1.im.qpEntry eth.val qpn.toNat = some e → c1.ethLive eth.val = true → (c1.qp e).error = false → (qpFlags e).testBit 1 = true → c1.memOpen = true → (c1.qp e).item = some (seq, false) → Completes (.egressSend eth qpn) ⟨o, c, q⟩ ((c1.setQp e fun x => { x with item := some (seq, true) }).ethSend eth.val (.send qpn.toNat (c1.egressBytes (qpRing e) seq)))) ∧
    (∀ (eth : Fin 2) (qpn : BitVec 24) (e : List Byte) (seq : Nat) (c1 : Chip), (c1 = c.setEth eth.val fun x => { x with sent := [] }) → c1.im.qpEntry eth.val qpn.toNat = some e → c1.ethLive eth.val = true → (c1.qp e).error = false → c1.memOpen = true → (c1.qp e).item = some (seq, true) → Completes (.egressAck eth qpn) ⟨o, c, q⟩ ((c1.setQp e fun x => { x with item := none, spsn := (x.spsn + max 1 (ceilDiv (c1.egressBytes (qpRing e) seq).length (max 1 (c1.im.ethPmtu eth.val)))) % 2 ^ 24 }).completeItem (qpRing e) seq 0 0)) ∧
    (∀ (eth : Fin 2) (qpn : BitVec 24) (e : List Byte) (c1 : Chip), (c1 = c.setEth eth.val fun x => { x with sent := [] }) → c1.im.qpEntry eth.val qpn.toNat = some e → Completes (.qpReset eth qpn) ⟨o, c, q⟩ (c1.setQp e fun x => { freshQp e with item := x.stall.item })) ∧
    (∀ (eth : Fin 2) (qpn : BitVec 24) (e : List Byte) (c1 : Chip), (c1 = c.setEth eth.val fun x => { x with sent := [] }) → c1.im.qpEntry eth.val qpn.toNat = some e → c1.im.ethEn eth.val = true → (c1.qp e).error = false → Completes (.queuePairError eth qpn) ⟨o, c, q⟩ ((c1.setQp e fun x => { x.stall with error := true }).bump (rPORT_ETH_QPERR + 0x40 * eth.val))) ∧
    (∀ (eth : Fin 2) (c1 : Chip), (c1 = c.setEth eth.val fun x => { x with sent := [] }) → c1.ethLive eth.val = true → Completes (.ptpEventMessage eth) ⟨o, c, q⟩ (c1.draw.2.setEth eth.val fun x => { x with ptpSeen := true, stamp := c.tt.counter + c1.draw.1 % 257 - 128 })) ∧
    (∀ (tai : Dword) (c1 : Chip), c.ohmaxRuns = true → ((c.eth 0).ptpSeen = true ∨ (c.eth 1).ptpSeen = true) → c1 = c.passTo (c.ports.wallAt + 125 * tMs) → Completes (.portWallPublish tai) ⟨o, c, q⟩ (c1.setPorts fun p => { p with wallAt := c1.elapsed, wall := (c1.now, tai.toNat), eth := p.eth.map fun x => if x.ptpSeen then { x with ptpLocked := true } else x }))

/-- The link commands complete: training, retries, lane exclusion, width changes, replay timeout, amendments, refresh and eyes. (13_bilsal_links.md R337, R341, R342, R343, R344, R357, R363, R365; 18_amendments.md R424) -/
def Obligations.LinkCommandsComplete : Prop :=
  ∀ (o : Otp) (c : Chip) (q : List Instr),
    (∀ (link : Fin 24) (half : Fin 2), c.mayTrain link.val half.val = true → ((c.half link.val half.val).st = .disabled ∨ ((c.half link.val half.val).st = .down ∧ (c.half link.val half.val).lastFail = 0)) → Completes (.linkTrainStart link half) ⟨o, c, q⟩ ((c.startTraining link.val half.val).originate [(link.val, half.val)])) ∧
    (∀ (link : Fin 24) (half : Fin 2) (seen : TrainObs), (c.half link.val half.val).st = .training → c.islOpen (linkIsland link.val) = true → Completes (.linkTrainPhaseEnd link half seen) ⟨o, c, q⟩ (c.phaseEnd link.val half.val seen)) ∧
    (∀ (link : Fin 24) (half : Fin 2), c.mayTrain link.val half.val = true → (c.half link.val half.val).st = .down → (c.half link.val half.val).lastFail ≠ 0 → Completes (.linkTrainRetry link half) ⟨o, c, q⟩ (((c.passTo ((c.half link.val half.val).since + 10 * tMs)).startTraining link.val half.val).originate [(link.val, half.val)])) ∧
    (∀ (link : Fin 24) (lane : Fin 4) (h : Nat) (c1 : Chip) (mask : Nat), ([0, 1].find? (fun h => ((c.half link.val h).st == .up || (c.half link.val h).st == .widthchg) && ((c.link link.val).rx.getD lane.val {}).status == 0 && (c.half link.val h).rxPhys.testBit lane.val) = some h) → (c1 = c.setLink link.val fun y => { y with rx := y.rx.set lane.val { (c.link link.val).rx.getD lane.val {} with status := 6 } }) → mask = ((c1.half link.val h).mask.getD (c1.half link.val h).rxMask) &&& (15 - 2 ^ ((c.link link.val).rx.getD lane.val {}).logical) → mask = 0 → Completes (.laneExclude link lane) ⟨o, c, q⟩ (c1.retrain link.val h 8)) ∧
    (∀ (link : Fin 24) (lane : Fin 4) (h : Nat) (c1 : Chip) (mask : Nat) (c2 : Chip), ([0, 1].find? (fun h => ((c.half link.val h).st == .up || (c.half link.val h).st == .widthchg) && ((c.link link.val).rx.getD lane.val {}).status == 0 && (c.half link.val h).rxPhys.testBit lane.val) = some h) → (c1 = c.setLink link.val fun y => { y with rx := y.rx.set lane.val { (c.link link.val).rx.getD lane.val {} with status := 6 } }) → mask = ((c1.half link.val h).mask.getD (c1.half link.val h).rxMask) &&& (15 - 2 ^ ((c.link link.val).rx.getD lane.val {}).logical) → mask ≠ 0 → c2 = c1.bumpField (rLNK_TRAINS + link.val * 0x800) 15 0 1 → Completes (.laneExclude link lane) ⟨o, c, q⟩ ((c2.setHalf link.val h fun x => { x.frame 4 0 0 0 (leBytes 1 mask ++ leBytes 1 0 ++ leBytes 2 (x.rxSeq + 65535)) with
        st := .widthchg, mask := some mask, rxPhys := x.rxPhys &&& (15 - 2 ^ lane.val), since := c2.elapsed }).originate [(link.val, h)])) ∧
    (∀ (link : Fin 24) (half : Fin 2), (c.half link.val half.val).st = .widthchg → Completes (.widthChangeLocked link half) ⟨o, c, q⟩ (((c.setHalf link.val half.val fun x => { x with st := .up, rxMask := x.mask.getD x.rxMask, mask := none }).originate [(link.val, half.val)]).pump link.val half.val)) ∧
    (∀ (link : Fin 24) (half : Fin 2) (lost : Bool), (c.half link.val half.val).st = .widthchg → Completes (.widthChangeTimeout link ⟨half, lost⟩) ⟨o, c, q⟩ ((c.passTo ((c.half link.val half.val).since + 50 * tUs)).retrain link.val half.val (if lost then 10 else 9))) ∧
    (∀ (link : Fin 24) (half : Fin 2) (f : SentFlit) (r : List SentFlit), (c.half link.val half.val).sent = f :: r → (c.half link.val half.val).st = .up → Completes (.replayTimeout link half) ⟨o, c, q⟩ ((c.passTo ((c.half link.val half.val).ackAt + 4 * tUs)).replayFrom link.val half.val f.seq)) ∧
    (∀ (link : Fin 24), c.procSets (0x200 + link.val) (rLNK_CTL + link.val * 0x800) 2 2 = true → Completes (.linkRetrain link) ⟨o, c, q⟩ (c.procDrained o (0x200 + link.val))) ∧
    (∀ (link : Fin 24) (en : Bool), c.procSets (0x200 + link.val) (rLNK_CTL + link.val * 0x800) 1 (bit en) = true → Completes (.linkEnableChange link en) ⟨o, c, q⟩ (c.procDrained o (0x200 + link.val))) ∧
    (∀ (link : Fin 24) (value : Word), c.procSets (0x200 + link.val) (rLNK_LANEMAP + link.val * 0x800) 0xFF (value.toNat % 256) = true → Completes (.laneMapChange link value) ⟨o, c, q⟩ (c.procDrained o (0x200 + link.val))) ∧
    (∀ (c1 : Chip), c1 = c.passTo (c.net.lsaAt + 10 * tMs) → Completes (.lsaRefresh) ⟨o, c, q⟩ (({ c1 with net := { c1.net with lsaAt := c1.elapsed } } : Chip).originate ({ c1 with net := { c1.net with lsaAt := c1.elapsed } } : Chip).plannedHalves)) ∧
    (∀ (link : Fin 24) (eyes : Word), c.islOpen (linkIsland link.val) = true → ((c.half link.val 0).st = .up ∨ (c.half link.val 1).st = .up) → Completes (.eyeRemeasure link eyes) ⟨o, c, q⟩ (c.setReg (rLNK_EYE + link.val * 0x800) eyes.toNat))

/-- DATA, IDLE, NAK and LINKCTL flits complete: what a whole flit does, and what happens to one that is not. (13_bilsal_links.md R335, R343, R345, R346, R347, R349) -/
def Obligations.FlitCommandsComplete : Prop :=
  ∀ (o : Otp) (c : Chip) (q : List Instr),
    (∀ (link : Fin 24) (half : Fin 2) (flit : List Byte) (errs : Nat), c.listening link.val half.val = false → Completes (.dataFlitReceive link half flit errs) ⟨o, c, q⟩ (c)) ∧
    (∀ (link : Fin 24) (half : Fin 2) (flit : List Byte) (errs : Nat), c.listening link.val half.val = true → fecCorrects errs = false → Completes (.dataFlitReceive link half flit errs) ⟨o, c, q⟩ ((c.bump (rLNK_FECUNC + link.val * 0x800)).sendNak link.val half.val)) ∧
    (∀ (link : Fin 24) (half : Fin 2) (flit : List Byte) (errs : Nat), c.listening link.val half.val = true → fecCorrects errs = true → flitGood flit = false → Completes (.dataFlitReceive link half flit errs) ⟨o, c, q⟩ ((if errs = 0 then c else c.bump (rLNK_FECCORR + link.val * 0x800)).crcFailed link.val half.val)) ∧
    (∀ (link : Fin 24) (half : Fin 2) (flit : List Byte) (errs : Nat) (c1 : Chip), c.listening link.val half.val = true → fecCorrects errs = true → flitGood flit = true → flitShape flit = true → fieldAt flit 0 1 = 1 → (c1 = (if errs = 0 then c else c.bump (rLNK_FECCORR + link.val * 0x800)).flitHeader link.val half.val flit) → fieldAt flit 2 2 ≠ (c1.half link.val half.val).rxSeq → Completes (.dataFlitReceive link half flit errs) ⟨o, c, q⟩ (c1.sendNak link.val half.val)) ∧
    (∀ (link : Fin 24) (half : Fin 2) (flit : List Byte) (errs : Nat) (c1 : Chip), c.listening link.val half.val = true → fecCorrects errs = true → flitGood flit = true → flitShape flit = true → fieldAt flit 0 1 = 1 → (c1 = (if errs = 0 then c else c.bump (rLNK_FECCORR + link.val * 0x800)).flitHeader link.val half.val flit) → fieldAt flit 2 2 = (c1.half link.val half.val).rxSeq → Completes (.dataFlitReceive link half flit errs) ⟨o, c, q⟩ (((c1.badPackets (parseBody ((flit.drop 24).take 608) (fieldAt flit 6 1)).2).setHalf link.val half.val fun x =>
        let y := { x with rxSeq := (x.rxSeq + 1) % 65536, naked := false, ackOwed := true }
        let code := if (fieldAt flit 1 1).testBit 6 then 0x3F else fieldAt flit 1 1 % 8 * 8 + bitsOf (fieldAt flit 1 1) 5 3
        if (parseBody ((flit.drop 24).take 608) (fieldAt flit 6 1)).1.isEmpty then y.free code
        else { y with recv := y.recv ++ [{ code := code, pkts := (parseBody ((flit.drop 24).take 608) (fieldAt flit 6 1)).1 }] }).pump link.val half.val)) ∧
    (∀ (link : Fin 24) (half : Fin 2) (flit : List Byte) (errs : Nat), c.listening link.val half.val = false → Completes (.idleFlitReceive link half ⟨flit, errs⟩) ⟨o, c, q⟩ (c)) ∧
    (∀ (link : Fin 24) (half : Fin 2) (flit : List Byte) (errs : Nat), c.listening link.val half.val = true → fecCorrects errs = false → Completes (.idleFlitReceive link half ⟨flit, errs⟩) ⟨o, c, q⟩ ((c.bump (rLNK_FECUNC + link.val * 0x800)).sendNak link.val half.val)) ∧
    (∀ (link : Fin 24) (half : Fin 2) (flit : List Byte) (errs : Nat), c.listening link.val half.val = true → fecCorrects errs = true → flitGood flit = false → Completes (.idleFlitReceive link half ⟨flit, errs⟩) ⟨o, c, q⟩ ((if errs = 0 then c else c.bump (rLNK_FECCORR + link.val * 0x800)).crcFailed link.val half.val)) ∧
    (∀ (link : Fin 24) (half : Fin 2) (flit : List Byte) (errs : Nat) (c1 : Chip), c.listening link.val half.val = true → fecCorrects errs = true → flitGood flit = true → flitShape flit = true → fieldAt flit 0 1 = 0 → (c1 = (if errs = 0 then c else c.bump (rLNK_FECCORR + link.val * 0x800)).flitHeader link.val half.val flit) → Completes (.idleFlitReceive link half ⟨flit, errs⟩) ⟨o, c, q⟩ (c1)) ∧
    (∀ (link : Fin 24) (half : Fin 2) (flit : List Byte) (errs : Nat), c.listening link.val half.val = false → Completes (.nakReceive link half ⟨flit, errs⟩) ⟨o, c, q⟩ (c)) ∧
    (∀ (link : Fin 24) (half : Fin 2) (flit : List Byte) (errs : Nat), c.listening link.val half.val = true → fecCorrects errs = false → Completes (.nakReceive link half ⟨flit, errs⟩) ⟨o, c, q⟩ ((c.bump (rLNK_FECUNC + link.val * 0x800)).sendNak link.val half.val)) ∧
    (∀ (link : Fin 24) (half : Fin 2) (flit : List Byte) (errs : Nat), c.listening link.val half.val = true → fecCorrects errs = true → flitGood flit = false → Completes (.nakReceive link half ⟨flit, errs⟩) ⟨o, c, q⟩ ((if errs = 0 then c else c.bump (rLNK_FECCORR + link.val * 0x800)).crcFailed link.val half.val)) ∧
    (∀ (link : Fin 24) (half : Fin 2) (flit : List Byte) (errs : Nat) (c1 : Chip), c.listening link.val half.val = true → fecCorrects errs = true → flitGood flit = true → flitShape flit = true → fieldAt flit 0 1 = 3 → (c1 = (if errs = 0 then c else c.bump (rLNK_FECCORR + link.val * 0x800)).flitHeader link.val half.val flit) → Completes (.nakReceive link half ⟨flit, errs⟩) ⟨o, c, q⟩ ((c1.setHalf link.val half.val fun x => x.gotAck ((fieldAt flit 24 2 + 65535) % 65536) c1.elapsed).replayFrom link.val half.val (fieldAt flit 24 2))) ∧
    (∀ (link : Fin 24) (half : Fin 2) (flit : List Byte) (errs : Nat), c.listening link.val half.val = false → Completes (.linkctlReceive link half ⟨flit, errs⟩) ⟨o, c, q⟩ (c)) ∧
    (∀ (link : Fin 24) (half : Fin 2) (flit : List Byte) (errs : Nat), c.listening link.val half.val = true → fecCorrects errs = false → Completes (.linkctlReceive link half ⟨flit, errs⟩) ⟨o, c, q⟩ ((c.bump (rLNK_FECUNC + link.val * 0x800)).sendNak link.val half.val)) ∧
    (∀ (link : Fin 24) (half : Fin 2) (flit : List Byte) (errs : Nat), c.listening link.val half.val = true → fecCorrects errs = true → flitGood flit = false → Completes (.linkctlReceive link half ⟨flit, errs⟩) ⟨o, c, q⟩ ((if errs = 0 then c else c.bump (rLNK_FECCORR + link.val * 0x800)).crcFailed link.val half.val)) ∧
    (∀ (link : Fin 24) (half : Fin 2) (flit : List Byte) (errs : Nat) (c0 c1 : Chip), c.listening link.val half.val = true → fecCorrects errs = true → flitGood flit = true → flitShape flit = true → fieldAt flit 0 1 = 4 → (c0 = if errs = 0 then c else c.bump (rLNK_FECCORR + link.val * 0x800)) → c1 = c0.flitHeader link.val half.val flit → (c0.half link.val half.val).txMask &&& fieldAt flit 24 1 = 0 → Completes (.linkctlReceive link half ⟨flit, errs⟩) ⟨o, c, q⟩ (c1.retrain link.val half.val 8)) ∧
    (∀ (link : Fin 24) (half : Fin 2) (flit : List Byte) (errs : Nat) (c0 c1 c2 : Chip), c.listening link.val half.val = true → fecCorrects errs = true → flitGood flit = true → flitShape flit = true → fieldAt flit 0 1 = 4 → (c0 = if errs = 0 then c else c.bump (rLNK_FECCORR + link.val * 0x800)) → c1 = c0.flitHeader link.val half.val flit → (c0.half link.val half.val).txMask &&& fieldAt flit 24 1 ≠ 0 → c2 = c1.bumpField (rLNK_TRAINS + link.val * 0x800) 15 0 1 → Completes (.linkctlReceive link half ⟨flit, errs⟩) ⟨o, c, q⟩ ((c2.setHalf link.val half.val fun x =>
        ({ x with st := .widthchg, mask := none, since := c2.elapsed, txMask := (c0.half link.val half.val).txMask &&& fieldAt flit 24 1, sent := ackDrop x.sent (fieldAt flit 26 2), ackAt := c2.elapsed } : LinkHalf).resend ((fieldAt flit 26 2 + 1) % 65536)).originate [(link.val, half.val)]))

/-- The packets of a link complete: each is taken from its buffer and has its effect at this package, or goes on toward its destination. (13_bilsal_links.md R349, R352, R357; 06_cell_operations.md R182; 09_rings.md R242, R267; 19_power.md R492) -/
def Obligations.PacketCommandsComplete : Prop :=
  ∀ (o : Otp) (c : Chip) (q : List Instr),
    (∀ (link : Fin 24) (half : Fin 2) (obs : Fin 4) (line : Nat) (p : Packet) (rest : List RecvFlit) (c1 : Chip), c.islOpen (linkIsland link.val) = true → takePacket tREAD (c.half link.val half.val).recv = some (p, rest) → c1 = c.keepBuffers link.val half.val rest → p.dst = c.pkg → Completes (.readReceive link half obs line) ⟨o, c, q⟩ (c1.serveRead p obs.val line)) ∧
    (∀ (link : Fin 24) (half : Fin 2) (obs : Fin 4) (line : Nat) (p : Packet) (rest : List RecvFlit) (c1 : Chip), c.islOpen (linkIsland link.val) = true → takePacket tREAD (c.half link.val half.val).recv = some (p, rest) → c1 = c.keepBuffers link.val half.val rest → p.dst ≠ c.pkg → Completes (.readReceive link half obs line) ⟨o, c, q⟩ (c1.transit p)) ∧
    (∀ (link : Fin 24) (half : Fin 2) (p : Packet) (rest : List RecvFlit) (c1 : Chip), c.islOpen (linkIsland link.val) = true → takePacket tREADDATA (c.half link.val half.val).recv = some (p, rest) → c1 = c.keepBuffers link.val half.val rest → p.dst = c.pkg → Completes (.readDataReceive link half) ⟨o, c, q⟩ (c1.gotReadData p)) ∧
    (∀ (link : Fin 24) (half : Fin 2) (p : Packet) (rest : List RecvFlit) (c1 : Chip), c.islOpen (linkIsland link.val) = true → takePacket tREADDATA (c.half link.val half.val).recv = some (p, rest) → c1 = c.keepBuffers link.val half.val rest → p.dst ≠ c.pkg → Completes (.readDataReceive link half) ⟨o, c, q⟩ (c1.transit p)) ∧
    (∀ (link : Fin 24) (half : Fin 2) (p : Packet) (rest : List RecvFlit) (c1 : Chip), c.islOpen (linkIsland link.val) = true → takePacket tWRITE (c.half link.val half.val).recv = some (p, rest) → c1 = c.keepBuffers link.val half.val rest → p.dst = c.pkg → Completes (.writeReceive link half) ⟨o, c, q⟩ (c1.serveWrite p)) ∧
    (∀ (link : Fin 24) (half : Fin 2) (p : Packet) (rest : List RecvFlit) (c1 : Chip), c.islOpen (linkIsland link.val) = true → takePacket tWRITE (c.half link.val half.val).recv = some (p, rest) → c1 = c.keepBuffers link.val half.val rest → p.dst ≠ c.pkg → Completes (.writeReceive link half) ⟨o, c, q⟩ (c1.transit p)) ∧
    (∀ (link : Fin 24) (half : Fin 2) (p : Packet) (rest : List RecvFlit) (c1 : Chip), c.islOpen (linkIsland link.val) = true → takePacket tWRITEACK (c.half link.val half.val).recv = some (p, rest) → c1 = c.keepBuffers link.val half.val rest → p.dst = c.pkg → Completes (.writeAckReceive link half) ⟨o, c, q⟩ (c1.gotWriteAck p)) ∧
    (∀ (link : Fin 24) (half : Fin 2) (p : Packet) (rest : List RecvFlit) (c1 : Chip), c.islOpen (linkIsland link.val) = true → takePacket tWRITEACK (c.half link.val half.val).recv = some (p, rest) → c1 = c.keepBuffers link.val half.val rest → p.dst ≠ c.pkg → Completes (.writeAckReceive link half) ⟨o, c, q⟩ (c1.transit p)) ∧
    (∀ (link : Fin 24) (half : Fin 2) (obs : Fin 4) (p : Packet) (rest : List RecvFlit) (c1 : Chip), c.islOpen (linkIsland link.val) = true → takePacket tATOMIC (c.half link.val half.val).recv = some (p, rest) → c1 = c.keepBuffers link.val half.val rest → p.dst = c.pkg → Completes (.atomicReceive link half obs) ⟨o, c, q⟩ (c1.serveAtomic p obs.val)) ∧
    (∀ (link : Fin 24) (half : Fin 2) (obs : Fin 4) (p : Packet) (rest : List RecvFlit) (c1 : Chip), c.islOpen (linkIsland link.val) = true → takePacket tATOMIC (c.half link.val half.val).recv = some (p, rest) → c1 = c.keepBuffers link.val half.val rest → p.dst ≠ c.pkg → Completes (.atomicReceive link half obs) ⟨o, c, q⟩ (c1.transit p)) ∧
    (∀ (link : Fin 24) (half : Fin 2) (p : Packet) (rest : List RecvFlit) (c1 : Chip), c.islOpen (linkIsland link.val) = true → takePacket tATOMICRESP (c.half link.val half.val).recv = some (p, rest) → c1 = c.keepBuffers link.val half.val rest → p.dst = c.pkg → Completes (.atomicRespReceive link half) ⟨o, c, q⟩ (c1.gotAtomicResp p)) ∧
    (∀ (link : Fin 24) (half : Fin 2) (p : Packet) (rest : List RecvFlit) (c1 : Chip), c.islOpen (linkIsland link.val) = true → takePacket tATOMICRESP (c.half link.val half.val).recv = some (p, rest) → c1 = c.keepBuffers link.val half.val rest → p.dst ≠ c.pkg → Completes (.atomicRespReceive link half) ⟨o, c, q⟩ (c1.transit p)) ∧
    (∀ (link : Fin 24) (half : Fin 2) (p : Packet) (rest : List RecvFlit) (c1 : Chip), c.islOpen (linkIsland link.val) = true → takePacket tRINGOP (c.half link.val half.val).recv = some (p, rest) → c1 = c.keepBuffers link.val half.val rest → p.dst = c.pkg → Completes (.ringOpReceive link half) ⟨o, c, q⟩ (c1.serveRing p)) ∧
    (∀ (link : Fin 24) (half : Fin 2) (p : Packet) (rest : List RecvFlit) (c1 : Chip), c.islOpen (linkIsland link.val) = true → takePacket tRINGOP (c.half link.val half.val).recv = some (p, rest) → c1 = c.keepBuffers link.val half.val rest → p.dst ≠ c.pkg → Completes (.ringOpReceive link half) ⟨o, c, q⟩ (c1.transit p)) ∧
    (∀ (link : Fin 24) (half : Fin 2) (p : Packet) (rest : List RecvFlit) (c1 : Chip), c.islOpen (linkIsland link.val) = true → takePacket tRINGRESP (c.half link.val half.val).recv = some (p, rest) → c1 = c.keepBuffers link.val half.val rest → p.dst = c.pkg → Completes (.ringRespReceive link half) ⟨o, c, q⟩ (c1.gotRingResp p)) ∧
    (∀ (link : Fin 24) (half : Fin 2) (p : Packet) (rest : List RecvFlit) (c1 : Chip), c.islOpen (linkIsland link.val) = true → takePacket tRINGRESP (c.half link.val half.val).recv = some (p, rest) → c1 = c.keepBuffers link.val half.val rest → p.dst ≠ c.pkg → Completes (.ringRespReceive link half) ⟨o, c, q⟩ (c1.transit p)) ∧
    (∀ (link : Fin 24) (half : Fin 2) (p : Packet) (rest : List RecvFlit) (c1 : Chip), c.islOpen (linkIsland link.val) = true → takePacket tCLOSED (c.half link.val half.val).recv = some (p, rest) → c1 = c.keepBuffers link.val half.val rest → p.dst = c.pkg → Completes (.closedReceive link half) ⟨o, c, q⟩ (c1.gotClosed p)) ∧
    (∀ (link : Fin 24) (half : Fin 2) (p : Packet) (rest : List RecvFlit) (c1 : Chip), c.islOpen (linkIsland link.val) = true → takePacket tCLOSED (c.half link.val half.val).recv = some (p, rest) → c1 = c.keepBuffers link.val half.val rest → p.dst ≠ c.pkg → Completes (.closedReceive link half) ⟨o, c, q⟩ (c1.transit p)) ∧
    (∀ (link : Fin 24) (half : Fin 2) (p : Packet) (rest : List RecvFlit) (c1 : Chip), c.islOpen (linkIsland link.val) = true → takePacket tBOUNCE (c.half link.val half.val).recv = some (p, rest) → c1 = c.keepBuffers link.val half.val rest → p.dst = c.pkg → Completes (.bounceReceive link half) ⟨o, c, q⟩ (c1.gotBounce p)) ∧
    (∀ (link : Fin 24) (half : Fin 2) (p : Packet) (rest : List RecvFlit) (c1 : Chip), c.islOpen (linkIsland link.val) = true → takePacket tBOUNCE (c.half link.val half.val).recv = some (p, rest) → c1 = c.keepBuffers link.val half.val rest → p.dst ≠ c.pkg → Completes (.bounceReceive link half) ⟨o, c, q⟩ (c1.transit p)) ∧
    (∀ (link : Fin 24) (half : Fin 2) (p : Packet) (rest : List RecvFlit) (c1 : Chip), c.islOpen (linkIsland link.val) = true → takePacket tERROR (c.half link.val half.val).recv = some (p, rest) → c1 = c.keepBuffers link.val half.val rest → p.dst = c.pkg → Completes (.errorReceive link half) ⟨o, c, q⟩ (c1.requestFails p.src p.tag p.status)) ∧
    (∀ (link : Fin 24) (half : Fin 2) (p : Packet) (rest : List RecvFlit) (c1 : Chip), c.islOpen (linkIsland link.val) = true → takePacket tERROR (c.half link.val half.val).recv = some (p, rest) → c1 = c.keepBuffers link.val half.val rest → p.dst ≠ c.pkg → Completes (.errorReceive link half) ⟨o, c, q⟩ (c1.transit p)) ∧
    (∀ (link : Fin 24) (half : Fin 2) (p : Packet) (rest : List RecvFlit) (c1 : Chip), c.islOpen (linkIsland link.val) = true → takePacket tLSA (c.half link.val half.val).recv = some (p, rest) → c1 = c.keepBuffers link.val half.val rest → Completes (.lsaReceive link half) ⟨o, c, q⟩ (c1.takeLsas ((List.range (p.data.length / 32)).map fun k => (p.data.drop (32 * k)).take 32) (link.val, half.val)))
end

