-- ==== Sys2Proof/Laws/Bytes.lean ====
section
/-! SUPPORT. Byte strings, and the flit whose CRC is right. -/

namespace Sys2Proof.Machine

@[simp] theorem length_leBytes (n w : Nat) : (leBytes n w).length = n := by
  induction n generalizing w with
  | zero => rfl
  | succ n ih => simp [leBytes, ih]

/-- Reading back what was spelled. -/
theorem leNat_leBytes (n w : Nat) : leNat (leBytes n w) = w % 256 ^ n := by
  induction n generalizing w with
  | zero => simp [leBytes, leNat, Nat.mod_one]
  | succ n ih =>
    simp only [leBytes, leNat, ih, BitVec.toNat_ofNat]
    have h : w % 256 ^ (n + 1) = w % 256 + 256 * (w / 256 % 256 ^ n) := by rw [Nat.pow_succ', Nat.mod_mul]
    rw [h]

theorem crc64_lt (bs : List Byte) : crc64 bs < 2 ^ 64 := by
  have bit : ∀ c : Nat, c < 2 ^ 64 → (if c % 2 = 1 then (c / 2) ^^^ 0xC96C5795D7870F42 else c / 2) < 2 ^ 64 := by
    intro c hc
    split
    · exact Nat.xor_lt_two_pow (by omega) (by norm_num)
    · omega
  have byte : ∀ (l : List Nat) (c : Nat), c < 2 ^ 64 →
      l.foldl (fun c _ => if c % 2 = 1 then (c / 2) ^^^ 0xC96C5795D7870F42 else c / 2) c < 2 ^ 64 := by
    intro l
    induction l with
    | nil => intro c hc; exact hc
    | cons a l ih => intro c hc; exact ih _ (bit c hc)
  have all : ∀ (l : List Byte) (c : Nat), c < 2 ^ 64 → l.foldl (fun crc b =>
      (List.range 8).foldl (fun c _ => if c % 2 = 1 then (c / 2) ^^^ 0xC96C5795D7870F42 else c / 2) (crc ^^^ b.toNat)) c < 2 ^ 64 := by
    intro l
    induction l with
    | nil => intro c hc; exact hc
    | cons b l ih =>
      intro c hc
      refine ih _ (byte _ _ (Nat.xor_lt_two_pow hc ?_))
      have := b.isLt
      omega
  exact Nat.xor_lt_two_pow (all bs _ (by norm_num)) (by norm_num)

/-- 632 bytes with their CRC are a good flit (R345). -/
theorem flitGood_mk {b : List Byte} (h : b.length = 632) : flitGood (b ++ leBytes 8 (crc64 b)) = true := by
  have h1 : (b ++ leBytes 8 (crc64 b)).take 632 = b := by simp [← h]
  have h2 : fieldAt (b ++ leBytes 8 (crc64 b)) 632 8 = crc64 b := by
    have : (b ++ leBytes 8 (crc64 b)).drop 632 = leBytes 8 (crc64 b) := by simp [← h]
    rw [fieldAt, this, List.take_of_length_le (by simp), leNat_leBytes]
    exact Nat.mod_eq_of_lt (by simpa using crc64_lt b)
  simp [flitGood, h1, h2, h]

end Sys2Proof.Machine
end

