-- ==== Sys2Proof/Laws/Memory.lean ====
section
/-! SUPPORT. The sparse stores: canonical form, read after write, and what the memory operations keep (08_memory_tiers.md). -/

namespace Sys2Proof.Machine

variable {α : Type} [DecidableEq α]

/-- A bound above which a store lies may be lowered. -/
theorem swf_lower {d : α} {m : List (Nat × α)} {lo : Nat} (h : swf d (some lo) m = true) : swf d none m = true := by
  cases m with
  | nil => rfl
  | cons e rest => simp only [swf, Bool.and_eq_true] at h ⊢; exact ⟨⟨trivial, h.1.2⟩, h.2⟩

/-- A key below every listed key reads the default. -/
theorem sget_below {d : α} {m : List (Nat × α)} {lo a : Nat} (h : swf d (some lo) m = true) (ha : a ≤ lo) : sget d m a = d := by
  cases m with
  | nil => rfl
  | cons e rest =>
    obtain ⟨k, v⟩ := e
    simp only [swf, Bool.and_eq_true, decide_eq_true_eq] at h
    have : a < k := Nat.lt_of_le_of_lt ha h.1.1
    simp [sget, this, Nat.ne_of_gt this]

/-- Storing keeps the canonical form above any bound that the key lies above. -/
theorem swf_sput_from {d : α} (v : α) (a : Nat) : ∀ {m : List (Nat × α)} {lo : Option Nat},
    swf d lo m = true → (∀ l, lo = some l → l < a) → swf d lo (sput d m a v) = true
  | [], lo, _, hl => by
    by_cases hv : v = d
    · simp [sput, hv, swf]
    · cases lo with
      | none => simp [sput, hv, swf]
      | some l => simp [sput, hv, swf, hl l rfl]
  | (k, w) :: rest, lo, h, hl => by
    simp only [swf, Bool.and_eq_true] at h
    obtain ⟨⟨hlo, hw⟩, hr⟩ := h
    by_cases hk : k = a
    · subst hk
      by_cases hv : v = d
      · simp only [sput, if_pos, hv]
        cases lo with
        | none => exact swf_lower hr
        | some l =>
          cases rest with
          | nil => rfl
          | cons e r =>
            simp only [swf, Bool.and_eq_true, decide_eq_true_eq] at hr ⊢
            exact ⟨⟨Nat.lt_trans (hl l rfl) hr.1.1, hr.1.2⟩, hr.2⟩
      · simp [sput, hv, swf, hr, hlo]
    · by_cases hak : a < k
      · by_cases hv : v = d
        · simp [sput, hk, hak, hv, swf, hlo, hr, of_decide_eq_true hw]
        · cases lo with
          | none => simp [sput, hk, hak, hv, swf, hr, of_decide_eq_true hw]
          | some l => simp [sput, hk, hak, hv, swf, hl l rfl, hr, of_decide_eq_true hw]
      · simp only [sput, if_neg hk, if_neg hak, swf, Bool.and_eq_true]
        refine ⟨⟨hlo, hw⟩, swf_sput_from v a hr ?_⟩
        intro l hl'
        cases hl'
        exact Nat.lt_of_le_of_ne (Nat.le_of_not_lt hak) hk

/-- Storing a value keeps the canonical form. -/
theorem swf_sput {d : α} {m : List (Nat × α)} (h : swf d none m = true) (a : Nat) (v : α) : swf d none (sput d m a v) = true :=
  swf_sput_from v a h (by simp)

/-- A store reads back what was stored at a key. -/
theorem sget_sput_self {d : α} (a : Nat) (v : α) : ∀ {m : List (Nat × α)} {lo : Option Nat}, swf d lo m = true → sget d (sput d m a v) a = v
  | [], _, _ => by by_cases hv : v = d <;> simp [sput, hv, sget]
  | (k, w) :: rest, lo, h => by
    simp only [swf, Bool.and_eq_true] at h
    by_cases hk : k = a
    · subst hk
      by_cases hv : v = d
      · simp only [sput, if_pos, hv]; exact sget_below h.2 (Nat.le_refl _)
      · simp [sput, hv, sget]
    · by_cases hak : a < k
      · by_cases hv : v = d <;> simp [sput, hk, hak, hv, sget]
      · simp only [sput, if_neg hk, if_neg hak, sget]; exact sget_sput_self a v h.2

/-- Storing at one key leaves every other key as it was. -/
theorem sget_sput_other {d : α} {a b : Nat} (hab : b ≠ a) (v : α) : ∀ {m : List (Nat × α)} {lo : Option Nat}, swf d lo m = true →
    sget d (sput d m a v) b = sget d m b
  | [], _, _ => by
    by_cases hv : v = d
    · simp [sput, hv]
    · simp [sput, hv, sget, Ne.symm hab]
  | (k, w) :: rest, lo, h => by
    simp only [swf, Bool.and_eq_true] at h
    by_cases hk : k = a
    · subst hk
      have hr : sget d ((k, w) :: rest) b = if b < k then d else sget d rest b := by simp [sget, Ne.symm hab]
      rw [hr]
      by_cases hv : v = d
      · simp only [sput, if_pos, hv]
        by_cases hb : b < k
        · simp only [if_pos hb]; exact sget_below h.2 (Nat.le_of_lt hb)
        · simp [hb]
      · simp [sput, hv, sget, Ne.symm hab]
    · by_cases hak : a < k
      · by_cases hv : v = d
        · simp [sput, hk, hak, hv]
        · simp only [sput, if_neg hk, if_pos hak, if_neg hv, sget, if_neg (Ne.symm hab)]
          by_cases hb : b < a
          · have hbk : b < k := Nat.lt_trans hb hak
            simp [hb, hbk, Nat.ne_of_gt hbk]
          · simp [hb]
      · simp only [sput, if_neg hk, if_neg hak, sget, sget_sput_other hab v h.2]

/-! ### Byte strings -/

theorem swf_swrite (bs : List Byte) : ∀ {m : List (Nat × Byte)} (a : Nat), swf 0 none m = true → swf 0 none (swrite m a bs) = true := by
  induction bs with
  | nil => intro m a h; exact h
  | cons b bs ih => intro m a h; exact ih (a + 1) (swf_sput h a b)

/-- Every byte after a write: the byte written where the address lies in the string, what was there elsewhere. -/
theorem sget_swrite (bs : List Byte) : ∀ {m : List (Nat × Byte)} (a x : Nat), swf 0 none m = true →
    sget 0 (swrite m a bs) x = if a ≤ x ∧ x < a + bs.length then bs.getD (x - a) 0 else sget 0 m x := by
  induction bs with
  | nil =>
    intro m a x _
    have h : ¬ (a ≤ x ∧ x < a + ([] : List Byte).length) := by simp only [List.length_nil]; omega
    rw [if_neg h]; rfl
  | cons b bs ih =>
    intro m a x h
    rw [swrite, ih (a + 1) x (swf_sput h a b)]
    by_cases hxa : x = a
    · subst hxa
      rw [if_neg (by omega), sget_sput_self x b h]
      simp
    · rw [sget_sput_other hxa b h]
      by_cases hin : a + 1 ≤ x ∧ x < a + 1 + bs.length
      · obtain ⟨k, hk⟩ : ∃ k, x = a + 1 + k := ⟨x - (a + 1), by omega⟩
        have h1 : x - (a + 1) = k := by omega
        have h2 : x - a = k + 1 := by omega
        rw [if_pos hin, if_pos (by simp only [List.length_cons]; omega), h1, h2, List.getD_cons_succ]
      · rw [if_neg hin, if_neg (by simp only [List.length_cons]; omega)]

/-- A byte string reads back as it was written. -/
theorem sread_swrite {m : List (Nat × Byte)} (h : swf 0 none m = true) (a : Nat) (bs : List Byte) : sread (swrite m a bs) a bs.length = bs := by
  apply List.ext_getElem
  · simp [sread]
  · intro i h1 h2
    simp only [sread, List.getElem_map, List.getElem_range, sget_swrite bs a (a + i) h]
    rw [if_pos ⟨by omega, by omega⟩, Nat.add_sub_cancel_left, List.getD_eq_getElem _ _ h2]

/-- Dropping entries keeps the canonical form. -/
theorem swf_filter {d : α} (p : Nat × α → Bool) : ∀ {m : List (Nat × α)} {lo : Option Nat}, swf d lo m = true → swf d lo (m.filter p) = true
  | [], _, _ => rfl
  | (k, v) :: rest, lo, h => by
    simp only [swf, Bool.and_eq_true] at h
    have hr := swf_filter p h.2
    by_cases hp : p (k, v) = true
    · rw [List.filter_cons_of_pos hp]; simp only [swf, Bool.and_eq_true]; exact ⟨h.1, hr⟩
    · rw [List.filter_cons_of_neg hp]
      cases lo with
      | none => exact swf_lower hr
      | some l =>
        revert hr
        cases rest.filter p with
        | nil => intro _; rfl
        | cons e r =>
          intro hr
          simp only [swf, Bool.and_eq_true, decide_eq_true_eq] at hr h ⊢
          exact ⟨⟨Nat.lt_trans h.1.1 hr.1.1, hr.1.2⟩, hr.2⟩

theorem swf_sclear {m : List (Nat × Byte)} (h : swf 0 none m = true) (a n : Nat) : swf 0 none (sclear m a n) = true := swf_filter _ h

/-! ### The memory operations keep the canonical form -/

theorem Mem.wf_iff (m : Mem) : m.wf = true ↔
    swf 0 none m.bytes = true ∧ swf ({} : Wagon) none m.wagons = true ∧ swf false none m.poison = true ∧ swf 0 none m.sysWords = true := by
  simp only [Mem.wf, Bool.and_eq_true, and_assoc]

theorem Mem.wf_setWagon {m : Mem} (h : m.wf = true) (w : Nat) (f : Wagon → Wagon) : (m.setWagon w f).wf = true := by
  rw [Mem.wf_iff] at h ⊢
  exact ⟨h.1, swf_sput h.2.1 _ _, h.2.2⟩

/-- A fold of steps that each keep the canonical form keeps it. -/
theorem Mem.wf_foldl {β : Type} (l : List β) (f : Mem → β → Mem) (hf : ∀ m b, m.wf = true → (f m b).wf = true) :
    ∀ {m : Mem}, m.wf = true → (l.foldl f m).wf = true := by
  induction l with
  | nil => intro m h; exact h
  | cons b l ih => intro m h; exact ih (hf m b h)

theorem Mem.wf_markPage {m : Mem} (h : m.wf = true) (p : Nat) : (m.markPage p).wf = true := Mem.wf_setWagon h _ _
theorem Mem.wf_clearPage {m : Mem} (h : m.wf = true) (p : Nat) : (m.clearPage p).wf = true := Mem.wf_setWagon h _ _

/-- A depot update leaves the four stores of the canonical form. -/
theorem Mem.wf_same {m m' : Mem} (h : m.wf = true) (hb : m'.bytes = m.bytes) (hw : m'.wagons = m.wagons) (hp : m'.poison = m.poison)
    (hs : m'.sysWords = m.sysWords) : m'.wf = true := by
  rw [Mem.wf_iff] at h ⊢; rw [hb, hw, hp, hs]; exact h

theorem Mem.wf_warm {m : Mem} (h : m.wf = true) (off : Nat) : (m.warm off).wf = true := by
  exact Mem.wf_setWagon h _ _

theorem Mem.wf_touchLine {m : Mem} (h : m.wf = true) (mode line : Nat) (write whole : Bool) : (m.touchLine mode line write whole).wf = true := by
  unfold Mem.touchLine
  have h' : ({ m with misses := (m.misses + 1) % 2 ^ 32 } : Mem).wf = true := h
  dsimp only
  split
  · exact h
  · have h2 : (if (write && whole) = true then ({ m with misses := (m.misses + 1) % 2 ^ 32 } : Mem)
        else Mem.warm { m with misses := (m.misses + 1) % 2 ^ 32 } (line * 128)).wf = true := by
      split
      · exact h'
      · exact Mem.wf_warm h' _
    generalize (if (write && whole) = true then ({ m with misses := (m.misses + 1) % 2 ^ 32 } : Mem)
        else Mem.warm { m with misses := (m.misses + 1) % 2 ^ 32 } (line * 128)) = m2 at h2 ⊢
    split
    · exact h2
    · exact Mem.wf_same h2 rfl rfl rfl rfl

theorem Mem.wf_touchLines {m : Mem} (h : m.wf = true) (mode off n : Nat) (write : Bool) : (m.touchLines mode off n write).wf = true :=
  Mem.wf_foldl _ _ (fun _ _ h => Mem.wf_touchLine h _ _ _ _) h

theorem Mem.wf_notePoison {m : Mem} (h : m.wf = true) (off n : Nat) : (m.notePoison off n).wf = true := by
  unfold Mem.notePoison
  split
  · exact Mem.wf_same h rfl rfl rfl rfl
  · exact h

theorem Mem.wf_read {m : Mem} (h : m.wf = true) (mode off n : Nat) : (m.read mode off n).2.2.wf = true :=
  Mem.wf_touchLines (Mem.wf_notePoison h off n) mode off n false

theorem Mem.wf_writeUnit {m : Mem} (h : m.wf = true) (off : Nat) (bs : List Byte) : (m.writeUnit off bs).wf = true := by
  unfold Mem.writeUnit
  split
  · exact h
  · rw [Mem.wf_iff] at h
    dsimp only
    split
    · rw [Mem.wf_iff]; exact ⟨swf_swrite bs off h.1, h.2.1, swf_sput h.2.2.1 _ _, h.2.2.2⟩
    · rw [Mem.wf_iff]; exact ⟨swf_swrite bs off h.1, h.2⟩

theorem Mem.wf_writeUnits (fuel : Nat) : ∀ {m : Mem} (off : Nat) (bs : List Byte), m.wf = true → (m.writeUnits fuel off bs).wf = true := by
  induction fuel with
  | zero => intro m off bs h; exact h
  | succ n ih =>
    intro m off bs h
    unfold Mem.writeUnits
    split
    · exact h
    · exact ih _ _ (Mem.wf_writeUnit h _ _)

theorem Mem.wf_dirtyPages {m : Mem} (h : m.wf = true) (off n : Nat) : (m.dirtyPages off n).wf = true :=
  Mem.wf_foldl _ _ (fun _ _ h => Mem.wf_setWagon h _ _) h

theorem Mem.wf_coverPages {m : Mem} (h : m.wf = true) (off n : Nat) : (m.coverPages off n).wf = true := by
  refine Mem.wf_foldl _ _ (fun m p h => ?_) h
  split
  · exact Mem.wf_clearPage h p
  · exact h

/-- A write at the home slice keeps the canonical form. -/
theorem Mem.wf_write {m : Mem} (h : m.wf = true) (mode off : Nat) (bs : List Byte) (single : Bool) : (m.write mode off bs single).wf = true := by
  unfold Mem.write
  dsimp only
  have h1 := Mem.wf_dirtyPages (Mem.wf_writeUnits (bs.length + 1) off bs (Mem.wf_touchLines h mode off bs.length true)) off bs.length
  split
  · exact Mem.wf_coverPages h1 _ _
  · exact h1

theorem Mem.wf_poisonRange {m : Mem} (h : m.wf = true) (off n : Nat) : (m.poisonRange off n).wf = true := by
  refine Mem.wf_foldl _ _ (fun m u h => ?_) h
  rw [Mem.wf_iff] at h ⊢
  exact ⟨h.1, h.2.1, swf_sput h.2.2.1 _ _, h.2.2.2⟩

theorem Mem.wf_zeroWagon {m : Mem} (h : m.wf = true) (w : Nat) : (m.zeroWagon w).wf = true := by
  rw [Mem.wf_iff] at h ⊢
  exact ⟨swf_sclear h.1 _ _, h.2.1, swf_filter _ h.2.2.1, h.2.2.2⟩

theorem Mem.wf_backHbm {m : Mem} (h : m.wf = true) (w : Nat) : (m.backHbm w).wf = true := Mem.wf_setWagon (Mem.wf_zeroWagon h w) _ _
theorem Mem.wf_backSdg {m : Mem} (h : m.wf = true) (w port : Nat) : (m.backSdg w port).wf = true := Mem.wf_setWagon (Mem.wf_zeroWagon h w) _ _

theorem Mem.wf_initWagon {m : Mem} (h : m.wf = true) (o : ObjEntry) (blob : List Byte) (w : Nat) : (m.initWagon o blob w).wf = true := by
  rw [Mem.wf_iff] at h ⊢
  exact ⟨swf_swrite _ _ h.1, h.2⟩

/-- Memory right after reset lists nothing. -/
theorem reset_mem_wf : State.reset.chip.mem.wf = true := by decide

theorem Chip.memRead_wf {c : Chip} (h : c.mem.wf = true) (off n : Nat) : (c.memRead off n).2.2.mem.wf = true := Mem.wf_read h _ _ _
theorem Chip.memWrite_wf {c : Chip} (h : c.mem.wf = true) (off : Nat) (bs : List Byte) : (c.memWrite off bs).mem.wf = true := Mem.wf_write h _ _ _ _

end Sys2Proof.Machine
end

