-- ==== Sys2Proof/Laws/MemoryMoves.lean ====
section
/-! SUPPORT. The engines that move, back, copy and lose memory keep its canonical form too (08_memory_tiers.md R215–R228, 09_rings.md R263, 10_dispatch_and_switching.md R282, 11_sequences.md R299). -/

namespace Sys2Proof.Machine

variable {α : Type} [DecidableEq α]

/-- Changing values in place, and dropping those that became the default, keeps the canonical form. -/
theorem swf_map_filter {d : α} (f : α → α) : ∀ {m : List (Nat × α)} {lo : Option Nat}, swf d lo m = true →
    swf d lo ((m.map fun e => (e.1, f e.2)).filter fun e => decide (e.2 ≠ d)) = true
  | [], _, _ => rfl
  | (k, v) :: rest, lo, h => by
    simp only [swf, Bool.and_eq_true] at h
    have hr := swf_map_filter f h.2
    rw [List.map_cons]
    by_cases hp : f v = d
    · rw [List.filter_cons_of_neg (by simp [hp])]
      cases lo with
      | none => exact swf_lower hr
      | some l =>
        revert hr
        cases (rest.map fun e => (e.1, f e.2)).filter fun e => decide (e.2 ≠ d) with
        | nil => intro _; rfl
        | cons e r =>
          intro hr
          simp only [swf, Bool.and_eq_true, decide_eq_true_eq] at hr h ⊢
          exact ⟨⟨Nat.lt_trans h.1.1 hr.1.1, hr.1.2⟩, hr.2⟩
    · rw [List.filter_cons_of_pos (by simp [hp])]
      simp only [swf, Bool.and_eq_true]
      exact ⟨⟨h.1.1, by simp [hp]⟩, hr⟩

/-- Changing values in place keeps the canonical form where none becomes the default. -/
theorem swf_map {d : α} {f : α → α} (hf : ∀ v, v ≠ d → f v ≠ d) : ∀ {m : List (Nat × α)} {lo : Option Nat}, swf d lo m = true →
    swf d lo (m.map fun e => (e.1, f e.2)) = true
  | [], _, _ => rfl
  | (k, v) :: rest, lo, h => by
    simp only [swf, Bool.and_eq_true] at h
    simp only [List.map_cons, swf, Bool.and_eq_true]
    exact ⟨⟨h.1.1, by simpa using hf v (of_decide_eq_true h.1.2)⟩, swf_map hf h.2⟩

theorem swf_sput_fold {β : Type} {d : α} (l : List β) (k : β → Nat) (v : β → α) : ∀ {m : List (Nat × α)}, swf d none m = true →
    swf d none (l.foldl (fun b e => sput d b (k e) (v e)) m) = true := by
  induction l with
  | nil => intro m h; exact h
  | cons e l ih => intro m h; exact ih (swf_sput h _ _)

theorem Mem.wf_losePort {m : Mem} (h : m.wf = true) (port : Nat) : (m.losePort port).wf = true := by
  rw [Mem.wf_iff] at h ⊢
  refine ⟨h.1, ?_, h.2.2⟩
  exact swf_map_filter (fun (w : Wagon) => if w.loc = .sidings port then { w with loc := .unbacked, second := none, unc := 0xFFFF }
    else if w.second = some port then { w with second := none } else w) h.2.1

theorem Mem.wf_startMove {m : Mem} (h : m.wf = true) (w : Nat) (dest : Loc) (cost now : Nat) : (m.startMove w dest cost now).wf = true := by
  unfold Mem.startMove; split
  · exact h
  · exact Mem.wf_same h rfl rfl rfl rfl

theorem Mem.wf_demote {m : Mem} (h : m.wf = true) (w now : Nat) : (m.demote w now).wf = true := by
  unfold Mem.demote; split
  · exact Mem.wf_startMove h _ _ _ _
  · exact h

theorem Mem.wf_promote {m : Mem} (h : m.wf = true) (w now : Nat) : (m.promote w now).wf = true := by
  unfold Mem.promote; split
  · exact h
  · exact Mem.wf_startMove h _ _ _ _

theorem Chip.wf_backOne (c : Chip) {m : Mem} (h : m.wf = true) (e : Nat × ObjEntry) : (c.backOne m e).wf = true := by
  unfold Chip.backOne
  dsimp only
  split
  · exact h
  · split
    · split
      · exact h
      · exact Mem.wf_backHbm h _
    · split
      · exact Mem.wf_backHbm h _
      · split
        · exact Mem.wf_backSdg h _ _
        · split
          · exact Mem.wf_backHbm h _
          · exact h

theorem Chip.wf_reSecond {m : Mem} (h : m.wf = true) (e : Nat × ObjEntry) : (Chip.reSecond m e).wf = true := by
  unfold Chip.reSecond
  dsimp only
  split
  · split
    · exact Mem.wf_setWagon h _ _
    · exact h
  · exact h

/-- Leaving a wish of the forced list keeps the canonical form. -/
theorem Mem.wf_unforce {m : Mem} (h : m.wf = true) (e : Nat × Loc) : ({ m with forced := m.forced.erase e } : Mem).wf = true := h

theorem Mem.wf_startForced {m : Mem} (h : m.wf = true) (now : Nat) : (m.startForced now).wf = true := by
  refine Mem.wf_foldl _ _ (fun m e h => ?_) h
  have fin : ∀ m' : Mem, m'.wf = true → (if m.moves.length < m'.moves.length then ({ m' with forced := m'.forced.erase e } : Mem) else m').wf = true := by
    intro m' h'
    split
    · exact Mem.wf_unforce h' e
    · exact h'
  apply fin
  split
  · exact Mem.wf_unforce h e
  · split
    · exact Mem.wf_promote h _ _
    · exact Mem.wf_demote h _ _
    · exact h

/-- A migration epoch keeps the canonical form (R218). -/
theorem Chip.wf_epoch {c : Chip} (h : c.mem.wf = true) (assy : Nat) : (c.epoch assy).wf = true := by
  have h1 : ({ c.mem with
      budget := c.epochBudget assy
      wagons := c.mem.wagons.map fun e => (e.1, { e.2 with cold := if e.2.heat = 0 then min 255 (e.2.cold + 1) else 0 }) } : Mem).wf = true := by
    rw [Mem.wf_iff] at h ⊢
    refine ⟨h.1, ?_, h.2.2⟩
    refine swf_map (f := fun (w : Wagon) => { w with cold := if w.heat = 0 then min 255 (w.cold + 1) else 0 }) ?_ h.2.1
    intro v hv hd
    by_cases hh : v.heat = 0
    · have := congrArg Wagon.cold hd
      simp [hh] at this
    · exact hh (by simpa using congrArg Wagon.heat hd)
  have h2 := Mem.wf_startForced h1 c.elapsed
  unfold Chip.epoch
  dsimp only
  have fin : ∀ m : Mem, m.wf = true →
      ({ m with wagons := (m.wagons.map fun e => (e.1, { e.2 with heat := e.2.heat / 2 })).filter fun e => e.2 ≠ {}, epochAt := c.elapsed } : Mem).wf = true := by
    intro m hm
    rw [Mem.wf_iff] at hm ⊢
    exact ⟨hm.1, swf_map_filter (fun (w : Wagon) => { w with heat := w.heat / 2 }) hm.2.1, hm.2.2⟩
  refine fin _ (Mem.wf_foldl _ _ (fun m e hm => Chip.wf_reSecond (Chip.wf_backOne c hm e) e) (Mem.wf_foldl _ _ (fun m w hm => ?_) ?_))
  · split
    · exact Mem.wf_promote hm _ _
    · exact hm
  · split
    · refine Mem.wf_foldl _ _ (fun m w hm => ?_) h2
      split
      · exact Mem.wf_demote hm _ _
      · exact hm
    · exact h2

theorem Mem.wf_finishMove {m : Mem} (h : m.wf = true) (v : Move) (incl : Bool) : (m.finishMove v incl).wf = true := by
  rw [Mem.wf_iff] at h
  unfold Mem.finishMove
  dsimp only
  split
  · exact (Mem.wf_iff _).2 ⟨h.1, swf_sput h.2.1 _ _, h.2.2⟩
  · exact (Mem.wf_iff _).2 ⟨h.1, swf_sput h.2.1 _ _, h.2.2⟩
  · exact (Mem.wf_iff _).2 h

/-- A copy inside the package's memory keeps the canonical form (R282). -/
theorem Mem.wf_copyRange {m : Mem} (h : m.wf = true) (src dst n sm dm : Nat) : (m.copyRange src dst n sm dm).wf = true := by
  have h1 := Mem.wf_touchLines (Mem.wf_touchLines h sm src n false) dm dst n true
  refine Mem.wf_dirtyPages ?_ _ _
  rw [Mem.wf_iff] at h1 ⊢
  exact ⟨swf_sput_fold _ (fun e : Nat × Byte => e.1) (fun e => e.2) (swf_sclear h1.1 _ _), h1.2.1, swf_filter _ h1.2.2.1, h1.2.2.2⟩

theorem Mem.wf_readEcc {m : Mem} (h : m.wf = true) (obs off : Nat) : (m.readEcc obs off).wf = true := by
  rw [Mem.wf_iff] at h
  unfold Mem.readEcc
  split
  · exact (Mem.wf_iff m).2 h
  · exact (Mem.wf_iff _).2 h
  · exact (Mem.wf_iff _).2 ⟨h.1, h.2.1, swf_sput h.2.2.1 _ _, h.2.2.2⟩
  · exact (Mem.wf_iff _).2 ⟨h.1, h.2.1, swf_sput h.2.2.1 _ _, h.2.2.2⟩

theorem Chip.wf_homeRead {c : Chip} (h : c.mem.wf = true) (off n : Nat) : (c.homeRead off n).2.mem.wf = true := by
  unfold Chip.homeRead
  split
  · exact h
  · exact Chip.memRead_wf h off n

theorem Chip.wf_homeWrite {c : Chip} (h : c.mem.wf = true) (off : Nat) (bs : List Byte) (bad : List Nat) :
    (c.homeWrite off bs bad).2.mem.wf = true := by
  refine Mem.wf_foldl _ _ (fun m k hm => ?_) (Chip.memWrite_wf h off bs)
  split
  · exact hm
  · rw [Mem.wf_iff] at hm ⊢
    exact ⟨hm.1, hm.2.1, swf_sput hm.2.2.1 _ _, hm.2.2.2⟩

/-- A page written whole with the poison of its source keeps the canonical form (R299). -/
theorem Mem.wf_pageCopied {m : Mem} (h : m.wf = true) (mode dst : Nat) (bs : List Byte) (bad : List Nat) (f : Nat → Nat) :
    ({ m.write mode dst bs false with poison := bad.foldl (fun (q : List (Nat × Bool)) u => sput false q (f u) true) (m.write mode dst bs false).poison } : Mem).wf = true := by
  have h1 := Mem.wf_write h mode dst bs false
  rw [Mem.wf_iff] at h1
  exact (Mem.wf_iff _).2 ⟨h1.1, h1.2.1, swf_sput_fold (d := false) bad f (fun _ => true) h1.2.2.1, h1.2.2.2⟩

theorem Chip.wf_touch {c : Chip} (h : c.mem.wf = true) (off n : Nat) : (c.touch off n).mem.wf = true := Mem.wf_touchLines h _ _ _ _

theorem Chip.wf_copyPage {c : Chip} (h : c.mem.wf = true) (src dst : Nat) : (c.copyPage src dst).mem.wf = true :=
  Mem.wf_pageCopied (Chip.wf_touch h src pageBytes) ((c.touch src pageBytes).depotMode dst) dst (c.peek src pageBytes) (c.mem.badUnits src pageBytes)
    fun u => u + dst / 64

/-- A ring's words keep the canonical form, those of a system ring and those of an object (R263). -/
theorem Chip.wf_setRingWord {c : Chip} (h : c.mem.wf = true) (r x off : Nat) (bs : List Byte) : (c.setRingWord r x off bs).mem.wf = true := by
  unfold Chip.setRingWord
  dsimp only
  split
  · rw [Mem.wf_iff] at h
    exact (Mem.wf_iff _).2 ⟨h.1, h.2.1, h.2.2.1, swf_swrite _ _ h.2.2.2⟩
  · split
    · exact h
    · exact Mem.wf_write h _ _ _ _

theorem Chip.wf_setRingWords {c : Chip} (h : c.mem.wf = true) (r x : Nat) (bs : List Byte) : (c.setRingWords r x bs).mem.wf = true := by
  unfold Chip.setRingWords
  generalize List.range (ceilDiv bs.length 64) = l
  induction l generalizing c with
  | nil => exact h
  | cons k l ih => exact ih (Chip.wf_setRingWord h _ _ _ _)

end Sys2Proof.Machine
end

