-- ==== Sys2Proof/Laws/Ops.lean ====
section
/-! SUPPORT. What the shared operations can do, once each: outcomes of `act`, `run` and `runO`, settling, issue, and the change of one thread. -/

namespace Sys2Proof.Machine

/-! ### Outcomes -/

theorem State.act_next (s : State) (f : Otp → Chip → Chip) : s.act f = .next { s with chip := f s.otp s.chip } := rfl
theorem State.run_settled (s : State) (f : Chip → Chip) : s.run f = .next (s.settled (f s.chip)) := rfl
theorem State.runO_settled (s : State) (f : Otp → Chip → Chip) : s.runO f = .next (s.settled (f s.otp s.chip)) := rfl

@[simp] theorem State.settled_otp (s : State) (c : Chip) : (s.settled c).otp = s.otp := by unfold State.settled; rfl
@[simp] theorem State.settled_pending (s : State) (c : Chip) : (s.settled c).pending = s.pending := by unfold State.settled; rfl
@[simp] theorem State.settled_chip (s : State) (c : Chip) : (s.settled c).chip = c.settle s.otp := by simp only [State.settled]

theorem step_nil (s : State) (h : s.pending = []) : step s = .next s.idle := by simp [step, h]
theorem step_cons (s : State) (i : Instr) (rest : List Instr) (h : s.pending = i :: rest) :
    step s = exec i { s with pending := rest } := by simp [step, h]

/-! ### Settling -/

theorem Chip.drainSignals_nil (c : Chip) (h : c.signals = []) (n : Nat) : c.drainSignals n = c := by
  cases n <;> simp [Chip.drainSignals, h]

theorem Quiet.colArm {c : Chip} (h : Quiet c) : c.colArm = c := by
  have hd : (c.tt.deps.filter fun d => d.action == 0x0040) = [] := by
    simpa using h.noColDeps
  have hc : c = { c with col := { c.col with armed := [] } } := by rw [← h.noArmed]
  unfold Chip.colArm
  rw [hd]
  simp only [List.foldl_nil, h.noArmed, List.filter_nil]
  exact hc.symm

theorem Quiet.colSweep {c : Chip} (h : Quiet c) : c.colSweep = c := by
  simp [Chip.colSweep, h.noInsts]

theorem Quiet.flushTasks {c : Chip} (h : Quiet c) (n : Nat) : c.flushTasks n = c := by
  cases n with
  | zero => rfl
  | succ n =>
    have : c.seqEnd = c := by
      unfold Chip.seqEnd
      split
      · simp [h.notPosted]
      · rfl
    simp [Chip.flushTasks, h.noTasks, this]

theorem Quiet.armPrune {c : Chip} (h : Quiet c) : c.armPrune = c := by
  have hc : c = { c with arms := [] } := by rw [← h.noArms]
  unfold Chip.armPrune
  rw [h.noArms]
  exact hc.symm

theorem Quiet.engines {c : Chip} (h : Quiet c) : c.engines = c := by
  have hdr : c.cells.any (·.draining) = false := by
    rw [List.any_eq_false]
    intro x hx
    simp [h.noDraining x hx]
  simp only [Chip.engines, h.colArm, h.colSweep, h.flushTasks, ite_self, h.armPrune, Chip.sweepTurnSets, Chip.sweepProcs,
    h.noTurnSets, h.noProcs, List.foldl_nil, h.noUnsent, List.isEmpty_nil, if_true, Chip.sweepWear, h.noRestore, Bool.false_and,
    Chip.sweepCancelled, h.noCancelled,
    Chip.sweepDraining, hdr, Chip.tryEnter, h.noEntry, Bool.false_eq_true, if_false]

theorem Quiet.settle {c : Chip} (h : Quiet c) (o : Otp) : c.settle o = c := by
  simp [Chip.settle, Chip.drainSignals_nil c h.noSignals, h.engines, Chip.sweepIbi, h.noInBand]

theorem Quiet.settled {s : State} (h : Quiet s.chip) : s.settled s.chip = s := by
  simp [State.settled, h.settle]

/-! ### One thread -/

theorem setAt_getD_ne {α : Type} (l : List α) (n m : Nat) (f : α → α) (d : α) (h : m ≠ n) : (setAt l n f).getD m d = l.getD m d := by
  simp [setAt, Ne.symm h]

theorem setAt_getD_self {α : Type} (l : List α) (n : Nat) (f : α → α) (d : α) (h : n < l.length) :
    (setAt l n f).getD n d = f (l.getD n d) := by
  simp [setAt, h]

/-- Changing the element that stands at an index is setting it. -/
theorem setAt_eq_set {α : Type} {l : List α} {n : Nat} {x : α} (f : α → α) (h : l[n]? = some x) : setAt l n f = l.set n (f x) := by
  obtain ⟨hl, hx⟩ := List.getElem?_eq_some_iff.1 h
  subst hx
  apply List.ext_getElem?
  intro i
  by_cases hi : n = i
  · subst hi; simp [setAt, hl]
  · simp [setAt, hi]

theorem Chip.cell_lt {c : Chip} {n : Nat} {p : PartState} (h : (c.cell n).ps = some p) : n < c.cells.length := by
  by_contra hn
  have : c.cells.getD n {} = {} := by simp [List.getElem?_eq_none (Nat.le_of_not_lt hn)]
  rw [Chip.cell, this] at h
  cases h

theorem Chip.setThread_becomes {c : Chip} {n t : Nat} {p : PartState} {x : Thread} (f : Thread → Thread)
    (hp : (c.cell n).ps = some p) (ht : p.threads[t]? = some x) : ThreadBecomes c (c.setThread n t f) n t (f x) := by
  have hn := Chip.cell_lt hp
  refine ⟨rfl, fun m hm => setAt_getD_ne _ _ _ _ _ hm, p, hp, ?_⟩
  show (setAt c.cells n _).getD n {} = _
  rw [setAt_getD_self _ _ _ _ hn]
  show ({ (c.cell n) with ps := (c.cell n).ps.map _ } : Cell) = _
  rw [hp]
  simp only [Option.map_some, setAt_eq_set f ht]

/-- A quiet package stays quiet when a cell changes and drains no more than before. -/
theorem Quiet.setCell {c : Chip} (h : Quiet c) (n : Nat) (f : Cell → Cell) (hf : ∀ x, (f x).draining = x.draining) : Quiet (c.setCell n f) := by
  refine ⟨h.noSignals, h.noArmed, h.noColDeps, h.noInsts, h.noTasks, h.noArms, h.noTurnSets, h.noProcs, h.noUnsent, h.noRestore, ?_,
    h.noEntry, h.noInBand, h.noCancelled, h.notPosted⟩
  intro x hx
  obtain ⟨i, hi⟩ := List.mem_iff_getElem?.1 hx
  simp only [Chip.setCell, setAt, List.getElem?_modify] at hi
  cases hc : c.cells[i]? with
  | none => simp [hc] at hi
  | some y =>
    have := h.noDraining y (List.mem_iff_getElem?.2 ⟨i, hc⟩)
    simp only [hc, Option.map_eq_map, Option.map_some, Option.some.injEq] at hi
    subst hi
    split
    · rw [hf]; exact this
    · exact this

theorem Quiet.setPart {c : Chip} (h : Quiet c) (n : Nat) (f : PartState → PartState) : Quiet (c.setPart n f) := h.setCell n _ fun _ => rfl

theorem Quiet.setThread {c : Chip} (h : Quiet c) (n t : Nat) (f : Thread → Thread) : Quiet (c.setThread n t f) := h.setPart n _

theorem Chip.setPart_becomes {c : Chip} {n : Nat} {p : PartState} (f : PartState → PartState) (hp : (c.cell n).ps = some p) :
    PartBecomes c (c.setPart n f) n (f p) := by
  refine ⟨rfl, fun m hm => setAt_getD_ne _ _ _ _ _ hm, ?_⟩
  show (setAt c.cells n _).getD n {} = _
  rw [setAt_getD_self _ _ _ _ (Chip.cell_lt hp)]
  show ({ (c.cell n) with ps := (c.cell n).ps.map _ } : Cell) = _
  rw [hp]
  rfl

/-- Two changes of one cell's part are one. -/
theorem Chip.setPart_setPart (c : Chip) (n : Nat) (f g : PartState → PartState) :
    (c.setPart n f).setPart n g = c.setPart n fun p => g (f p) := by
  have : setAt (setAt c.cells n fun x => { x with ps := x.ps.map f }) n (fun x => { x with ps := x.ps.map g }) =
      setAt c.cells n fun x => { x with ps := x.ps.map fun p => g (f p) } := by
    apply List.ext_getElem?
    intro i
    simp only [setAt, List.getElem?_modify]
    cases c.cells[i]? with
    | none => rfl
    | some y =>
      simp only [Option.map_eq_map, Option.map_some]
      split
      · cases y.ps <;> rfl
      · rfl
  simp only [Chip.setPart, Chip.setCell, this]

theorem PartStep.ofSetPart {i : Instr} {s : State} {n : Nat} {p : PartState} {f : PartState → PartState} {q : PartState}
    (hi : exec i s = .next (s.settled (s.chip.setPart n f))) (hp : (s.chip.cell n).ps = some p) (hq : f p = q) : PartStep i s n q := by
  subst hq
  exact ⟨_, hi, Chip.setPart_becomes f hp, fun h => by rw [State.settled, (h.setPart n f).settle]⟩

/-- A departure that fires on time in every unit of its scope has its effect, and nothing drops or defers it. -/
theorem Fires.fireDep {c : Chip} {d : Departure} {t : Nat} (h : Fires c d t) (isIt : Departure → Bool)
    (eff : Departure → List Nat → Chip → Chip) (drops : Departure → Chip → Bool) (hi : isIt d = true)
    (hd : drops d (c.atFiring d t) = false) : c.fireDep isIt eff drops = eff d (depIslands d) (c.fired d t) := by
  have hop : ∀ i, (c.atFiring d t).islOpen i = c.islOpen i := fun _ => rfl
  have hready : (if d.action = 0x0060 then depIslands d else (depIslands d).filter (c.atFiring d t).islOpen) = depIslands d := by
    split
    · rfl
    · next hn =>
      rw [List.filter_eq_self]
      intro i hi
      rw [hop]
      exact (h.opened.resolve_left hn) i hi
  have hshut : (if d.action = 0x0060 then [] else (depIslands d).filter fun i => !(c.atFiring d t).islOpen i) = [] := by
    split
    · rfl
    · next hn =>
      rw [List.filter_eq_nil_iff]
      intro i hi
      rw [hop, (h.opened.resolve_left hn) i hi]
      decide
  have hne : (depIslands d).isEmpty = false := by
    cases hu : depIslands d with
    | nil => exact absurd hu h.units
    | cons _ _ => rfl
  have hheld : heldParts d t (depIslands d) [] = [] := by simp [heldParts]
  have ht : ({ c.atFiring d t with tt := { (c.atFiring d t).tt with deferred := (c.atFiring d t).tt.deferred ++ [] } } : Chip) = c.atFiring d t := by
    rw [List.append_nil]
  simp only [Chip.fireDep, h.first, hi, h.time, Option.getD_some, h.unclamped, decide_eq_false (Nat.not_lt.2 h.onTime), Bool.not_true,
    Bool.false_eq_true, if_false, Chip.fireOn, hready, hshut, List.filter_nil, hheld, ht, List.any_nil, List.isEmpty_nil, if_true, hne, hd]
  rfl

/-- A word that issues runs its meaning. -/
theorem Issues.issue {c : Chip} {cell thread : Fin 64} {word : Nat} {p : PartState} {t : Thread} (h : Issues c cell thread word p t)
    {op : Nat} (ho : wOp word = op) (k : PartState → Thread → Chip → Chip) : c.issue cell thread word op k = k p t c := by
  simp [Chip.issue, h.part, h.thread, h.running, h.issuing, h.notHalted, h.notDebugged, h.started, h.opened, h.ready, h.noneOwed,
    Nat.not_le.2 h.inProgram, h.encoding, h.allotment, ho]

/-- An operation that issues and then only changes its thread. -/
theorem ThreadStep.ofSetThread {i : Instr} {s : State} {n t : Nat} {p : PartState} {x : Thread} {f : Thread → Thread} {y : Thread}
    (hi : exec i s = .next (s.settled (s.chip.setThread n t f))) (hp : (s.chip.cell n).ps = some p) (ht : p.threads[t]? = some x)
    (hy : f x = y) : ThreadStep i s n t y := by
  subst hy
  exact ⟨_, hi, Chip.setThread_becomes f hp ht, fun q => by rw [State.settled, (q.setThread n t f).settle]⟩

end Sys2Proof.Machine
end

