-- ==== Sys2Proof/Machine/Codeword.lean ====
section
/-! DEFINITION. A flit on the lanes: its 640 bytes, its codeword and the striping (13_bilsal_links.md R335, R345, R346). -/

namespace Sys2Proof.Machine

/-! ### The 640 bytes (R345, R346) -/

def padTo (n : Nat) (b : List Byte) : List Byte := b ++ List.replicate (n - b.length) 0

/-- The header of a flit: four entries of token returns. -/
def Flit.header (f : Flit) : List Byte :=
  leBytes 1 f.ftype ++ leBytes 1 f.vc ++ leBytes 2 f.seq ++ leBytes 2 f.ack ++ leBytes 1 f.pkts ++ leBytes 1 0 ++
    (List.range 4).flatMap (fun k => let e := f.tokret.getD k (0, 0); leBytes 2 (e.1 * 1024 + e.2)) ++ leBytes 8 0

/-- A flit as it travels: header, body filled with zeros, and CRC-64. -/
def Flit.bytes (f : Flit) : List Byte :=
  let b := f.header ++ padTo 608 f.body
  b ++ leBytes 8 (crc64 b)

/-! ### The codeword (R335; log entry 74) -/

/-- The 5,140 information bits: the codeword count, the active lanes, and the flit with bit 0 of byte 0 first. -/
def Flit.info (f : Flit) : Nat := f.count % 65536 + f.lanes % 16 * 2 ^ 16 + leNat f.bytes * 2 ^ 20

/-- The 514 symbols of 10 bits, the first to travel first. -/
def Flit.message (f : Flit) : List Nat := (List.range 514).map fun i => f.info / 2 ^ (10 * i) % 1024

/-- A product in GF(1024) with the field polynomial x^10 + x^3 + 1. -/
def gfMul (a b : Nat) : Nat :=
  (List.range 10).foldr (fun k acc =>
    let d := if 512 ≤ acc then (2 * acc) ^^^ 0x409 else 2 * acc
    if b.testBit k then d ^^^ a else d) 0

/-- The generator polynomial, the product of x - 2^j for j from 0 to 29: its coefficients below the leading 1, the highest first. -/
def rsGen : List Nat :=
  (((List.range 30).foldl (fun (g : List Nat × Nat) _ =>
    (List.zipWith (fun x y => x ^^^ y) (g.1 ++ [0]) (0 :: g.1.map (gfMul g.2)), gfMul g.2 2)) ([1], 1)).1).drop 1

/-- The 30 parity symbols of a message: its remainder by the generator polynomial. -/
def rsParity (m : List Nat) : List Nat :=
  m.foldl (fun r s =>
    let fb := s ^^^ r.headD 0
    List.zipWith (fun x g => x ^^^ gfMul fb g) (r.drop 1 ++ [0]) rsGen) (List.replicate 30 0)

def Flit.codeword (f : Flit) : List Nat := f.message ++ rsParity f.message

/-- The logical lanes of a mask, in ascending order. -/
def activeLanes (mask : Nat) : List Nat := (List.range 4).filter fun k => mask.testBit k

/-- What each active lane carries: the symbols are dealt round-robin, one at a time. -/
def Flit.striped (f : Flit) : List (Nat × List Nat) :=
  let lanes := activeLanes f.lanes
  let w := f.codeword
  lanes.zipIdx.map fun (k, i) => (k, (List.range (ceilDiv (w.length - i) lanes.length)).filterMap fun j => w[i + j * lanes.length]?)

/-- What the peer's receivers see of a stream: the codewords that its lanes carried, the newest first. -/
def Chip.onLanes (c : Chip) (l h : Nat) : List (List (Nat × List Nat)) := (c.half l h).out.map Flit.striped

end Sys2Proof.Machine
end

