-- ==== Sys2Proof/WellFormed.lean ====
section
/-! DEFINITION. What makes a command well formed: the lengths and ranges that its row's rules give its operands beyond their types. -/

namespace Sys2Proof

/-- A training observation: four lanes of each kind (13_bilsal_links.md R337). -/
def TrainObs.wf (o : TrainObs) : Bool := o.blocks.length == 4 && o.txLat.length == 4 && o.rxLat.length == 4

/-- A slow wear sample: 8 platforms, 64 cells and 16 depot slices (22_wear.md R555). -/
def WearObs.wf (o : WearObs) : Bool := o.need.length == 8 && o.margins.length == 64 && o.depot.length == 16

/-- The payload of a memory request (15_host_and_memory_ports.md R388). -/
def payloadOk (limit n : Nat) : Bool := decide (1 ≤ n) && decide (n ≤ limit)

/-- A well-formed command: a flit of 640 bytes, a sync code frame of 7, a request of 1 to 4,096 bytes, every sensor of a sample, and the rest within its range. -/
def Instr.wf : Instr → Bool
  | .porstRise _ => true
  | .porstLowPulse _ _ => true
  | .flashRecoveryExpiry sfdpA sfdpB _ _ => decide (sfdpA ≤ 2 ^ 32) && decide (sfdpB ≤ 2 ^ 32)
  | .slotStreamDone _ _ _ _ => true
  | .flashReadTimeout => true
  | .attemptRetry _ _ => true
  | .hbmTrainingDone _ => true
  | .handOver => true
  | .platformOpenTimeout _ => true
  | .i1OpenTimeout => true
  | .linkWindowExpiry => true
  | .lockTimeoutExpiry => true
  | .ohmaxSilentTimeout => true
  | .startupDeadlineExpiry => true
  | .timeFlitSend _ _ _ => true
  | .timeFlitReceive _ _ cw _ _ => cw.flit.length == 640
  | .coldStartRoot => true
  | .turnBoundary seen => seen.stretch.length <= 14
  | .twoPhaseArmTimeout => true
  | .logMark => true
  | .telemetrySnapshot => true
  | .wearSample obs => obs.wf
  | .syncAdjust => true
  | .turnSet => true
  | .amendCommit => true
  | .weightSwitchStage => true
  | .weightSwitchCommit => true
  | .weightSwitchAbort => true
  | .collectiveLaunch => true
  | .taskPost => true
  | .doorbell => true
  | .islandOpen => true
  | .islandClose => true
  | .enterP2 => true
  | .enterP3 => true
  | .clockSet => true
  | .clockSettled _ => true
  | .syncPpsEdge _ _ => true
  | .syncCodeFrame _ frame => frame.length == 7
  | .syncIntervalMissing => true
  | .ttNowLoRead => true
  | .ttCntclr _ => true
  | .nop _ _ _ => true
  | .cellEnd _ _ _ => true
  | .sli _ _ _ => true
  | .salu _ _ _ => true
  | .scmp _ _ _ => true
  | .br _ _ _ => true
  | .lbegin _ _ _ => true
  | .lnext _ _ _ => true
  | .flgrd _ _ _ => true
  | .flgtrap _ _ _ => true
  | .fence _ _ _ => true
  | .bar _ _ _ => true
  | .rres _ _ _ => true
  | .rresWaitGrant _ => true
  | .rwr _ _ _ => true
  | .rcom _ _ _ => true
  | .rtake _ _ _ => true
  | .rtakeWaitDeliver _ => true
  | .rmile _ _ _ => true
  | .rdone _ _ _ => true
  | .darm _ _ _ => true
  | .dcan _ _ _ => true
  | .dwait _ _ _ => true
  | .dwaitWake _ _ => true
  | .tnow _ _ _ => true
  | .lds _ _ _ _ _ => true
  | .sts _ _ _ => true
  | .ldv _ _ _ _ _ => true
  | .stv _ _ _ => true
  | .xget _ _ _ => true
  | .xput _ _ _ => true
  | .xwait _ _ _ => true
  | .xatom _ _ _ => true
  | .transferComplete _ _ _ _ _ => true
  | .transferClosedLimit _ _ _ => true
  | .stage _ _ _ _ _ => true
  | .mma _ _ _ => true
  | .accrd _ _ _ => true
  | .accwr _ _ _ => true
  | .accst _ _ _ => true
  | .vadd _ _ _ => true
  | .vmul _ _ _ => true
  | .vfma _ _ _ => true
  | .vmin _ _ _ => true
  | .vmax _ _ _ => true
  | .vcmp _ _ _ => true
  | .vsel _ _ _ => true
  | .vbcast _ _ _ => true
  | .vred _ _ _ => true
  | .vcvt _ _ _ => true
  | .sfn _ _ _ => true
  | .roph _ _ _ => true
  | .dice _ _ _ => true
  | .vcvts _ _ _ => true
  | .migrationEpoch => true
  | .wagonMoveSwitch _ => true
  | .hbmStackFail _ => true
  | .memUclrHiWrite _ => true
  | .reservationTimeout _ => true
  | .itemDoorbell _ _ _ data => payloadOk 4096 data.length
  | .tailDoorbell _ _ _ data => payloadOk 4096 data.length
  | .consumeDoorbell _ _ _ data => payloadOk 4096 data.length
  | .ringDrainFlush _ => true
  | .ringDrainEnd _ => true
  | .ringCutFlush _ => true
  | .taskSelect => true
  | .coldStartDone _ => true
  | .quiesceDone _ _ _ => true
  | .quiesceAbandon _ => true
  | .preemptRetryTimer _ seq => decide (seq < 2 ^ 32)
  | .switchSaveDone _ => true
  | .switchLoadDone _ => true
  | .wsetStreamDone _ _ => true
  | .wsetStreamFail _ => true
  | .noCellTimeout => true
  | .seqJoin _ => true
  | .seqCancel => true
  | .seqResume => true
  | .seqTtl => true
  | .parkCopyDone => true
  | .seqOverrunStart => true
  | .bankReleased _ => true
  | .turntableReadyReport _ pkg => decide (pkg < 2320)
  | .turntableReadyTimeout _ => true
  | .turntableStreamStart _ => true
  | .turntableDoneReport _ pkg => decide (pkg < 2320)
  | .turntableDoneTimeout _ => true
  | .linkTrainStart _ _ => true
  | .linkTrainPhaseEnd _ _ seen => seen.wf
  | .linkTrainRetry _ _ => true
  | .laneExclude _ _ => true
  | .linkctlReceive _ _ cw => cw.flit.length == 640
  | .widthChangeLocked _ _ => true
  | .widthChangeTimeout _ _ => true
  | .dataFlitReceive _ _ flit _ => flit.length == 640
  | .idleFlitReceive _ _ cw => cw.flit.length == 640
  | .nakReceive _ _ cw => cw.flit.length == 640
  | .replayTimeout _ _ => true
  | .linkRetrain _ => true
  | .linkEnableChange _ _ => true
  | .laneMapChange _ _ => true
  | .readReceive _ _ _ _ => true
  | .readDataReceive _ _ => true
  | .writeReceive _ _ => true
  | .writeAckReceive _ _ => true
  | .atomicReceive _ _ _ => true
  | .atomicRespReceive _ _ => true
  | .ringOpReceive _ _ => true
  | .ringRespReceive _ _ => true
  | .closedReceive _ _ => true
  | .bounceReceive _ _ => true
  | .errorReceive _ _ => true
  | .lsaReceive _ _ => true
  | .lsaRefresh => true
  | .eyeRemeasure _ _ => true
  | .expressPipReceive _ _ => true
  | .streamReceive _ _ => true
  | .collectiveTimeout _ _ => true
  | .pipArm _ _ => true
  | .pipArmAck _ _ => true
  | .pipArmCancel _ _ => true
  | .fxPerstDeassert _ => true
  | .fxPerstAssert _ => true
  | .fxLinkL0 _ _ _ => true
  | .fxFunctionReady _ => true
  | .pcieConfigRequest _ _ _ _ _ => true
  | .bar2Write _ _ _ data => payloadOk 4096 data.length
  | .bar2Read _ _ _ len _ _ => payloadOk 4096 len
  | .statusWindowWrite _ _ _ data => payloadOk 4096 data.length
  | .spdmGetVersion _ => true
  | .spdmGetCapabilities _ => true
  | .spdmNegotiateAlgorithms _ => true
  | .spdmGetDigests _ => true
  | .spdmGetCertificate _ _ _ _ => true
  | .spdmChallenge _ _ => true
  | .spdmGetMeasurements _ _ _ => true
  | .cxlCorrectableError _ => true
  | .cxlFatalError _ _ => true
  | .cxlReadTimeout _ => true
  | .fxRetrain _ => true
  | .roceSendReceive _ _ _ data _ => decide (data.length ≤ 2 ^ 31)
  | .roceWriteImmReceive _ _ _ _ _ data _ => decide (data.length ≤ 2 ^ 31)
  | .rdmaWriteReceive _ _ _ _ data _ => decide (data.length ≤ 2 ^ 31)
  | .rdmaReadRequest _ _ _ _ len _ _ _ => decide (len ≤ 2 ^ 31)
  | .cnpReceive _ _ => true
  | .cnpRateRecovery _ => true
  | .egressSend _ _ => true
  | .egressAck _ _ => true
  | .qpReset _ _ => true
  | .ptpEventMessage _ => true
  | .portWallPublish _ => true
  | .amendRecordTake _ _ => true
  | .classCDrained _ => true
  | .classCHalfDrainSave _ => true
  | .classCDrainTimeout _ => true
  | .classCApplyTimeout _ _ => true
  | .placementChange _ _ => true
  | .platformRoleChange _ _ => true
  | .controlRegisterWrite _ _ _ _ _ => true
  | .controlDecodeError _ _ addr _ _ _ _ => decide (addr < 2 ^ 34)
  | .closedIslandAccess _ _ _ _ => true
  | .bridgeAccess _ _ _ _ _ _ _ => true
  | .sbRemapWrite _ => true
  | .sbHbeatWrite _ => true
  | .coreWatchdogExpiry _ => true
  | .pointsChange _ => true
  | .pointsChangeQuiet _ => true
  | .pointsChangeInputReady _ _ => true
  | .gpioOutWrite _ _ => true
  | .pinShortDetect _ => true
  | .pinFaultRetry _ _ => true
  | .turnStrobeAssert _ => true
  | .turnStrobeDeassert _ => true
  | .consoleCommand _ => true
  | .lampFrameEnd => true
  | .lampActionPoint => true
  | .lampDazzle _ _ => true
  | .lampBlankEnd _ _ => true
  | .lampAbsent _ => true
  | .lampReplyStart => true
  | .lampReplyDrop => true
  | .lampTxEnd => true
  | .lampNoReply => true
  | .lampIdent => true
  | .lampStatus => true
  | .lampLedgerRead => true
  | .lampChallenge => true
  | .lampTokenChunk => true
  | .lampUnlock _ _ => true
  | .lampLock => true
  | .lampAmdChunk => true
  | .lampAmdPost => true
  | .lampSessionExpiry => true
  | .lampNonceExpiry => true
  | .lampRsendWrite _ => true
  | .islandPrepareDone _ => true
  | .islandClosed _ => true
  | .islandClosingLimit _ => true
  | .islandOpenEdge _ => true
  | .bounceExpiry => true
  | .p2EntryComplete => true
  | .wakeAlarm _ _ => true
  | .wakePin _ _ _ _ => true
  | .wakeRailTimeout => true
  | .avsTargetUpdate _ => true
  | .avsDroop _ _ _ => true
  | .brownOut rail => decide (rail < 13)
  | .aoPowerOnReset => true
  | .thermalSample plat port hbm => plat.length == 8 && port.length == 2 && hbm.length == 8
  | .thermalTrip => true
  | .powerEstimate _ _ => true
  | .powerSustainedGate => true
  | .lifecycleTransition _ _ => true
  | .keySlotProgram => true
  | .kekProgram => true
  | .keyRevoke _ => true
  | .rollbackFloorRaise _ => true
  | .fuseProgramDone _ => true
  | .debugChallenge => true
  | .debugRequest _ _ _ => true
  | .debugSessionExpiry => true
  | .debugNonceExpiry => true
  | .cellHalt _ _ => true
  | .coreHalt _ => true
  | .debugDataAccess _ _ => true
  | .debugReleaseTimeout => true
  | .tapBypass => true
  | .tapIdcode => true
  | .tapSamplePreload _ => true
  | .tapExtest _ => true
  | .tapClamp _ => true
  | .tapHighz _ => true
  | .tapDapacc => true
  | .tapAoacc _ => true
  | .faultHandlingEnd => true
  | .packageStopPassEnd _ => true
  | .lostRecord => true
  | .quarantineRelease _ _ => true
  | .faultDiscard _ => true
  | .fastMonitorSample tjPlat tjPort tjHbm _ _ => tjPlat.length == 8 && tjPort.length == 2 && tjHbm.length == 8
  | .slowMonitorSample obs => obs.wf
  | .dailyPrediction => true
  | .i3cEntdaa _ => true
  | .i3cSetdasa _ => true
  | .i3cRstdaa => true
  | .i3cEnec => true
  | .i3cDisec => true
  | .i3cGetpid => true
  | .i3cGetbcr => true
  | .i3cGetdcr => true
  | .i3cGetstatus => true
  | .i3cGetmwl => true
  | .i3cGetmrl => true
  | .i3cPrivateWrite data _ _ => decide (2 ≤ data.length)
  | .i3cPrivateRead count => decide (count ≤ 256)
  | .lampRxPulse _ _ => true
  | .cxlLinkUp _ _ _ _ => true
  | .ethernetLinkChange _ _ => true
  | .queuePairError _ _ => true
  | .engineInternalError _ => true
  | .signalBoxHardwareFailure _ => true
  | .railReturn _ => true
  | .vddCoreRecovery _ _ => true
  | .platformOpenInterval => true

end Sys2Proof
end

