-- ==== Sys2Proof/Tests/Slice0.lean ====
section
/-! SUPPORT. The model's own tests: a state and operands for every statement with hypotheses, ill-formed commands that the check refuses, and a few values from the spec. -/

set_option linter.unusedVariables false

namespace Sys2Proof.Machine

set_option Elab.async false

/-! ### Small packages -/

/-- Every island is open. -/
def openChip : Chip := { isl := List.replicate 14 { st := .opened } }
/-- Half-link 0 of link 0 is up. -/
def upChip : Chip := { openChip with net := { links := [{ halves := [{ st := .up }, {}] }] } }
/-- A TIME flit with nothing else in it. -/
def timeFlit : List Byte :=
  let b := 2 :: List.replicate 631 0
  b ++ leBytes 8 (crc64 b)
theorem timeFlit_good : flitGood timeFlit = true := flitGood_mk (by rw [List.length_cons, List.length_replicate])
/-- A flit whose first bytes are given, with zeros after them and its CRC. -/
def wholeFlit (b : List Byte) : List Byte :=
  let f := b ++ List.replicate (632 - b.length) 0
  f ++ leBytes 8 (crc64 f)
theorem wholeFlit_good (b : List Byte) (h : b.length ≤ 632) : flitGood (wholeFlit b) = true :=
  flitGood_mk (by rw [List.length_append, List.length_replicate]; omega)
/-- The sync station, in a mode. -/
def syncChip (mode : Nat) : Chip :=
  { image := some { roster := [⟨[], 0, false, true⟩], clk := { syncMode := mode } }, tt := { sync := { st := .track } } }
/-- A departure at tick 5. -/
def depOf (action scope arg : Nat) : Departure :=
  { id := 7, whenAt := .once 5, action := action, scope := scope, order := 0, arg := arg, log := false, armNo := 0 }
/-- A package in which it is the only one. -/
def depChip (action scope arg : Nat) : Chip := { openChip with tt := { deps := [depOf action scope arg] } }

/-- A turntable plan of one channel with zeros, whose source is package 0. -/
def trnBytes : List Byte := [0, 0, 0, 0, 1] ++ List.replicate 427 0
def trnChanOf : TrnChan := parseTrnChan (trnBytes.drop 64)
/-- A WEIGHT_SWITCH of channel 0 is the next departure; `op` is its operation, of version 1. -/
def trnChip (op : Nat) : Chip := { depChip 0x0030 0 (2 ^ 32 + op) with image := some { blobs := [⟨trnPlanBlob, 2, trnBytes⟩] }, trn := [{}] }
/-- A package whose object 1 holds a task item at OFFSET 64 for ring 0x12, with program 5. -/
def taskChip : Chip :=
  { openChip with
    image := some { rings := [⟨0x12, false, 1, []⟩], objs := [⟨1, 0, false, 0xFFFF, 0, 65536, 0xFFFFFFFF⟩], blobs := [⟨5, 1, [0, 0]⟩] }
    regs := [(ringReg 0x12 0, 0x10000)]
    mem := { bytes := [(64, 2), (65, 1), (80, 5), (88, 0xFF), (89, 0xFF), (96, 1), (97, 8), (99, 1)], wagons := [(0, { loc := .hbm })] } }
def postChip : Chip := { taskChip with tt := { deps := [depOf 0x0050 0 0x100012] } }

/-- The part of task 3 of ring 0x10, and that task. -/
def partOf : Part := ⟨16, 3, 0, 1, 5, 1, 8, 1, 0, 0, 0⟩
def taskOf : Task := { ring := 16, seq := 3 }
/-- A light switch in a phase, for part 0 of that task. -/
def switchOf (phase : Nat) : Switch := ⟨phase, 1, 1, some (16, 3, 0), false, false, false⟩
/-- Cell 0 quiesces while a transfer is outstanding. -/
def busyChip : Chip := { cells := [{ switch := some (switchOf 0) }], xfers := [⟨0, 0, 0, .get, 0, 0, 64, [], [], 0, .here, 0, 0, none, 0⟩] }
/-- Cell 0 makes a cold start. -/
def startChip : Chip := { openChip with cells := [{ st := .run, ps := some { part := partOf }, starting := some 9 }], disp := { tasks := [taskOf] } }
/-- The candidate of ring 0x12 can go to an idle cell. -/
def candChip : Chip := { openChip with cells := List.replicate 64 { st := .idle }, disp := { tasks := [{ taskOf with taken := true }] } }
def candOf : Cand := ⟨(1, 15, 4294967296), { taskOf with taken := true }, 0, false⟩
/-- A weight set that streams from this package's object 1 over itself. -/
def wsetOf : Wset := { id := 1, st := .streaming, src := 0, dst := 1, bytes := 64 }

/-- A sequence plan of one model, whose join ring is 6 and control ring 5. -/
def seqBytes : List Byte :=
  [0, 0, 0, 0, 1] ++ List.replicate 23 0 ++ [5] ++ List.replicate 15 0 ++ [1] ++ List.replicate 23 0 ++ [6] ++ List.replicate 7 0 ++ [10] ++
    List.replicate 51 0
def seqPlanOf : SeqPlan := parseSeqPlan seqBytes
/-- Ring `r` holds one committed item of two words. -/
def ctlChip (r : Nat) (item : List Byte) : Chip :=
  { openChip with
    image := some { blobs := [⟨seqPlanBlob, 2, seqBytes⟩] }
    regs := [(ringReg r 0, 1)]
    rings := [(r, { st := .opened, resv := 2, cmt := 2, nextSeq := 1, items := [{ idx := 0, words := 2, seq := 0, st := .committed }] })]
    mem := { sysWords := swrite [] (sysKey r 0) item } }
def joinItem : List Byte := [2, 0x0B] ++ List.replicate 14 0 ++ [1, 0, 0, 0, 9, 0, 0, 0, 10, 0, 0, 0]
/-- A control item of one word for sequence 9, in a ring of two. -/
def ctlItem (op ms : Nat) : List Byte := [1, 0x0B] ++ List.replicate 14 0 ++ [BitVec.ofNat 8 op, 0, 0, 0, 9, 0, 0, 0] ++ (if op = 4 then leBytes 4 ms else [])
/-- A turntable plan of one channel whose source is package 1 and whose one member is package 0. -/
def trnBytes1 : List Byte := [0, 0, 0, 0, 1] ++ List.replicate 61 0 ++ [1] ++ List.replicate 61 0 ++ [1] ++ List.replicate 303 0
def trnChanOf1 : TrnChan := parseTrnChan (trnBytes1.drop 64)
def trnChip1 : Chip := { openChip with image := some { blobs := [⟨trnPlanBlob, 2, trnBytes1⟩] } }
def colDescOf : ColDesc := ⟨0, 0, 0, 0, 0, 0, 0, 0, 0, 0, false, false⟩
/-- Link 0 holds a received packet for this package. -/
def recvPkt (typ : Nat) (data : List Byte) : Packet := { typ := typ, dst := 0, src := 1, data := data }
def recvChip (typ : Nat) (data : List Byte) : Chip :=
  { openChip with net := { links := [{ halves := [{ st := .up, recv := [⟨0, [recvPkt typ data]⟩] }, {}] }] } }
def armOf : ArmRec := { pkg := 0, dep := 7, yard := false, launch := 0, time := 0, period := 0, action := 1, scope := 0x400, order := 0, arg := 0, log := false }
/-- Records were lost, and ring 0x0002 has room. -/
def ledgerChip : Chip := { openChip with boot := { step := 18 }, regs := [(ringReg 2 0, 10)], rings := [(2, { st := .opened })], flt := { lostSince := 4 } }
/-- Bridge window 0 shows an object of this package. -/
def bridgeChip : Chip :=
  { openChip with
    image := some { objs := [⟨1, 0, false, 0xFFFF, 0, 65536, 0xFFFFFFFF⟩] }
    mem := { wagons := [(0, { loc := .hbm })] } }
/-- A packet that a closed island bounced. -/
def heldOf : HeldPacket := ⟨{ typ := 0, dst := 1, src := 0 }, 5, true⟩
/-- Link 0 is planned and enabled, and has not trained, or has failed to. -/
def planChip : Chip :=
  { openChip with image := some { roster := [⟨[], 0, false, true⟩], links := [[{ peerA := 1, linkA := 0, kind := 1 }]] }, regs := [(rLNK_CTL, 1)], boot := { step := 18 } }
def failedChip : Chip := { planChip with net := { links := [{ halves := [{ st := .down, lastFail := 4 }, {}] }] } }
/-- A debug session at level D3. -/
def dbgOpen : Chip := { openChip with sec := { dbg := { level := 3 } } }
/-- Link 0 is in service on receive lanes `m`, and transmits on lanes `t`. -/
def laneChip (m t : Nat) : Chip :=
  { openChip with net := { links := [{ rx := [{}, { logical := 1 }, {}, {}], halves := [{ st := .up, rxPhys := m, rxMask := m, txMask := t }, {}] }] } }
/-- A stream of link 0 in a state. -/
def halfChip (x : LinkHalf) : Chip := { openChip with net := { links := [{ halves := [x, {}] }] } }
def trainChip : Chip := halfChip { st := .training }
def widthChip : Chip := halfChip { st := .widthchg }
def sentChip : Chip := halfChip { st := .up, sent := [⟨7, 0, false, []⟩] }
/-- A class-C procedure of a scope, with no operations, that began at 0 and has 5 ticks. -/
def procOf (scope : Nat) : AmdProc := { env := ⟨0, 0, 0, 0, 0, 0, 0xFFFFFFFF, [], 0, none, false⟩, scope := scope, since := 0, limit := 5, ops := [] }
/-- A procedure of link 0 that writes a value to the bits of a mask of a register. -/
def linkAmdChip (a m v : Nat) : Chip := { openChip with amd := { procs := [{ procOf 0x200 with ops := [⟨a, m, v⟩] }] } }
/-- A procedure of platform 1, which saves its cell 8. -/
def procChip : Chip := { openChip with amd := { procs := [procOf 0x101] }, cells := List.replicate 9 { switch := some (switchOf 0) } }
/-- Ohmax runs, and ring 0x0000 holds one item. -/
def amdChip : Chip :=
  { openChip with
    boot := { step := 18 }
    regs := [(ringReg 0 0, 1), (ringReg 1 0, 10)]
    rings := [(0, { st := .opened, resv := 2, cmt := 2, nextSeq := 1, items := [{ idx := 0, words := 2, seq := 0, st := .committed }] }), (1, { st := .opened })] }
/-- The lamp receiver and transmitter work. -/
def lampChip0 : Chip := { pins := List.replicate 40 {} ++ [{ cfg := { fn := fnLampTx }, attached := true }, { cfg := { fn := fnLampRx }, attached := true }] }
/-- The symbols of a whole IDENT frame. -/
def lampSymbols : List Nat :=
  let b : List Byte := [0xC5, 1, 0, 0]
  (b ++ leBytes 2 (crc16 b)).flatMap fun x => [x.toNat % 4, x.toNat / 4 % 4, x.toNat / 16 % 4, x.toNat / 64]
def lampCmdOf : LampCmd := ⟨0x01, 0, [], 5⟩
def lampCmdAt (cmd : Nat) : LampCmd := ⟨cmd, 0, [], 5⟩
def lampReplyOf : LampReply := ⟨0x01, 0, [], 5, 6⟩
def lampServing (cmd : Nat) : Chip := { lamp := { serving := some (lampCmdAt cmd) } }
/-- Ohmax serves a command whose item stands in ring 0x0005. -/
def lampOhmaxOf (cmd : Nat) : Chip :=
  { openChip with
    boot := { step := 18 }, lamp := { serving := some (lampCmdAt cmd), itemAt := some 5 }, regs := [(ringReg 5 0, 1)]
    rings := [(5, { st := .opened, resv := 1, cmt := 1, nextSeq := 1, items := [{ idx := 0, words := 1, seq := 0, st := .committed }] })] }
/-- Flex port 0 is a live endpoint, and Ohmax runs. -/
def fxChip : Chip := { openChip with boot := { step := 18 }, ports := { fx := [{ link := 2, ready := true }, {}] } }
/-- The same with the algorithms agreed. -/
def fxChipS : Chip := { fxChip with ports := { fxChip.ports with spdmVersion := true, spdmCaps := true, spdmAlgs := true } }
/-- Queue pair 9 of Ethernet port 0: it delivers to ring 0x12 and sends from it. -/
def qpBytes : List Byte := [0, 3, 0x12, 0, 9, 0, 0, 0] ++ List.replicate 24 0
/-- A port plan: flex port 0 an endpoint with a window of 2 MiB, flex port 1 a CXL host port, both Ethernet ports with the key 7 and one queue pair. -/
def portBytes : List Byte :=
  [0, 0, 0, 0, 1, 2, 16, 8] ++ List.replicate 16 0 ++ [21, 0, 1, 0] ++ List.replicate 36 0 ++
    ([1] ++ List.replicate 31 0 ++ [7, 0, 0, 0, 0, 16] ++ List.replicate 26 0) ++ ([1] ++ List.replicate 31 0 ++ [7, 0, 0, 0, 0, 16] ++ List.replicate 26 0) ++ qpBytes
/-- Flex port 0 is live under that plan, and the memory holds an object. -/
def winChip : Chip :=
  { fxChip with
    image := some { blobs := [⟨0xFFFF0002, 2, portBytes⟩], objs := [⟨1, 0, false, 0xFFFF, 0, 65536, 0xFFFFFFFF⟩], rings := [⟨0x12, false, 1, []⟩] }
    mem := { wagons := [(0, { loc := .hbm })] } }
/-- Flex port 1 trains as a CXL port, and has trained. -/
def cxlChip : Chip := { winChip with ports := { fx := [{}, { link := 1 }] } }
def cxlUp : Chip := { winChip with ports := { fx := [{}, { link := 2 }] } }
/-- Both Ethernet ports are up under that plan, and ring 0x12 holds an item. -/
def qpChip : Chip :=
  { winChip with
    ports := { eth := [{ up := true }, { up := true }] }
    regs := [(ringReg 0x12 0, 0x1)]
    rings := [(0x12, { st := .opened, resv := 1, cmt := 1, nextSeq := 1, items := [{ idx := 0, words := 1, seq := 0, st := .committed }] })] }
/-- The queue pair has taken item 4; `out` says that its SEND is outstanding. -/
def qpTook (out : Bool) : Chip := { qpChip with ports := { qpChip.ports with qps := [{ port := 0, qpn := 9, epsn := 0, spsn := 0, item := some (4, out) }] } }
theorem witness_EmptyQueueIdles :
    (∃ s : State, s.pending = [] ∧ s.chip.pwr.st = .standby) ∧ (∃ s : State, s.pending = [] ∧ s.chip.pwr.st ≠ .standby) :=
  ⟨⟨{ chip := { pwr := { st := .standby } } }, by decide⟩, ⟨{}, by decide⟩⟩

theorem witness_FusesChangeOnlyByFive :
    (∃ (i : Instr) (s t : State), mayProgram i = false ∧ exec i s = .next t) ∧ (∃ s t : State, s.pending = [] ∧ step s = .next t) :=
  ⟨⟨.tapBypass, {}, _, rfl, rfl⟩, ⟨{}, _, rfl, rfl⟩⟩

theorem witness_FusesOnlyMoveForward : ∃ (o : Otp) (s t : State), o.Since s.otp ∧ step s = .next t :=
  ⟨resetOtp, State.reset, _, ⟨rfl, rfl, rfl, fun n x h => ⟨x, h, fun h => ⟨h, rfl⟩, id, fun _ => rfl⟩, rfl,
    fun n x h => ⟨x, h, id, fun h => ⟨h, rfl, .inl rfl⟩⟩, .inl rfl, ⟨[], rfl⟩, Nat.le_refl _⟩, rfl⟩

theorem witness_FusesStayWellFormed : ∃ s t : State, s.otp.WellFormed ∧ step s = .next t :=
  ⟨State.reset, _, by constructor <;> decide, rfl⟩

theorem witness_LifecycleMoves : ∃ (i : Instr) (s t : State), exec i s = .next t ∧ t.otp.lc ≠ s.otp.lc :=
  ⟨.lifecycleTransition true {}, { otp := resetOtp, chip := { sec := { progs := [.lifecycle 4] } } }, _, rfl, by decide +kernel⟩

theorem witness_AntiRollbackFloor :
    (∃ (o : Otp) (l : List Word) (w : Word), o.rollback = l ++ [w]) ∧ (∃ o : Otp, o.rollback = []) ∧ (∃ o : Otp, (floorWho o.lc).isSome = true) ∧
    (∃ (o : Otp) (c : Chip) (v : Nat) (rest : List ProgOp), c.sec.progs = .floor v :: rest ∧ o.floor < v ∧ o.rollback.length < 16) ∧
    (∃ (i : Instr) (s t : State), exec i s = .next t ∧ 16 ≤ s.otp.rollback.length) ∧
    (∃ (i : Instr) (s t : State), exec i s = .next t ∧ t.otp.rollback ≠ s.otp.rollback) :=
  ⟨⟨{ rollback := [7] }, [], 7, rfl⟩, ⟨{}, rfl⟩, ⟨resetOtp, by decide⟩, ⟨{}, { sec := { progs := [.floor 1] } }, 1, [], rfl, by decide, by decide⟩,
   ⟨.tapBypass, { otp := { rollback := List.replicate 16 1 } }, _, rfl, by decide⟩,
   ⟨.fuseProgramDone true, { chip := { sec := { progs := [.floor 1] } } }, _, rfl, by decide⟩⟩

theorem witness_ReadPathsHideSecrets : ∃ o o' : Otp, o.AgreeButSecrets o' ∧ o ≠ o' :=
  ⟨resetOtp, { resetOtp with seed := [] }, ⟨rfl, rfl⟩, by decide⟩

theorem witness_NextDepartureIsFirst :
    (∃ (t : Timetable) (turn : Nat) (d : Departure), nextDep t turn = some d) ∧ (∃ (t : Timetable) (turn : Nat), nextDep t turn = none ∧ t.running = false) :=
  ⟨⟨(depChip 1 0 0).tt, 800000, depOf 1 0 0, by decide⟩, ⟨{}, 800000, by decide⟩⟩

theorem witness_CancelNeedsTheLead :
    (∃ (c : Chip) (id : Nat) (d : Departure), c.tt.deps.find? (fun x => x.id == id) = some d ∧ c.tt.counter + armLead d.scope ≤ c.depTick d) ∧
    (∃ (c : Chip) (id : Nat) (d : Departure), c.tt.deps.find? (fun x => x.id == id) = some d ∧ c.depTick d < c.tt.counter + armLead d.scope) :=
  ⟨⟨{ openChip with tt := { deps := [{ depOf 1 0 0 with whenAt := .once 32000 }] } }, 7, { depOf 1 0 0 with whenAt := .once 32000 }, by decide⟩,
   ⟨{ openChip with tt := { deps := [{ depOf 1 0 0 with whenAt := .once 31999 }] } }, 7, { depOf 1 0 0 with whenAt := .once 31999 }, by decide⟩⟩

theorem witness_RegisterWriteBits :
    (∃ (s : RegSpec) (n : Nat), n < 32 ∧ s.rw.toNat.testBit n = true ∧ s.w1c.toNat.testBit n = false) ∧
    (∃ (s : RegSpec) (n : Nat), n < 32 ∧ s.rw.toNat.testBit n = false ∧ s.w1c.toNat.testBit n = true) ∧
    (∃ (s : RegSpec) (n : Nat), n < 32 ∧ s.rw.toNat.testBit n = false ∧ s.w1c.toNat.testBit n = false) :=
  ⟨⟨⟨0, 1, 0, 0, 0x80000000, 0, 0, 0, false⟩, 31, by decide⟩, ⟨⟨0, 1, 0, 0, 0, 1, 0, 0, false⟩, 0, by decide⟩, ⟨⟨0, 1, 0, 0, 0, 1, 0, 0, false⟩, 31, by decide⟩⟩

theorem witness_WriteOnReadOnlyField :
    (∃ (o : Otp) (c : Chip) (a v : Nat) (s : RegSpec), regSpecAt a = some s ∧ c.regAction o a v [] = none ∧ s.rw = 0 ∧ s.w1c = 0 ∧ s.am = 0) ∧
    (∃ (o : Otp) (c : Chip) (a v : Nat) (s : RegSpec), regSpecAt a = some s ∧ c.regAction o a v [] = none ∧ s.rw = 0 ∧ s.w1c = 0 ∧ s.am ≠ 0) :=
  ⟨⟨{}, {}, rSB_PKGID, 5, ⟨rSB_PKGID, 1, 0, 0, 0, 0, 0, 0, true⟩, by decide⟩,
   ⟨{}, {}, rTT_TURN_LO, 5, ⟨rTT_TURN_LO, 1, 0, 0, 0, 0, 0, 0xFFFFFFFF, false⟩, by decide⟩⟩

theorem witness_StartUpCommandsComplete :
    (∃ (o : Otp) (c : Chip) (ticks : Nat) (obs : BootObs), (ticks < 1600)) ∧
    (∃ (o : Otp) (c : Chip) (ticks : Nat) (obs : BootObs), (16000 ≤ ticks)) ∧
    (∃ (o : Otp) (c : Chip) (ticks : Nat) (obs : BootObs), (1600 ≤ ticks) ∧ (ticks < 16000)) ∧
    (∃ (o : Otp) (c : Chip) (sfdpA sfdpB : Nat) (openA openB : BitVec 9) (t : Nat), (c.boot.step = 5) ∧ (c.boot.stopped = false) ∧ (c.boot.waitUntil = some t)) ∧
    (∃ (o : Otp) (c : Chip) (ecdsa endEcdsa mldsa endMldsa : List SigCheck), (c.streaming = true)) ∧
    (∃ (o : Otp) (c : Chip), (c.streaming = true)) ∧
    (∃ (o : Otp) (c : Chip) (checkA checkB : Word) (t : Nat), (5 < c.boot.step) ∧ (c.boot.stopped = false) ∧ (c.boot.waitUntil = some t)) ∧
    (∃ (o : Otp) (c : Chip) (mask : BitVec 8), (c.boot.hbmWait = true) ∧ (c.boot.stopped = false)) ∧
    (∃ (o : Otp) (c : Chip) (im : Image), (c.boot.loaded = some im) ∧ (c.boot.step = 12) ∧ (c.boot.hbmWait = false) ∧ (c.boot.stopped = false)) ∧
    (∃ (o : Otp) (c : Chip) (isl : Fin 14), ((c.island isl.val).st = .opening) ∧ (1 < isl.val)) ∧
    (∃ (o : Otp) (c : Chip), ((c.island 1).st = .opening) ∧ (c.boot.step = 3) ∧ (c.boot.stopped = false)) ∧
    (∃ (o : Otp) (c : Chip) (c1 : Chip), (c.boot.step = 15) ∧ (c.boot.stopped = false) ∧ (c1 = if (c.passTo (c.boot.linkAt + c.im.clk.linkWindow)).mem.backed then c.passTo (c.boot.linkAt + c.im.clk.linkWindow) else (c.passTo (c.boot.linkAt + c.im.clk.linkWindow)).backLate)) ∧
    (∃ (o : Otp) (c : Chip), (c.boot.step = 16) ∧ (c.boot.stopped = false) ∧ (c.boot.code ≠ 3) ∧ (c.im.clk.lockRequired = false)) ∧
    (∃ (o : Otp) (c : Chip) (c1 : Chip), (c.boot.step = 16) ∧ (c.boot.stopped = false) ∧ (c.boot.code ≠ 3) ∧ (c.im.clk.lockRequired = true) ∧ (c1 = c.passTo (c.boot.lockAt + c.im.clk.lockTimeout))) ∧
    (∃ (o : Otp) (c : Chip) (t : Nat), (c.boot.ohmaxAt = some t) ∧ (13 ≤ c.boot.step) ∧ (c.boot.step ≤ 17) ∧ (c.boot.stopped = false)) ∧
    (∃ (o : Otp) (c : Chip) (slot : Nat), (3 ≤ c.boot.step) ∧ (c.boot.step < 13) ∧ (c.boot.stopped = false) ∧ (slot = (match c.boot.chosen with | some 0 => c.boot.slotA | some _ => c.boot.slotB | none => 0))) :=
  ⟨⟨{}, {}, 100, {}, by decide⟩,
   ⟨{}, {}, 16000, {}, by decide⟩,
   ⟨{}, {}, 1600, {}, by decide⟩,
   ⟨{}, { boot := { step := 5, waitUntil := some 1 } }, 0, 0, 0, 0, 1, by decide⟩,
   ⟨{}, { boot := { step := 9, chosen := some 0 } }, [], [], [], [], by decide⟩,
   ⟨{}, { boot := { step := 9, chosen := some 0 } }, by decide⟩,
   ⟨{}, { boot := { step := 9, waitUntil := some 1 } }, 0, 0, 1, by decide⟩,
   ⟨{}, { boot := { hbmWait := true } }, 0xFF, by decide⟩,
   ⟨{}, { boot := { step := 12, loaded := some {} } }, {}, by decide⟩,
   ⟨{}, { isl := List.replicate 14 { st := .opening } }, 2, by decide⟩,
   ⟨{}, { isl := List.replicate 14 { st := .opening }, boot := { step := 3 } }, by decide⟩,
   ⟨{}, { boot := { step := 15 } }, _, by exact ⟨by decide, by decide, rfl⟩⟩,
   ⟨{}, { boot := { step := 16 } }, by decide⟩,
   ⟨{}, { boot := { step := 16 }, image := some { clk := { lockRequired := true } } }, _, by exact ⟨by decide, by decide, by decide, by decide, rfl⟩⟩,
   ⟨{}, { boot := { step := 14, ohmaxAt := some 5 } }, 5, by decide⟩,
   ⟨{}, { boot := { step := 9 } }, 0, by decide⟩⟩

theorem witness_TimetableCommandsComplete :
    (∃ (o : Otp) (c : Chip) (link : Fin 24) (half : Fin 2) (sentAt : Nat) (c1 : Chip), (c.hearsTime link.val half.val = true) ∧ (c1 = if (c.half link.val half.val).txPrev / 16 / 64000 < c.tt.counter / 64000 then c else c.reachTick ((c.tt.counter / 64000 + 1) * 64000))) ∧
    (∃ (o : Otp) (c : Chip) (link : Fin 24) (half : Fin 2) (flit : List Byte) (errs seenAt : Nat) (lane : Fin 4), (c.hearsTime link.val half.val = false)) ∧
    (∃ (o : Otp) (c : Chip) (link : Fin 24) (half : Fin 2) (flit : List Byte) (errs seenAt : Nat) (lane : Fin 4), (c.hearsTime link.val half.val = true) ∧ (fecCorrects errs = false)) ∧
    (∃ (o : Otp) (c : Chip) (link : Fin 24) (half : Fin 2) (flit : List Byte) (errs seenAt : Nat) (lane : Fin 4), (c.hearsTime link.val half.val = true) ∧ (fecCorrects errs = true) ∧ (flitGood flit = false)) ∧
    (∃ (o : Otp) (c : Chip) (link : Fin 24) (half : Fin 2) (flit : List Byte) (errs seenAt : Nat) (lane : Fin 4) (c1 : Chip) (x : LinkHalf), (c.hearsTime link.val half.val = true) ∧ (fecCorrects errs = true) ∧ (flitGood flit = true) ∧ (flitShape flit = true) ∧ (fieldAt flit 0 1 = 2) ∧ (c1 = (if errs = 0 then c else c.bump (rLNK_FECCORR + link.val * 0x800)).flitHeader link.val half.val flit) ∧ (x = c1.half link.val half.val) ∧ (fieldAt flit 58 2 ≠ (x.tseq + 65535) % 65536 ∨ fieldAt flit 56 2 ≠ x.rxSeqLast ∨ x.rxLast = 0)) ∧
    (∃ (o : Otp) (c : Chip), (c.tt.carries = false) ∧ (16 ≤ c.boot.step) ∧ (c.boot.stopped = false) ∧ (c.upHalves ≠ []) ∧ (∀ u ∈ c.upHalves, ∃ k ∈ c.tt.clearRun.find? (fun k => k.1 == halfKey u.1 u.2), 16 ≤ k.2) ∧ (c.im.syncStation = some c.pkg)) ∧
    (∃ (o : Otp) (c : Chip) (readBack : Bool) (stretch : List Nat), (boundaryNext c.tt c.turnPeriod = true)) ∧
    (∃ (o : Otp) (c : Chip) (readBack : Bool) (stretch : List Nat), (boundaryNext c.tt c.turnPeriod = false)) ∧
    (∃ (o : Otp) (c : Chip) (tick high : Nat), (c.syncMode = 1) ∧ (c.tt.sync.st ≠ .off) ∧ (16000 ≤ high) ∧ (high ≤ 3200000000)) ∧
    (∃ (o : Otp) (c : Chip) (tick high : Nat), (c.syncMode = 1) ∧ (c.tt.sync.st ≠ .off) ∧ (high < 16000 ∨ 3200000000 < high)) ∧
    (∃ (o : Otp) (c : Chip) (tick : Nat) (frame : List Byte) (c1 : Chip), (c.syncMode = 2) ∧ (c.tt.sync.st ≠ .off) ∧ (frame.length = 7) ∧ (fieldAt frame 0 1 = 0xA5) ∧ (crc16 (frame.take 5) = fieldAt frame 5 2) ∧ (c1 = (c.reachTick tick).polarity false)) ∧
    (∃ (o : Otp) (c : Chip), (c.syncMode ≠ 0) ∧ (c.tt.sync.st = .acquire ∨ c.tt.sync.st = .track) ∧ (c.tt.sync.missing < 3)) ∧
    (∃ (o : Otp) (c : Chip), (c.syncMode ≠ 0) ∧ (c.tt.sync.st = .acquire ∨ c.tt.sync.st = .track) ∧ (3 ≤ c.tt.sync.missing)) ∧
    (∃ (o : Otp) (c : Chip) (value : Word), (value.toNat.testBit 0 = true)) :=
  ⟨⟨{}, upChip, 0, 0, 7, _, by exact ⟨by decide, rfl⟩⟩,
   ⟨{}, {}, 0, 0, [], 0, 0, 0, by decide⟩,
   ⟨{}, upChip, 0, 0, [], 16, 0, 0, by decide⟩,
   ⟨{}, upChip, 0, 0, [], 15, 0, 0, by decide⟩,
   ⟨{}, upChip, 0, 0, timeFlit, 0, 0, 0, _, _, by exact ⟨by decide, by decide, timeFlit_good, by decide, rfl, rfl, rfl, Or.inl (by decide)⟩⟩,
   ⟨{}, { upChip with image := some { roster := [⟨[], 0, false, true⟩] }, boot := { step := 16 }, tt := { clearRun := [(0, 16)] } }, by exact ⟨by decide, by decide, by decide, by decide, by decide, by decide⟩⟩,
   ⟨{}, { tt := { running := true } }, true, [], by decide⟩,
   ⟨{}, {}, true, [], by decide⟩,
   ⟨{}, syncChip 1, 5, 16000, by decide⟩,
   ⟨{}, syncChip 1, 5, 15999, by decide⟩,
   ⟨{}, syncChip 2, 5, syncFrame 9, _, by exact ⟨by decide, by decide, by decide, by decide, by decide +kernel, rfl⟩⟩,
   ⟨{}, { syncChip 1 with tt := { sync := { st := .track, missing := 2 } } }, by decide⟩,
   ⟨{}, { syncChip 1 with tt := { sync := { st := .track, missing := 3 } } }, by decide⟩,
   ⟨{}, {}, 1, by decide⟩⟩

theorem witness_DeparturesComplete :
    (∃ (o : Otp) (c : Chip) (d : Departure) (t : Nat), (Fires c d t) ∧ (d.action = 0x0001)) ∧
    (∃ (o : Otp) (c : Chip) (d : Departure) (t : Nat), (Fires c d t) ∧ (d.action = 0x0002) ∧ (d.arg = 1)) ∧
    (∃ (o : Otp) (c : Chip) (obs : WearObs) (d : Departure) (t : Nat), (Fires c d t) ∧ (d.action = 0x0002) ∧ (d.arg = 2) ∧ ((c.fired d t).ohmaxRuns = true)) ∧
    (∃ (o : Otp) (c : Chip) (d : Departure) (t : Nat), (Fires c d t) ∧ (d.action = 0x0010)) ∧
    (∃ (o : Otp) (c : Chip) (d : Departure) (t : Nat), (Fires c d t) ∧ (d.action = 0x0011)) ∧
    (∃ (o : Otp) (c : Chip) (d : Departure) (t : Nat), (Fires c d t) ∧ (d.action = 0x0020)) ∧
    (∃ (o : Otp) (c : Chip) (d : Departure) (t : Nat) (ch : TrnChan), (Fires c d t) ∧ (d.action = 0x0030) ∧ (switchOp d = 1) ∧ ((c.fired d t).trnChan (bitsOf d.arg 7 4) = some ch) ∧ (ch.member (c.fired d t).pkg = true ∨ (c.fired d t).pkg = ch.srcPkg) ∧ (bitsOf d.arg 31 8 = 0)) ∧
    (∃ (o : Otp) (c : Chip) (d : Departure) (t : Nat) (ch : TrnChan), (Fires c d t) ∧ (d.action = 0x0030) ∧ (switchOp d = 2) ∧ ((c.fired d t).trnChan (bitsOf d.arg 7 4) = some ch) ∧ (ch.member (c.fired d t).pkg = true ∨ (c.fired d t).pkg = ch.srcPkg) ∧ (bitsOf d.arg 31 8 = 0)) ∧
    (∃ (o : Otp) (c : Chip) (d : Departure) (t : Nat) (ch : TrnChan), (Fires c d t) ∧ (d.action = 0x0030) ∧ (switchOp d = 3) ∧ ((c.fired d t).trnChan (bitsOf d.arg 7 4) = some ch) ∧ (ch.member (c.fired d t).pkg = true ∨ (c.fired d t).pkg = ch.srcPkg) ∧ (bitsOf d.arg 31 8 = 0)) ∧
    (∃ (o : Otp) (c : Chip) (d : Departure) (t : Nat) (e : Nat × ColDesc × Bool), (Fires c d t) ∧ (d.action = 0x0040) ∧ ((c.fired d t).col.armed.find? (fun e => e.1 == d.id) = some e)) ∧
    (∃ (o : Otp) (c : Chip) (d : Departure) (t : Nat) (k : Task), (Fires c d t) ∧ (d.action = 0x0050) ∧ ((c.atFiring d t).postFails d = false) ∧ ((c.fired d t).checkPost d = .good k)) ∧
    (∃ (o : Otp) (c : Chip) (d : Departure) (t : Nat), (Fires c d t) ∧ (d.action = 0x0051) ∧ (d.arg < 2 ^ 14) ∧ ((c.fired d t).ringHold d.arg = true)) ∧
    (∃ (o : Otp) (c : Chip) (d : Departure) (t : Nat) (isl : List Nat), (Fires c d t) ∧ (d.action = 0x0060) ∧ (d.arg = 1) ∧ ((c.fired d t).stateIslands o d.scope 1 = some isl) ∧ ((c.fired d t).halted = false)) ∧
    (∃ (o : Otp) (c : Chip) (d : Departure) (t : Nat) (isl : List Nat), (Fires c d t) ∧ (d.action = 0x0060) ∧ (d.arg = 2) ∧ ((c.fired d t).stateIslands o d.scope 2 = some isl) ∧ ((c.fired d t).halted = false)) ∧
    (∃ (o : Otp) (c : Chip) (d : Departure) (t : Nat), (Fires c d t) ∧ (d.action = 0x0060) ∧ (d.arg = 3) ∧ (d.scope = 0) ∧ ((c.fired d t).halted = false)) ∧
    (∃ (o : Otp) (c : Chip) (d : Departure) (t : Nat), (Fires c d t) ∧ (d.action = 0x0060) ∧ (d.arg = 4) ∧ (d.scope = 0) ∧ ((c.fired d t).halted = false)) ∧
    (∃ (o : Otp) (c : Chip) (d : Departure) (t : Nat), (Fires c d t) ∧ (d.action = 0x0070) ∧ (mhzOk o d.arg = true)) :=
  ⟨⟨{}, depChip 0x0001 0 0, depOf 0x0001 0 0, 5, by exact ⟨by constructor <;> decide, by decide⟩⟩,
   ⟨{}, depChip 0x0002 0 1, depOf 0x0002 0 1, 5, by exact ⟨by constructor <;> decide, by decide⟩⟩,
   ⟨{}, { depChip 0x0002 0 2 with boot := { step := 18 } }, {}, depOf 0x0002 0 2, 5, by exact ⟨by constructor <;> decide, by decide⟩⟩,
   ⟨{}, depChip 0x0010 0x400 3, depOf 0x0010 0x400 3, 5, by exact ⟨by constructor <;> decide, by decide⟩⟩,
   ⟨{}, depChip 0x0011 0x400 800000, depOf 0x0011 0x400 800000, 5, by exact ⟨by constructor <;> decide, by decide⟩⟩,
   ⟨{}, depChip 0x0020 0 3, depOf 0x0020 0 3, 5, by exact ⟨by constructor <;> decide, by decide⟩⟩,
   ⟨{}, trnChip 1, depOf 0x0030 0 (2 ^ 32 + 1), 5, trnChanOf, by exact ⟨by constructor <;> decide, rfl, rfl, rfl, Or.inr rfl, rfl⟩⟩,
   ⟨{}, trnChip 2, depOf 0x0030 0 (2 ^ 32 + 2), 5, trnChanOf, by exact ⟨by constructor <;> decide, rfl, rfl, rfl, Or.inr rfl, rfl⟩⟩,
   ⟨{}, trnChip 3, depOf 0x0030 0 (2 ^ 32 + 3), 5, trnChanOf, by exact ⟨by constructor <;> decide, rfl, rfl, rfl, Or.inr rfl, rfl⟩⟩,
   ⟨{}, { depChip 0x0040 0 0 with col := { armed := [(7, ⟨0, 0, 0, 0, 0, 0, 0, 0, 0, 0, false, false⟩, false)] } }, depOf 0x0040 0 0, 5, (7, ⟨0, 0, 0, 0, 0, 0, 0, 0, 0, 0, false, false⟩, false), by exact ⟨by constructor <;> decide, by decide⟩⟩,
   ⟨{}, postChip, depOf 0x0050 0 0x100012, 5, _, by exact ⟨by constructor <;> decide, by decide, by decide, rfl⟩⟩,
   ⟨{}, { depChip 0x0051 0 0x10 with regs := [(ringReg 0x10 0, 0x200000)] }, depOf 0x0051 0 0x10, 5, by exact ⟨by constructor <;> decide, by decide⟩⟩,
   ⟨{}, depChip 0x0060 0x301 1, depOf 0x0060 0x301 1, 5, [2], by exact ⟨by constructor <;> decide, by decide⟩⟩,
   ⟨{}, depChip 0x0060 0x301 2, depOf 0x0060 0x301 2, 5, [2], by exact ⟨by constructor <;> decide, by decide⟩⟩,
   ⟨{}, depChip 0x0060 0 3, depOf 0x0060 0 3, 5, by exact ⟨by constructor <;> decide, by decide⟩⟩,
   ⟨{}, depChip 0x0060 0 4, depOf 0x0060 0 4, 5, by exact ⟨by constructor <;> decide, by decide⟩⟩,
   ⟨{}, depChip 0x0070 0x301 1500, depOf 0x0070 0x301 1500, 5, by exact ⟨by constructor <;> decide, by decide⟩⟩⟩

theorem witness_MemoryAndRingCommandsComplete :
    (∃ (o : Otp) (c : Chip), (c.islOpen 10 = true)) ∧
    (∃ (o : Otp) (c : Chip) (stalled : Nat) (v : Move) (l : List Move) (m : Mem), (c.mem.moves = v :: l) ∧ (c.islOpen 10 = true) ∧ (m = c.mem.finishMove v (((c.objAt (v.wagon * wagonBytes)).map (·.inclusive)).getD false))) ∧
    (∃ (o : Otp) (c : Chip) (stack : Fin 8), ((c.reg rMEM_STAT).testBit (16 + stack.val) = true)) ∧
    (∃ (o : Otp) (c : Chip) (value : Word) (addr : Nat), (c.islOpen 10 = true) ∧ (addr = c.reg rMEM_UCLR_LO + value.toNat * 2 ^ 32) ∧ (addrSpace addr = 0) ∧ (addrPkg addr = c.pkg) ∧ ((c.objAt (addrOff addr)).isSome = true)) ∧
    (∃ (o : Otp) (c : Chip) (value : Word) (addr : Nat), (addr = c.reg rMEM_UCLR_LO + value.toNat * 2 ^ 32) ∧ (addrSpace addr ≠ 0 ∨ addrPkg addr ≠ c.pkg ∨ c.objAt (addrOff addr) = none)) ∧
    (∃ (o : Otp) (c : Chip) (ring : BitVec 14) (i : RItem), ((c.ring ring.toNat).items.find? (fun i => decide (i.st = .reserved)) = some i)) ∧
    (∃ (o : Otp) (c : Chip) (ring : BitVec 14), ((c.ring ring.toNat).st = .opened)) ∧
    (∃ (o : Otp) (c : Chip) (ring : BitVec 14) (t : Nat), ((c.ring ring.toNat).drainSince = some t) ∧ ((c.ring ring.toNat).hasOpen = false)) ∧
    (∃ (o : Otp) (c : Chip) (ring : BitVec 14) (t : Nat), ((c.ring ring.toNat).drainSince = some t) ∧ ((c.ring ring.toNat).hasOpen = true)) ∧
    (∃ (o : Otp) (c : Chip) (ring : BitVec 14), ((c.ring ring.toNat).st ≠ .closed)) ∧
    (∃ (o : Otp) (c : Chip) (ring : BitVec 14), ((c.ring ring.toNat).st = .closed)) :=
  ⟨⟨{}, openChip, by decide⟩,
   ⟨{}, { openChip with mem := { moves := [⟨0, .hbm, 0⟩] } }, 3, ⟨0, .hbm, 0⟩, [], _, by exact ⟨rfl, by decide, rfl⟩⟩,
   ⟨{}, { regs := [(rMEM_STAT, 0x10000)] }, 0, by decide⟩,
   ⟨{}, taskChip, 0, 0, by decide⟩,
   ⟨{}, {}, 0, 0, by decide⟩,
   ⟨{}, { rings := [(16, { st := .opened, items := [⟨0, 1, 0, .reserved, 0, .none, .none, 0, 0, 0, false⟩] })] }, 16, ⟨0, 1, 0, .reserved, 0, .none, .none, 0, 0, 0, false⟩, by decide⟩,
   ⟨{}, { rings := [(16, { st := .opened })] }, 16, by decide⟩,
   ⟨{}, { rings := [(16, { drainSince := some 3 })] }, 16, 3, by decide⟩,
   ⟨{}, { rings := [(16, { drainSince := some 3, items := [⟨0, 1, 0, .reserved, 0, .none, .none, 0, 0, 0, false⟩] })] }, 16, 3, by decide⟩,
   ⟨{}, { rings := [(16, { st := .opened })] }, 16, by decide⟩,
   ⟨{}, {}, 16, by decide⟩⟩

theorem witness_DispatcherCommandsComplete :
    (∃ (o : Otp) (c : Chip) (c1 : Chip) (k : Cand) (pl : Place), (c.islOpen 10 = true) ∧ (c1 = c.clearTaskHeads.candidates.foldl (fun c k => if c.wsetReady k.task then c else c.wantSet k.task) c.clearTaskHeads) ∧ (c1.bestCand = some (k, pl))) ∧
    (∃ (o : Otp) (c : Chip) (cell : Fin 64) (since : Nat) (ps : PartState) (t : Task), ((c.cell cell).starting = some since) ∧ ((c.cell cell).ps = some ps) ∧ (c.islOpen (cellIsland cell) = true) ∧ (c.disp.task? ps.part.ring ps.part.seq = some t)) ∧
    (∃ (o : Otp) (c : Chip) (cell : Fin 64) (line : Nat) (w : Switch) (p : PartState), ((c.cell cell).switch = some w) ∧ (w.phase = 0) ∧ (c.quiet cell = true) ∧ (w.incoming = none) ∧ ((c.cell cell).ps = some p) ∧ (p.poison = [])) ∧
    (∃ (o : Otp) (c : Chip) (cell : Fin 64) (w : Switch) (k : Nat × Nat × Nat) (c1 : Chip), ((c.cell cell).switch = some w) ∧ (w.phase = 0) ∧ (w.forClose = false) ∧ (c.quiet cell = false) ∧ (w.incoming = some k) ∧ (c1 = (c.passTo (w.since + 80 * tUs)).unclaim w)) ∧
    (∃ (o : Otp) (c : Chip) (ring : BitVec 14) (seq : Nat) (e : Nat × Nat × Nat), (c.disp.blocked.find? (fun (e : Nat × Nat × Nat) => e.1 == ring.toNat && e.2.1 == seq) = some e)) ∧
    (∃ (o : Otp) (c : Chip) (cell : Fin 64) (w : Switch) (k : Nat × Nat × Nat) (c1 : Chip), ((c.cell cell).switch = some w) ∧ (w.phase = 1) ∧ (w.incoming = some k) ∧ (c1 = (c.passTo (w.since + 70 * tUs)).savePart cell w.forClose)) ∧
    (∃ (o : Otp) (c : Chip) (cell : Fin 64) (w : Switch), ((c.cell cell).switch = some w) ∧ (w.phase = 1) ∧ (w.incoming = none)) ∧
    (∃ (o : Otp) (c : Chip) (cell : Fin 64) (w : Switch) (k : Nat × Nat × Nat) (t : Task) (c1 : Chip), ((c.cell cell).switch = some w) ∧ (w.phase = 2) ∧ (w.incoming = some k) ∧ (w.resumed = false) ∧ (w.light = true) ∧ (c.disp.task? k.1 k.2.1 = some t) ∧ (c1 = ((c.passTo (w.since + 78 * tUs)).bumpWrap rDSP_LIGHT).setReg rDSP_LASTSW (min (((c.passTo (w.since + 78 * tUs)).elapsed - w.began) / tUs) 0xFFFF))) ∧
    (∃ (o : Otp) (c : Chip) (cell : Fin 64) (w : Switch) (k : Nat × Nat × Nat) (ps : PartState), ((c.cell cell).switch = some w) ∧ (w.phase = 2) ∧ (w.incoming = some k) ∧ (w.resumed = true) ∧ (w.light = false) ∧ (c.disp.savedPart? k = some ps)) ∧
    (∃ (o : Otp) (c : Chip) (wset : Fin 16) (data : List Byte) (w : Wset) (dst : Nat) (c1 : Chip), (c.disp.wsets[wset.val]? = some w) ∧ (w.st = .streaming) ∧ (addrSpace w.src = 0) ∧ (addrPkg w.src = c.pkg) ∧ (c1 = c.passTo (w.since + streamTicks w.bytes)) ∧ (dst = ((c.im.obj? w.dst).map (·.base)).getD 0) ∧ (c1.streamFails w dst = false)) ∧
    (∃ (o : Otp) (c : Chip) (wset : Fin 16) (w : Wset) (dst : Nat), (c.disp.wsets[wset.val]? = some w) ∧ (w.st = .streaming) ∧ (dst = ((c.im.obj? w.dst).map (·.base)).getD 0) ∧ ((addrSpace w.src = 0 ∧ addrPkg w.src ≠ c.pkg) ∨ c.streamFails w dst = true)) ∧
    (∃ (o : Otp) (c : Chip) (ps : PartState) (c1 : Chip), (c.disp.saved.find? (fun ps => ps.leftOpen.isSome && !c.islOpen (cellIsland ps.cell) && ((c.disp.task? ps.part.ring ps.part.seq).map (·.isStatic)).getD false) = some ps) ∧ (c1 = c.passTo ((c.island (cellIsland ps.cell)).leftOpen + 2 * c.turnPeriod))) :=
  ⟨⟨{}, candChip, candChip, candOf, .idle 0, by exact ⟨by decide, by decide +kernel, by decide +kernel⟩⟩,
   ⟨{}, startChip, 0, 9, { part := partOf }, taskOf, by decide⟩,
   ⟨{}, { cells := [{ ps := some { part := partOf }, switch := some { switchOf 0 with incoming := none } }] }, 0, 0, { switchOf 0 with incoming := none }, { part := partOf }, by decide⟩,
   ⟨{}, busyChip, 0, switchOf 0, (16, 3, 0), _, by exact ⟨rfl, rfl, rfl, by decide, rfl, rfl⟩⟩,
   ⟨{}, { disp := { blocked := [(16, 3, 9)] } }, 16, 3, (16, 3, 9), by decide⟩,
   ⟨{}, { cells := [{ switch := some (switchOf 1) }] }, 0, switchOf 1, (16, 3, 0), _, by exact ⟨rfl, rfl, rfl, rfl⟩⟩,
   ⟨{}, { cells := [{ switch := some { switchOf 1 with incoming := none } }] }, 0, { switchOf 1 with incoming := none }, by decide⟩,
   ⟨{}, { cells := [{ switch := some { switchOf 2 with light := true } }], disp := { tasks := [taskOf] } }, 0, { switchOf 2 with light := true }, (16, 3, 0), taskOf, _, by exact ⟨rfl, rfl, rfl, rfl, rfl, by decide, rfl⟩⟩,
   ⟨{}, { cells := [{ switch := some { switchOf 2 with resumed := true } }], disp := { saved := [{ part := partOf }] } }, 0, { switchOf 2 with resumed := true }, (16, 3, 0), { part := partOf }, by decide⟩,
   ⟨{}, { taskChip with disp := { wsets := [wsetOf] } }, 0, [], wsetOf, 0, _, by exact ⟨rfl, rfl, by decide, by decide, rfl, by decide, by decide⟩⟩,
   ⟨{}, { disp := { wsets := [wsetOf] } }, 0, wsetOf, 0, by decide⟩,
   ⟨{}, { disp := { saved := [{ part := partOf, leftOpen := some 1 }], tasks := [{ taskOf with isStatic := true }] } }, { part := partOf, leftOpen := some 1 }, _, by exact ⟨by decide, rfl⟩⟩⟩

theorem witness_SequenceCommandsComplete :
    (∃ (o : Otp) (c : Chip) (ring : BitVec 14) (p : SeqPlan) (i : RItem) (b h : List Byte) (c1 : Chip), (c.seqPlan = some p) ∧ ((p.models.any fun m => m.joinRing == ring.toNat) = true) ∧ ((c.seq.queue.filter fun w => w.resumer.isNone).length < p.queueMax) ∧ (c.headCtl ring.toNat = some h) ∧ (c.takeCtl ring.toNat = some (i, b, c1)) ∧ ((ctlShape b && ctlOp b == 1) = true) ∧ (fieldAt b 17 1 < p.models.length) ∧ ((p.model (fieldAt b 17 1)).joinRing = ring.toNat) ∧ (1 ≤ fieldAt b 24 4) ∧ (fieldAt b 24 4 ≤ (p.model (fieldAt b 17 1)).maxTokens) ∧ (((c1.seq.live.any fun s => s.id == ctlSeqId b) || c1.seq.queue.any fun w => w.resumer.isNone && w.id == ctlSeqId b) = false)) ∧
    (∃ (o : Otp) (c : Chip) (p : SeqPlan) (i : RItem) (b h : List Byte) (c1 : Chip), (c.seqPlan = some p) ∧ (c.headCtl p.ctrl = some h) ∧ (ctlOp h = 2) ∧ (c.takeCtl p.ctrl = some (i, b, c1)) ∧ (ctlShape b = true)) ∧
    (∃ (o : Otp) (c : Chip) (p : SeqPlan) (i : RItem) (b h : List Byte) (c1 : Chip) (s : Seq) (c2 : Chip), (c.seqPlan = some p) ∧ (c.headCtl p.ctrl = some h) ∧ (ctlOp h = 3) ∧ (c.takeCtl p.ctrl = some (i, b, c1)) ∧ (ctlShape b = true) ∧ (c1.pausedSeq (ctlSeqId b) = some s) ∧ (s.st = .held) ∧ (c2 = c1.setSeq s.slot fun s => { s with wantResume := some (fieldAt b 18 1, c1.seq.order) })) ∧
    (∃ (o : Otp) (c : Chip) (p : SeqPlan) (i : RItem) (b h : List Byte) (c1 : Chip) (s : Seq), (c.seqPlan = some p) ∧ (c.headCtl p.ctrl = some h) ∧ (ctlOp h = 3) ∧ (c.takeCtl p.ctrl = some (i, b, c1)) ∧ (ctlShape b = true) ∧ (c1.pausedSeq (ctlSeqId b) = some s) ∧ (s.st ≠ .held) ∧ ((c1.seq.queue.any fun w => w.resumer == some s.slot) = false)) ∧
    (∃ (o : Otp) (c : Chip) (p : SeqPlan) (i : RItem) (b h : List Byte) (c1 : Chip) (s : Seq), (c.seqPlan = some p) ∧ (c.headCtl p.ctrl = some h) ∧ (ctlOp h = 4) ∧ (c.takeCtl p.ctrl = some (i, b, c1)) ∧ (ctlShape b = true) ∧ (c1.pausedSeq (ctlSeqId b) = some s)) ∧
    (∃ (o : Otp) (c : Chip) (p : SeqPlan) (i : RItem) (b h : List Byte) (c1 : Chip), (c.seqPlan = some p) ∧ (c.headCtl p.ctrl = some h) ∧ (ctlOp h = 4) ∧ (c.takeCtl p.ctrl = some (i, b, c1)) ∧ (ctlShape b = true) ∧ (c1.pausedSeq (ctlSeqId b) = none)) ∧
    (∃ (o : Otp) (c : Chip) (p : SeqPlan) (t : Nat), (c.seqPlan = some p) ∧ (c.seq.busy = some t) ∧ (c.seq.posted = false)) ∧
    (∃ (o : Otp) (c : Chip) (p : SeqPlan) (snap : SeqSnap) (rest : List SeqSnap) (c1 : Chip), (c.seqPlan = some p) ∧ (c.seq.busy = none) ∧ (c.seq.overdue = snap :: rest) ∧ (c1 = { c with seq := { c.seq with overdue := rest } })) :=
  ⟨⟨{}, ctlChip 6 joinItem, 6, seqPlanOf, _, _, _, _, by exact ⟨by decide, by decide, by decide, rfl, rfl, by decide +kernel, by decide +kernel, by decide +kernel, by decide +kernel, by decide +kernel, by decide +kernel⟩⟩,
   ⟨{}, ctlChip 5 (ctlItem 2 1000), seqPlanOf, _, _, _, _, by exact ⟨by decide, rfl, by decide +kernel, rfl, by decide +kernel⟩⟩,
   ⟨{}, { ctlChip 5 (ctlItem 3 0) with seq := { live := [{ slot := 0, id := 9, model := 0, st := .held, prio := 0, ring := 6, item := 0 }] } }, seqPlanOf, _, _, _, _, { slot := 0, id := 9, model := 0, st := .held, prio := 0, ring := 6, item := 0 }, _, by exact ⟨by decide, rfl, by decide +kernel, rfl, by decide +kernel, by decide +kernel, rfl, rfl⟩⟩,
   ⟨{}, { ctlChip 5 (ctlItem 3 0) with seq := { live := [{ slot := 0, id := 9, model := 0, st := .parked, prio := 0, ring := 6, item := 0 }] } }, seqPlanOf, _, _, _, _, { slot := 0, id := 9, model := 0, st := .parked, prio := 0, ring := 6, item := 0 }, by exact ⟨by decide, rfl, by decide +kernel, rfl, by decide +kernel, by decide +kernel, by decide, by decide +kernel⟩⟩,
   ⟨{}, { ctlChip 5 (ctlItem 4 1000) with seq := { live := [{ slot := 0, id := 9, model := 0, st := .parked, prio := 0, ring := 6, item := 0 }] } }, seqPlanOf, _, _, _, _, { slot := 0, id := 9, model := 0, st := .parked, prio := 0, ring := 6, item := 0 }, by exact ⟨by decide, rfl, by decide +kernel, rfl, by decide +kernel, by decide +kernel⟩⟩,
   ⟨{}, ctlChip 5 (ctlItem 4 86400000), seqPlanOf, _, _, _, _, by exact ⟨by decide, rfl, by decide +kernel, rfl, by decide +kernel, by decide +kernel⟩⟩,
   ⟨{}, { ctlChip 5 [] with seq := { busy := some 5 } }, seqPlanOf, 5, by decide⟩,
   ⟨{}, { ctlChip 5 [] with seq := { overdue := [⟨0, 0, [], [], 0, 0, 0⟩] } }, seqPlanOf, ⟨0, 0, [], [], 0, 0, 0⟩, [], _, by exact ⟨by decide, rfl, rfl, rfl⟩⟩⟩

theorem witness_TurntableCommandsComplete :
    (∃ (o : Otp) (c : Chip) (ch : Fin 16) (t : TrnChan), (c.trnChan ch.val = some t) ∧ ((c.trnCh ch.val).st = .release) ∧ (c.released ch.val (c.trnCh ch.val).target = true) ∧ ((c.demoted t (c.trnCh ch.val).target).isEmpty = true) ∧ (c.pkg ≠ t.srcPkg)) ∧
    (∃ (o : Otp) (c : Chip) (ch : Fin 16) (pkg : Nat) (t : TrnChan) (c1 : Chip), (c.trnChan ch.val = some t) ∧ ((c.trnCh ch.val).rootSt = .release) ∧ (pkg ∉ (c.trnCh ch.val).ready) ∧ (t.member pkg = true) ∧ (c1 = c.setTrn ch.val fun x => { x with ready := x.ready ++ [pkg] })) ∧
    (∃ (o : Otp) (c : Chip) (ch : Fin 16) (p : TrnPlan), (c.im.trnPlan = some p) ∧ ((c.trnCh ch.val).rootSt = .release) ∧ ((c.trnCh ch.val).st ≠ .release)) ∧
    (∃ (o : Otp) (c : Chip) (ch : Fin 16) (p : TrnPlan), (c.im.trnPlan = some p) ∧ ((c.trnCh ch.val).rootSt ≠ .release) ∧ ((c.trnCh ch.val).st = .release)) ∧
    (∃ (o : Otp) (c : Chip) (ch : Fin 16) (t : TrnChan) (c1 : Chip), (c.trnChan ch.val = some t) ∧ ((c.trnCh ch.val).rootSt = .ready) ∧ (c1 = c.passTo ((c.trnCh ch.val).streamAt + 200 * tUs))) ∧
    (∃ (o : Otp) (c : Chip) (ch : Fin 16) (pkg : Nat) (c1 : Chip), ((c.trnCh ch.val).rootSt = .streaming) ∧ (pkg ∉ (c.trnCh ch.val).done) ∧ (pkg ∈ (c.trnCh ch.val).ready) ∧ (c1 = c.setTrn ch.val fun x => { x with done := x.done ++ [pkg] })) ∧
    (∃ (o : Otp) (c : Chip) (ch : Fin 16) (p : TrnPlan), (c.im.trnPlan = some p) ∧ ((c.trnCh ch.val).rootSt = .streaming) ∧ ((c.trnCh ch.val).st = .idle)) ∧
    (∃ (o : Otp) (c : Chip) (ch : Fin 16) (p : TrnPlan), (c.im.trnPlan = some p) ∧ ((c.trnCh ch.val).rootSt = .idle) ∧ ((c.trnCh ch.val).st = .streaming)) :=
  ⟨⟨{}, { trnChip1 with trn := [{ st := .release }] }, 0, trnChanOf1, by exact ⟨rfl, rfl, by decide, by decide, by decide⟩⟩,
   ⟨{}, { trnChip1 with pkg := 1, trn := [{ rootSt := .release }] }, 0, 0, trnChanOf1, _, by exact ⟨rfl, rfl, by decide, by decide, rfl⟩⟩,
   ⟨{}, { trnChip1 with trn := [{ rootSt := .release }] }, 0, _, by exact ⟨rfl, rfl, by decide⟩⟩,
   ⟨{}, { trnChip1 with trn := [{ st := .release }] }, 0, _, by exact ⟨rfl, by decide, rfl⟩⟩,
   ⟨{}, { trnChip1 with trn := [{ rootSt := .ready }] }, 0, trnChanOf1, _, by exact ⟨rfl, rfl, rfl⟩⟩,
   ⟨{}, { trnChip1 with trn := [{ rootSt := .streaming, ready := [0] }] }, 0, 0, _, by exact ⟨rfl, by decide, by decide, rfl⟩⟩,
   ⟨{}, { trnChip1 with trn := [{ rootSt := .streaming }] }, 0, _, by exact ⟨rfl, rfl, rfl⟩⟩,
   ⟨{}, { trnChip1 with trn := [{ st := .streaming }] }, 0, _, by exact ⟨rfl, rfl, rfl⟩⟩⟩

theorem witness_CollectiveCommandsComplete :
    (∃ (o : Otp) (c : Chip) (tree : Fin 64) (inst : Nat) (i : ColInst), (c.colInst? tree.val inst = some i) ∧ (i.finished = false) ∧ (i.desc.isSome = true)) ∧
    (∃ (o : Otp) (c : Chip) (tree : Fin 64) (inst : Nat) (i : ColInst), (c.colInst? tree.val inst = some i) ∧ (i.finished = false) ∧ (i.desc = none)) ∧
    (∃ (o : Otp) (c : Chip) (link : Fin 24) (half : Fin 2) (p : Packet) (rest : List RecvFlit) (c1 : Chip), (takePacket tPIP (c.half link.val half.val).recv = some (p, rest)) ∧ ((fieldAt p.data 1 1 == pipArm || fieldAt p.data 1 1 == pipAck || fieldAt p.data 1 1 == pipCancel) = false) ∧ (p.dst = c.pkg) ∧ (c1 = c.keepBuffers link.val half.val rest)) ∧
    (∃ (o : Otp) (c : Chip) (link : Fin 24) (half : Fin 2) (p : Packet) (rest : List RecvFlit) (c1 : Chip), (takePacket tSTREAM (c.half link.val half.val).recv = some (p, rest)) ∧ (fieldAt p.data 1 1 ≠ opTurntable) ∧ (p.dst = c.pkg) ∧ (c1 = c.keepBuffers link.val half.val rest)) ∧
    (∃ (o : Otp) (c : Chip) (link : Fin 24) (half : Fin 2) (p : Packet) (rest : List RecvFlit) (c1 : Chip), (takePacket tSTREAM (c.half link.val half.val).recv = some (p, rest)) ∧ (fieldAt p.data 1 1 = opTurntable) ∧ (p.dst = c.pkg) ∧ (c1 = c.keepBuffers link.val half.val rest)) ∧
    (∃ (o : Otp) (c : Chip) (link : Fin 24) (half : Fin 2) (p : Packet) (rest : List RecvFlit) (c1 : Chip), (takePacket tPIP (c.half link.val half.val).recv = some (p, rest)) ∧ (fieldAt p.data 1 1 = pipArm) ∧ (p.dst = c.pkg) ∧ (c1 = c.keepBuffers link.val half.val rest) ∧ ((fieldAt p.data 3 1).testBit 0 = false)) ∧
    (∃ (o : Otp) (c : Chip) (link : Fin 24) (half : Fin 2) (p : Packet) (rest : List RecvFlit) (c1 : Chip) (a : ArmRec), (takePacket tPIP (c.half link.val half.val).recv = some (p, rest)) ∧ (fieldAt p.data 1 1 = pipArm) ∧ (p.dst = c.pkg) ∧ (c1 = c.keepBuffers link.val half.val rest) ∧ ((fieldAt p.data 3 1).testBit 0 = true) ∧ (a = parseArm p.data)) ∧
    (∃ (o : Otp) (c : Chip) (link : Fin 24) (half : Fin 2) (p : Packet) (rest : List RecvFlit) (c1 : Chip) (a : ArmRec), (takePacket tPIP (c.half link.val half.val).recv = some (p, rest)) ∧ (fieldAt p.data 1 1 = pipAck) ∧ (p.dst = c.pkg) ∧ (c1 = c.keepBuffers link.val half.val rest) ∧ ((fieldAt p.data 3 1).testBit 0 = false) ∧ (a = ackRecord p.data)) ∧
    (∃ (o : Otp) (c : Chip) (link : Fin 24) (half : Fin 2) (p : Packet) (rest : List RecvFlit) (c1 : Chip) (a r : ArmRec), (takePacket tPIP (c.half link.val half.val).recv = some (p, rest)) ∧ (fieldAt p.data 1 1 = pipAck) ∧ (p.dst = c.pkg) ∧ (a = ackRecord p.data) ∧ (c1 = (c.keepBuffers link.val half.val rest).toChildren 0 a.span 0 ((c.keepBuffers link.val half.val rest).armPacket a pipAck true (a.ackBytes (fieldAt p.data 38 2) (fieldAt p.data 40 2) (fieldAt p.data 42 1)))) ∧ ((fieldAt p.data 3 1).testBit 0 = true) ∧ (c1.armRec? a.pkg a.dep = some r)) ∧
    (∃ (o : Otp) (c : Chip) (link : Fin 24) (half : Fin 2) (p : Packet) (rest : List RecvFlit) (c1 : Chip) (a r : ArmRec) (id : Nat), (takePacket tPIP (c.half link.val half.val).recv = some (p, rest)) ∧ (fieldAt p.data 1 1 = pipCancel) ∧ (p.dst = c.pkg) ∧ (a = ackRecord p.data) ∧ (c1 = c.keepBuffers link.val half.val rest) ∧ ((fieldAt p.data 3 1).testBit 0 = false) ∧ (c1.armRec? a.pkg a.dep = some r) ∧ (r.localDep = some id)) ∧
    (∃ (o : Otp) (c : Chip) (a : ArmRec), (c.arms.find? (fun a => a.asker.isSome) = some a)) :=
  ⟨⟨{}, { col := { insts := [{ tree := 3, inst := 9, desc := some colDescOf }] } }, 3, 9, { tree := 3, inst := 9, desc := some colDescOf }, by decide⟩,
   ⟨{}, { col := { insts := [{ tree := 63, inst := 9 }] } }, 63, 9, { tree := 63, inst := 9 }, by decide⟩,
   ⟨{}, recvChip tPIP [0, 1], 0, 0, recvPkt tPIP [0, 1], [⟨0, []⟩], _, by exact ⟨rfl, by decide, rfl, rfl⟩⟩,
   ⟨{}, recvChip tSTREAM [0, 1], 0, 0, recvPkt tSTREAM [0, 1], [⟨0, []⟩], _, by exact ⟨rfl, by decide, rfl, rfl⟩⟩,
   ⟨{}, recvChip tSTREAM [0, 0x20], 0, 0, recvPkt tSTREAM [0, 0x20], [⟨0, []⟩], _, by exact ⟨rfl, by decide, rfl, rfl⟩⟩,
   ⟨{}, recvChip tPIP [0, 0x10], 0, 0, recvPkt tPIP [0, 0x10], [⟨0, []⟩], _, by exact ⟨rfl, by decide, rfl, rfl, by decide⟩⟩,
   ⟨{}, recvChip tPIP [0, 0x10, 0, 1], 0, 0, recvPkt tPIP [0, 0x10, 0, 1], [⟨0, []⟩], _, _, by exact ⟨rfl, by decide, rfl, rfl, by decide, rfl⟩⟩,
   ⟨{}, recvChip tPIP [0, 0x11], 0, 0, recvPkt tPIP [0, 0x11], [⟨0, []⟩], _, _, by exact ⟨rfl, by decide, rfl, rfl, by decide, rfl⟩⟩,
   ⟨{}, { recvChip tPIP [0, 0x11, 0, 1] with arms := [{ armOf with dep := 0 }] }, 0, 0, recvPkt tPIP [0, 0x11, 0, 1], [⟨0, []⟩], _, _, { armOf with dep := 0 }, by exact ⟨rfl, by decide, rfl, rfl, rfl, by decide, by decide⟩⟩,
   ⟨{}, { recvChip tPIP [0, 0x12] with arms := [{ armOf with dep := 0, localDep := some 4 }] }, 0, 0, recvPkt tPIP [0, 0x12], [⟨0, []⟩], _, _, { armOf with dep := 0, localDep := some 4 }, 4, by exact ⟨rfl, by decide, rfl, rfl, rfl, by decide, by decide, rfl⟩⟩,
   ⟨{}, { arms := [{ armOf with asker := some .engine }] }, { armOf with asker := some .engine }, by decide⟩⟩

theorem witness_FaultCommandsComplete :
    (∃ (o : Otp) (c : Chip) (h : Handling) (a : Aborted), (c.flt.stack.getLast? = some h) ∧ (h.waits = false) ∧ (∀ n, h.scope ≠ .island n) ∧ (a = (h.folded ++ [h.scope]).foldl abortScope (c, h.items, h.pages)) ∧ (c.ohmaxRuns = true) ∧ (c.flt.stop = false)) ∧
    (∃ (o : Otp) (c : Chip) (h : Handling) (n : Nat), (c.flt.stack.getLast? = some h) ∧ (h.waits = true) ∧ (h.scope = .island n) ∧ (c.islOpen n = true) ∧ ((c.island n).prepare = false) ∧ (c.ohmaxRuns = true) ∧ (c.flt.stop = false)) ∧
    (∃ (o : Otp) (c : Chip) (done : Nat), (c.flt.passing = true) ∧ (c.takenItems.length ≤ done)) ∧
    (∃ (o : Otp) (c : Chip) (done : Nat), (c.flt.passing = true) ∧ (done < c.takenItems.length)) ∧
    (∃ (o : Otp) (c : Chip), (c.flt.lostSince ≠ 0) ∧ (c.ledgerRing = true) ∧ (2 ≤ c.ringFree 2)) ∧
    (∃ (o : Otp) (c : Chip) (rec : Word) (e : Nat × List Nat), (c.flt.ends.find? (fun (e : Nat × List Nat) => e.1 == rec.toNat) = some e)) ∧
    (∃ (o : Otp) (c : Chip) (engine : Fin 7), (c.islOpen (engineIsland engine.val) = true) ∧ (engine.val < 5)) ∧
    (∃ (o : Otp) (c : Chip) (engine : Fin 7), (c.islOpen (engine.val + 7) = true) ∧ (5 ≤ engine.val)) ∧
    (∃ (o : Otp) (c : Chip), ((c.island 1).st ≠ .closed)) ∧
    (∃ (o : Otp) (c : Chip), ((c.island 1).st ≠ .closed)) :=
  ⟨⟨{}, { openChip with boot := { step := 18 }, flt := { stack := [⟨1, .package, 4, 0, [], [], [], false, false⟩] } }, ⟨1, .package, 4, 0, [], [], [], false, false⟩, _, by exact ⟨rfl, rfl, fun n hn => Scope.noConfusion hn, rfl, rfl, rfl⟩⟩,
   ⟨{}, { openChip with boot := { step := 18 }, flt := { stack := [⟨3, .island 2, 4, 0, [], [], [], true, false⟩] } }, ⟨3, .island 2, 4, 0, [], [], [], true, false⟩, 2, by decide⟩,
   ⟨{}, { flt := { passing := true } }, 0, by decide⟩,
   ⟨{}, { flt := { passing := true }, rings := [(16, { items := [{ idx := 0, words := 1, seq := 0, st := .taken }] })] }, 0, by decide⟩,
   ⟨{}, ledgerChip, by decide⟩,
   ⟨{}, { flt := { ends := [(5, [1])] } }, 5, (5, [1]), by decide⟩,
   ⟨{}, openChip, 4, by decide⟩,
   ⟨{}, openChip, 5, by decide⟩,
   ⟨{}, openChip, by decide⟩,
   ⟨{}, openChip, by decide⟩⟩

theorem witness_ControlCommandsComplete :
    (∃ (o : Otp) (c : Chip) (master : Fin 8) (addr value sets : Word) (valid : List SigCheck) (t : Nat), (c.islOpen 1 = true) ∧ (master.val ≠ 5) ∧ (c.decodeCause o { master := master, addr := addr.toNat, write := true, data := value.toNat, sets := sets.toNat } = 0) ∧ (c.target o addr.toNat = some t) ∧ (1 < t) ∧ (t ≠ 8) ∧ ((targetIsland t addr.toNat != 0 && !c.islOpen (targetIsland t addr.toNat)) = false)) ∧
    (∃ (o : Otp) (c : Chip) (master : Fin 8) (foreign : Bool) (addr size : Nat) (write fetch : Bool) (data : Dword) (x : Access), (c.islOpen 1 = true) ∧ (x = { master := master, foreign := foreign, addr := addr, size := size, write := write, fetch := fetch, data := data.toNat }) ∧ (c.decodeCause o x ≠ 0)) ∧
    (∃ (o : Otp) (c : Chip) (master : Fin 8) (addr : Word) (write : Bool) (data : Word) (x : Access) (t : Nat), (c.islOpen 1 = true) ∧ (x = { master := master, addr := addr.toNat, write := write, data := data.toNat }) ∧ (c.decodeCause o x = 0) ∧ (c.target o addr.toNat = some t) ∧ (targetIsland t addr.toNat ≠ 0) ∧ (c.islOpen (targetIsland t addr.toNat) = false)) ∧
    (∃ (o : Otp) (c : Chip) (master : Fin 8) (window : Fin 4) (off : BitVec 28) (size : Nat) (data : Dword) (far : Option (List Byte)) (x : Access), (c.islOpen 1 = true) ∧ (c.islOpen 10 = true) ∧ (master.val ≠ 5) ∧ (x = { master := master, addr := 0x40000000 + window * 2 ^ 28 + off.toNat, size := size, write := true, data := data.toNat }) ∧ (c.decodeCause o x = 0) ∧ (c.target o x.addr = some 8) ∧ (c.bridgePkg window.val = c.pkg) ∧ (c.bridgeCause (c.bridgeBase window.val + off.toNat) size = none)) ∧
    (∃ (o : Otp) (c : Chip) (value : Word), (c.islOpen 1 = true) ∧ (value.toNat.testBit 0 = true)) ∧
    (∃ (o : Otp) (c : Chip) (value : Word), (c.islOpen 1 = true)) ∧
    (∃ (o : Otp) (c : Chip) (core : Fin 4) (c1 : Chip), (18 ≤ c.boot.step) ∧ (c.islOpen 1 = true) ∧ (c.flt.latch = false) ∧ (c1 = c.passTo (c.ctl.beats.getD core.val 0 + 100 * tMs))) ∧
    (∃ (o : Otp) (c : Chip) (tjPlat tjPort tjHbm : List Int) (vdd : Nat) (power : Int) (c1 : Chip), (c.boot.held = false) ∧ (c.boot.step ≠ 0) ∧ (c1 = c.passTo (c.wear.fastAt + 10 * tMs))) ∧
    (∃ (o : Otp) (c : Chip) (obs : WearObs) (c1 : Chip), (c.ohmaxRuns = true) ∧ (c1 = c.passTo (c.wear.sampleAt + c.im.wearPeriod * tSec))) ∧
    (∃ (o : Otp) (c : Chip), (c.ohmaxRuns = true)) :=
  ⟨⟨{}, { isl := List.replicate 14 { st := .opened } }, 0, 0x1000040, 1, 0, [], 2, by decide⟩,
   ⟨{}, openChip, 0, true, 0, 4, false, false, 0, _, by exact ⟨rfl, rfl, by decide⟩⟩,
   ⟨{}, { isl := [{}, { st := .opened }] }, 0, 0x10C0000, false, 0, _, 4, by exact ⟨rfl, rfl, by decide +kernel, by decide +kernel, by decide +kernel, by decide +kernel⟩⟩,
   ⟨{}, bridgeChip, 0, 0, 0, 8, 5, none, _, by exact ⟨by decide, by decide, by decide, rfl, by decide +kernel, by decide +kernel, by decide +kernel, by decide +kernel⟩⟩,
   ⟨{}, openChip, 1, by decide⟩,
   ⟨{}, openChip, 1, by decide⟩,
   ⟨{}, { openChip with boot := { step := 18 } }, 3, _, by exact ⟨by decide, by decide, rfl, rfl⟩⟩,
   ⟨{}, { boot := { step := 1 } }, [], [], [], 0, 0, _, by exact ⟨rfl, by decide, rfl⟩⟩,
   ⟨{}, { openChip with boot := { step := 18 } }, {}, _, by exact ⟨by decide, rfl⟩⟩,
   ⟨{}, { openChip with boot := { step := 18 } }, by decide⟩⟩

theorem witness_PowerCommandsComplete :
    (∃ (o : Otp) (c : Chip) (isl : Fin 14), ((c.island isl.val).st = .opened) ∧ ((c.island isl.val).prepare = true) ∧ (isPlatIsland isl.val = true → c.prepared isl.val = true)) ∧
    (∃ (o : Otp) (c : Chip) (isl : Fin 14), ((c.island isl.val).st = .closing)) ∧
    (∃ (o : Otp) (c : Chip) (isl : Fin 14), ((c.island isl.val).st = .closing)) ∧
    (∃ (o : Otp) (c : Chip) (isl : Fin 14), (1 < isl.val) ∧ ((c.island isl.val).st = .opening)) ∧
    (∃ (o : Otp) (c : Chip) (p k : Nat) (c1 : Chip), (c.boot.opening = some p) ∧ (c.boot.stopped = false) ∧ (∀ n ∈ platIslands, (c.island n).st ≠ .opening) ∧ (c1 = c.passTo c.boot.openAt) ∧ (c1.nextPlatform o p = some k)) ∧
    (∃ (o : Otp) (c : Chip) (p : Nat) (c1 : Chip), (c.boot.opening = some p) ∧ (c.boot.stopped = false) ∧ (∀ n ∈ platIslands, (c.island n).st ≠ .opening) ∧ (c1 = c.passTo c.boot.openAt) ∧ (c1.nextPlatform o p = none)) ∧
    (∃ (o : Otp) (c : Chip) (e : HeldPacket), (c.net.held.find? (·.bounced) = some e) ∧ (∀ w ∈ c.ports.held.head?, e.since ≤ w.since)) ∧
    (∃ (o : Otp) (c : Chip), (c.entryReady = true)) ∧
    (∃ (o : Otp) (c : Chip) (rails : Bool) (obs : BootObs), (c.sleepy = true) ∧ ((c.reg rPWR_WAKECFG).testBit 0 = true) ∧ (c.tt.counter ≤ c.reg64 rPWR_ALARM_LO)) ∧
    (∃ (o : Otp) (c : Chip) (pin : Fin 48) (rising rails : Bool) (obs : BootObs) (w : Nat), (c.sleepy = true) ∧ (w = c.reg rPWR_WAKECFG) ∧ ((c.pin pin.val).cfg.fn = fnGpioIn) ∧ (40 ≤ pin.val) ∧ (w.testBit 1 = true) ∧ (w.testBit (8 + (pin.val - 40)) = true) ∧ (w.testBit 16 = !rising)) ∧
    (∃ (o : Otp) (c : Chip), (c.pwr.st = .railWait)) ∧
    (∃ (o : Otp) (c : Chip) (obs : BootObs), (c.boot.held = true)) ∧
    (∃ (o : Otp) (c : Chip) (obs : BootObs), (c.boot.held = false) ∧ (c.pwr.st = .railWait)) ∧
    (∃ (o : Otp) (c : Chip) (need : Nat) (t : Nat), (t = c.regField rPWR_AVS 25 16) ∧ (avsNext t need ≠ t)) ∧
    (∃ (o : Otp) (c : Chip) (need : Nat), (avsNext (c.regField rPWR_AVS 25 16) need = c.regField rPWR_AVS 25 16)) ∧
    (∃ (o : Otp) (c : Chip) (plat port hbm : List Int) (c1 : Chip), (c1 = c.passTo (c.pwr.sampleAt + 100 * tUs))) :=
  ⟨⟨{}, { isl := List.replicate 14 { st := .opened, prepare := true } }, 12, by decide⟩,
   ⟨{}, { isl := List.replicate 14 { st := .closing } }, 2, by decide⟩,
   ⟨{}, { isl := List.replicate 14 { st := .closing } }, 2, by decide⟩,
   ⟨{}, { isl := List.replicate 14 { st := .opening } }, 2, by decide⟩,
   ⟨{}, { boot := { step := 14, opening := some 0 } }, 0, 0, _, by exact ⟨rfl, rfl, by decide, rfl, by decide⟩⟩,
   ⟨{}, { boot := { step := 14, opening := some 8 } }, 8, _, by exact ⟨rfl, rfl, by decide, rfl, by decide⟩⟩,
   ⟨{}, { net := { held := [heldOf] } }, heldOf, by decide⟩,
   ⟨{}, { pwr := { st := .entering } }, by decide⟩,
   ⟨{}, { pwr := { st := .standby }, regs := [(rPWR_WAKECFG, 1)] }, true, {}, by decide⟩,
   ⟨{}, { pwr := { st := .standby }, regs := [(rPWR_WAKECFG, 0x10102)], pins := List.replicate 48 { cfg := { fn := fnGpioIn } } }, 40, false, true, {}, _, by exact ⟨by decide, rfl, by decide, by decide, by decide, by decide, by decide⟩⟩,
   ⟨{}, { pwr := { st := .railWait } }, by decide⟩,
   ⟨{}, { boot := { held := true } }, {}, by decide⟩,
   ⟨{}, { pwr := { st := .railWait } }, {}, by decide⟩,
   ⟨{}, {}, 700, _, by exact ⟨rfl, by decide⟩⟩,
   ⟨{}, { regs := [(rPWR_AVS, 0x2EE0000)] }, 750, by decide⟩,
   ⟨{}, {}, [], [], [], _, by rfl⟩⟩

theorem witness_SecurityCommandsComplete :
    (∃ (o : Otp) (c : Chip), (c.secPermits o rSEC_GO 1 = true)) ∧
    (∃ (o : Otp) (c : Chip), (c.secPermits o rSEC_GO 1 = false)) ∧
    (∃ (o : Otp) (c : Chip), (c.secPermits o rSEC_GO 2 = true)) ∧
    (∃ (o : Otp) (c : Chip), (c.secPermits o rSEC_GO 2 = false)) ∧
    (∃ (o : Otp) (c : Chip) (mask : BitVec 16), (c.secPermits o rSEC_KSREVOKE mask.toNat = true)) ∧
    (∃ (o : Otp) (c : Chip) (mask : BitVec 16), (c.secPermits o rSEC_KSREVOKE mask.toNat = false)) ∧
    (∃ (o : Otp) (c : Chip), (c.islOpen 1 = true)) ∧
    (∃ (o : Otp) (c : Chip) (value : Word) (ecdsa mldsa : List SigCheck), (c.islOpen 1 = true)) ∧
    (∃ (o : Otp) (c : Chip), (c.sec.dbg.level ≠ 0) ∧ (c.sec.dbg.free = false) ∧ (c.flt.latch = false)) ∧
    (∃ (o : Otp) (c : Chip) (n : List Byte), (c.sec.dbg.nonce = some n)) ∧
    (∃ (o : Otp) (c : Chip) (value : Word), (c.debugPass true rDBG_HALT_LO value.toNat = true)) ∧
    (∃ (o : Otp) (c : Chip) (value : Word), (c.debugPass true rDBG_HALT_HI value.toNat = true)) ∧
    (∃ (o : Otp) (c : Chip) (high : Bool) (value : Word), (c.debugPass true (if high then rDBG_HALT_HI else rDBG_HALT_LO) value.toNat = false)) ∧
    (∃ (o : Otp) (c : Chip) (value : Word), (c.debugPass true rDBG_CORE value.toNat = true)) ∧
    (∃ (o : Otp) (c : Chip) (value : Word), (c.debugPass true rDBG_CORE value.toNat = false)) ∧
    (∃ (o : Otp) (c : Chip) (write : Bool) (value : Word), (c.debugPass write rDBG_DATA value.toNat = true)) ∧
    (∃ (o : Otp) (c : Chip) (write : Bool) (value : Word), (c.debugPass write rDBG_DATA value.toNat = false)) ∧
    (∃ (o : Otp) (c : Chip), (c.pwr.waitDebug = none)) ∧
    (∃ (o : Otp) (c : Chip) (t : Nat), (c.pwr.waitDebug = some t)) :=
  ⟨⟨{ lcA := 0 }, { regs := [(rSEC_KSPROG_SLOT, 5)] }, by decide +kernel⟩,
   ⟨{ lcA := 3 }, {}, by decide +kernel⟩,
   ⟨{ lcA := 0 }, { regs := [(rSEC_KEKPROG_SLOT, 1)] }, by decide +kernel⟩,
   ⟨{ lcA := 3 }, {}, by decide +kernel⟩,
   ⟨{ lcA := 1 }, {}, 2, by decide +kernel⟩,
   ⟨{}, {}, 1, by decide +kernel⟩,
   ⟨{}, openChip, by decide⟩,
   ⟨{}, openChip, 0, [], [], by decide⟩,
   ⟨{}, { sec := { dbg := { level := 2 } } }, by decide⟩,
   ⟨{}, { sec := { dbg := { nonce := some [] } } }, [], by decide⟩,
   ⟨{}, dbgOpen, 1, by decide +kernel⟩,
   ⟨{}, dbgOpen, 1, by decide +kernel⟩,
   ⟨{}, {}, true, 1, by decide +kernel⟩,
   ⟨{}, dbgOpen, 1, by decide +kernel⟩,
   ⟨{}, {}, 1, by decide +kernel⟩,
   ⟨{}, dbgOpen, true, 1, by decide +kernel⟩,
   ⟨{}, {}, true, 1, by decide +kernel⟩,
   ⟨{}, {}, by decide⟩,
   ⟨{}, { pwr := { waitDebug := some 5 } }, 5, by decide⟩⟩

theorem witness_TapAnswers :
    (∃ (o : Otp) (c : Chip) (low : Bool), (low = true ∨ o.lc = 0 ∨ o.lc = 3 ∨ o.lc = 4)) ∧
    (∃ (o : Otp) (c : Chip), (o.lc ≠ 0) ∧ (o.lc ≠ 3) ∧ (o.lc ≠ 4)) ∧
    (∃ (o : Otp) (c : Chip) (low : Bool), (low = true ∨ o.lc = 0 ∨ o.lc = 3 ∨ o.lc = 4)) ∧
    (∃ (o : Otp) (c : Chip), (o.lc ≠ 0) ∧ (o.lc ≠ 3) ∧ (o.lc ≠ 4)) ∧
    (∃ (o : Otp) (c : Chip) (low : Bool), (low = true ∨ o.lc = 0 ∨ o.lc = 3 ∨ o.lc = 4)) ∧
    (∃ (o : Otp) (c : Chip), (o.lc ≠ 0) ∧ (o.lc ≠ 3) ∧ (o.lc ≠ 4)) :=
  ⟨⟨{}, {}, true, by exact Or.inl rfl⟩,
   ⟨{ lcA := 2, lcB := 2, lcC := 2 }, {}, by decide⟩,
   ⟨{}, {}, true, by exact Or.inl rfl⟩,
   ⟨{ lcA := 2, lcB := 2, lcC := 2 }, {}, by decide⟩,
   ⟨{}, {}, true, by exact Or.inl rfl⟩,
   ⟨{ lcA := 2, lcB := 2, lcC := 2 }, {}, by decide⟩⟩

theorem witness_PinCommandsComplete :
    (∃ (o : Otp) (c : Chip) (pin : Fin 48) (e : PinEntry), (c.pinOff pin = false) ∧ ((c.pin pin).change = some e) ∧ ((c.pin pin).phase = 0) ∧ (isXspi (c.pin pin).cfg.fn = false)) ∧
    (∃ (o : Otp) (c : Chip) (pin : Fin 48) (e : PinEntry) (c1 : Chip), (c.pinOff pin = false) ∧ ((c.pin pin).change = some e) ∧ ((c.pin pin).phase = 1) ∧ (c.proc? (0x400 + pin) = none) ∧ (c1 = c.passTo ((c.pin pin).changeAt + 2 * tUs))) ∧
    (∃ (o : Otp) (c : Chip) (pin : Fin 48) (p : AmdProc), (c.pinOff pin = false) ∧ ((c.pin pin).phase = 1) ∧ (c.proc? (0x400 + pin) = some p)) ∧
    (∃ (o : Otp) (c : Chip) (pin : Fin 48) (level : Bool) (e : PinEntry) (c1 : Chip), (c.pinOff pin = false) ∧ ((c.pin pin).change = some e) ∧ ((c.pin pin).phase = 2) ∧ (isXspi e.fn = false) ∧ (c1 = c.passTo ((c.pin pin).changeAt + 2 * tUs))) ∧
    (∃ (o : Otp) (c : Chip) (pin : Fin 48), (c.pinDrives pin = true) ∧ ((c.pin pin).fault = false) ∧ ((c.pin pin).cfg.openDrain = false ∨ c.pinValue pin = (c.pin pin).cfg.invert) ∧ (pin.val ≠ 40) ∧ (isXspi (c.pin pin).cfg.fn = false)) ∧
    (∃ (o : Otp) (c : Chip) (pin : Fin 48) (clean : Bool) (c1 : Chip), ((c.pin pin).fault = true) ∧ (c.pinOff pin = false) ∧ (c1 = c.passTo ((c.pin pin).faultAt + tSec))) ∧
    (∃ (o : Otp) (c : Chip) (pin : Fin 48) (t : Nat), (c.pinOn pin fnStrobe = true) ∧ (c.tt.running = true) ∧ ((c.pin pin).strobed ≠ some c.tt.turnNum) ∧ (t = c.tt.boundary + strobePhase (c.pin pin).cfg) ∧ (t < c.tt.nextBoundary c.turnPeriod)) ∧
    (∃ (o : Otp) (c : Chip) (pin : Fin 48) (t : Nat), ((c.pin pin).strobe = some t)) ∧
    (∃ (o : Otp) (c : Chip) (line : List Byte), (c.anyPin fnUartRx = true) ∧ (c.anyPin fnUartTx = true) ∧ (c.islOpen 1 = true) ∧ (c.ctl.run % 2 = 1)) :=
  ⟨⟨{}, { pins := List.replicate 48 { change := some {} } }, 47, {}, by decide⟩,
   ⟨{}, { pins := List.replicate 48 { change := some {}, phase := 1 } }, 47, {}, _, by exact ⟨rfl, rfl, rfl, rfl, rfl⟩⟩,
   ⟨{}, { pins := List.replicate 48 { change := some {}, phase := 1 }, amd := { procs := [procOf 0x42F] } }, 47, procOf 0x42F, by decide⟩,
   ⟨{}, { pins := List.replicate 48 { change := some {}, phase := 2 } }, 47, true, {}, _, by exact ⟨rfl, rfl, rfl, rfl, rfl⟩⟩,
   ⟨{}, { pins := List.replicate 48 { cfg := { fn := fnGpioOut }, enabled := true } }, 47, by decide⟩,
   ⟨{}, { pins := List.replicate 48 { fault := true } }, 47, true, _, by exact ⟨rfl, rfl, rfl⟩⟩,
   ⟨{}, { tt := { running := true }, regs := [(rTT_TURN_LO, 1000000)], pins := List.replicate 48 { cfg := { fn := fnStrobe, param := 2 ^ 32 + 5 }, attached := true } }, 47, _, by exact ⟨rfl, rfl, by decide, rfl, by decide⟩⟩,
   ⟨{}, { pins := List.replicate 48 { strobe := some 3 } }, 47, 3, by decide⟩,
   ⟨{}, { openChip with ctl := { run := 1 }, pins := List.replicate 2 { cfg := { fn := fnUartTx }, attached := true } ++ [{ cfg := { fn := fnUartRx }, attached := true }] }, [], by decide⟩⟩

theorem witness_AmendmentCommandsComplete :
    (∃ (o : Otp) (c : Chip) (ecdsa mldsa : List SigCheck) (i : RItem) (c1 : Chip), (c.amd.unsent = []) ∧ (c.ohmaxRuns = true) ∧ (c.islOpen 10 = true) ∧ (c.flt.stop = false) ∧ ((c.ring 1).st = .opened) ∧ (2 ≤ c.ringFree 1) ∧ (c.takeItem 0 .ohmax = some (i, c1))) ∧
    (∃ (o : Otp) (c : Chip) (scope : BitVec 16) (p : AmdProc), (c.proc? scope.toNat = some p) ∧ (c.scopeQuiet scope.toNat = true) ∧ (c.elapsed ≤ p.since + p.limit) ∧ (c.islOpen (scopeIsland scope.toNat) = true)) ∧
    (∃ (o : Otp) (c : Chip) (scope : BitVec 16) (p : AmdProc), (c.proc? scope.toNat = some p) ∧ (scopeKind scope.toNat = 1) ∧ (p.half = false) ∧ (c.scopeQuiet scope.toNat = false)) ∧
    (∃ (o : Otp) (c : Chip) (scope : BitVec 16) (p : AmdProc), (c.proc? scope.toNat = some p) ∧ (c.scopeQuiet scope.toNat = false)) ∧
    (∃ (o : Otp) (c : Chip) (scope : BitVec 16) (op : Nat) (p : AmdProc), (c.proc? scope.toNat = some p) ∧ (c.scopeQuiet scope.toNat = true) ∧ (op < p.ops.length)) ∧
    (∃ (o : Otp) (c : Chip) (obj : Word) (code : BitVec 8), (c.procWrites o 0x500 [(rAMD_PLACE_OBJ, obj.toNat), (rAMD_PLACE_CODE, code.toNat)] = true)) ∧
    (∃ (o : Otp) (c : Chip) (obj : Word) (code : BitVec 8), (c.procWrites o 0x500 [(rAMD_PLACE_OBJ, obj.toNat), (rAMD_PLACE_CODE, code.toNat)] = false)) ∧
    (∃ (o : Otp) (c : Chip) (plat : Fin 8) (role : Fin 3), (c.procWrites o (0x100 + plat.val) [(rAMD_ROLE + 4 * plat.val, role.val)] = true)) ∧
    (∃ (o : Otp) (c : Chip) (plat : Fin 8) (role : Fin 3), (c.procWrites o (0x100 + plat.val) [(rAMD_ROLE + 4 * plat.val, role.val)] = false)) :=
  ⟨⟨{}, amdChip, [], [], _, _, by exact ⟨rfl, by decide, by decide, rfl, by decide, by decide, rfl⟩⟩,
   ⟨{}, { openChip with amd := { procs := [procOf 0x101] } }, 0x101, procOf 0x101, by decide⟩,
   ⟨{}, procChip, 0x101, procOf 0x101, by decide⟩,
   ⟨{}, procChip, 0x101, procOf 0x101, by decide⟩,
   ⟨{}, { openChip with amd := { procs := [{ procOf 0x101 with ops := [⟨rAMD_ROLE, 3, 1⟩] }] } }, 0x101, 0, { procOf 0x101 with ops := [⟨rAMD_ROLE, 3, 1⟩] }, by decide⟩,
   ⟨{}, { openChip with amd := { procs := [{ procOf 0x500 with ops := [⟨rAMD_PLACE_OBJ, 0xFFFFFFFF, 1⟩, ⟨rAMD_PLACE_CODE, 255, 2⟩] }] } }, 1, 2, by decide +kernel⟩,
   ⟨{}, {}, 1, 2, by decide⟩,
   ⟨{}, { openChip with amd := { procs := [{ procOf 0x101 with ops := [⟨rAMD_ROLE + 4, 3, 1⟩] }] } }, 1, 1, by decide +kernel⟩,
   ⟨{}, {}, 1, 2, by decide⟩⟩

theorem witness_LampReceiverCompletes :
    (∃ (o : Otp) (c : Chip) (gap width : Nat) (c1 : Chip), (c.pinOn 41 fnLampRx = true) ∧ (c.lamp.rx ≠ .blanked) ∧ (c.lamp.rx ≠ .tx) ∧ (125 ≤ width) ∧ (width ≤ 400) ∧ (c1 = c.passTo (c.elapsed + gap * tNs + width * tNs)) ∧ (c1.pinOn 41 fnLampRx = true)) ∧
    (∃ (o : Otp) (c : Chip) (gap width : Nat) (c1 : Chip), (c.lamp.rx ≠ .blanked) ∧ (c.lamp.rx ≠ .tx) ∧ (width < 125 ∨ 400 < width) ∧ (c1 = c.passTo (c.elapsed + gap * tNs + width * tNs)) ∧ (c1.pinOn 41 fnLampRx = true)) ∧
    (∃ (o : Otp) (c : Chip) (b : List Byte) (len : Nat) (c1 : Chip), (c.lamp.rx = .frame) ∧ (b = symbolBytes c.lamp.symbols) ∧ (len = fieldAt b 3 1) ∧ (len ≤ 248) ∧ (6 + len ≤ b.length) ∧ (crc16 (b.take (4 + len)) = fieldAt b (4 + len) 2) ∧ (fieldAt b 0 1 = 0xC5) ∧ (c1 = c.passTo (c.lamp.grid + (16 * (6 + len) * lampChip : Nat)).toNat)) ∧
    (∃ (o : Otp) (c : Chip) (b : List Byte) (len code : Nat), (c.lamp.rx = .frame) ∧ (b = symbolBytes c.lamp.symbols) ∧ (len = fieldAt b 3 1) ∧ (code = (if 4 ≤ b.length ∧ 248 < len then abLength else if b.length < 4 ∨ b.length < 6 + len then abSymbol else if crc16 (b.take (4 + len)) ≠ fieldAt b (4 + len) 2 then abCrc else if fieldAt b 0 1 ≠ 0xC5 then abDir else 0)) ∧ (code ≠ 0)) ∧
    (∃ (o : Otp) (c : Chip) (g : LampCmd), (c.lamp.good = some g)) ∧
    (∃ (o : Otp) (c : Chip) (gap : Nat) (level : BitVec 8), (c.lamp.rx ≠ .blanked) ∧ (c.lamp.rx ≠ .tx)) ∧
    (∃ (o : Otp) (c : Chip) (gap : Nat) (level : BitVec 8), (c.lamp.rx = .blanked)) ∧
    (∃ (o : Otp) (c : Chip) (level : BitVec 8) (c1 : Chip), (c1 = c.lampLevel level.toNat) ∧ (c1.lamp.absent = false) ∧ (level.toNat < c1.regField rLAMP_CFG 15 8)) ∧
    (∃ (o : Otp) (c : Chip) (r : LampReply) (rest : List LampReply) (c1 : Chip), (c.lamp.replies = r :: rest) ∧ (c.lamp.rx = .hunt ∨ c.lamp.rx = .blanked) ∧ (c1 = c.passTo (max r.earliest r.ready)) ∧ (c1.lampTxUp = true)) ∧
    (∃ (o : Otp) (c : Chip) (r : LampReply) (rest : List LampReply), (c.lamp.replies = r :: rest) ∧ (c.lamp.rx ≠ .tx)) ∧
    (∃ (o : Otp) (c : Chip), (c.lamp.rx = .tx) ∧ (c.lamp.dazzled = false)) ∧
    (∃ (o : Otp) (c : Chip), (c.lamp.rx = .tx) ∧ (c.lamp.dazzled = true)) :=
  ⟨⟨{}, lampChip0, 5, 200, _, by exact ⟨by decide, by decide, by decide, by decide, by decide, rfl, by decide⟩⟩,
   ⟨{}, lampChip0, 5, 401, _, by exact ⟨by decide, by decide, by decide, rfl, by decide⟩⟩,
   ⟨{}, { lamp := { rx := .frame, symbols := lampSymbols } }, _, _, _, by exact ⟨rfl, rfl, rfl, by decide +kernel, by decide +kernel, by decide +kernel, by decide +kernel, rfl⟩⟩,
   ⟨{}, { lamp := { rx := .frame } }, [], 0, _, by exact ⟨rfl, rfl, rfl, rfl, by decide⟩⟩,
   ⟨{}, { lamp := { good := some lampCmdOf } }, lampCmdOf, by decide⟩,
   ⟨{}, lampChip0, 1, 200, by decide⟩,
   ⟨{}, { lamp := { rx := .blanked } }, 1, 0, by decide⟩,
   ⟨{}, { regs := [(rLAMP_CFG, 0x6428)] }, 1, _, by exact ⟨rfl, by decide, by decide⟩⟩,
   ⟨{}, { lampChip0 with lamp := { replies := [lampReplyOf] } }, lampReplyOf, [], _, by exact ⟨rfl, Or.inl rfl, rfl, by decide⟩⟩,
   ⟨{}, { lamp := { replies := [lampReplyOf] } }, lampReplyOf, [], by decide⟩,
   ⟨{}, { lamp := { rx := .tx } }, by decide⟩,
   ⟨{}, { lamp := { rx := .tx, dazzled := true } }, by decide⟩⟩

theorem witness_LampCommandsComplete :
    (∃ (o : Otp) (c : Chip) (g : LampCmd), (c.lamp.serving = some g) ∧ (g.cmd = 0x01) ∧ (c.lamp.itemAt = none)) ∧
    (∃ (o : Otp) (c : Chip) (g : LampCmd), (c.lamp.serving = some g) ∧ (g.cmd = 0x02) ∧ (c.lamp.itemAt = none)) ∧
    (∃ (o : Otp) (c : Chip) (g : LampCmd), (c.lamp.serving = some g) ∧ (g.cmd = 0x03) ∧ (c.lamp.itemAt = none)) ∧
    (∃ (o : Otp) (c : Chip) (g : LampCmd), (c.lamp.serving = some g) ∧ (g.cmd = 0x10) ∧ (c.lamp.itemAt = none)) ∧
    (∃ (o : Otp) (c : Chip) (g : LampCmd) (i : RItem) (c1 : Chip) (r : List Byte × Chip), (c.lamp.serving = some g) ∧ (g.cmd = 0x11) ∧ (c.lamp.itemAt.isSome = true) ∧ (c.lampOhmax = true) ∧ (c.takeLamp 256 = some (i, c1)) ∧ (r = Chip.lampTokenChunk g (c1.completeItem 5 i.seq 0 0))) ∧
    (∃ (o : Otp) (c : Chip) (ecdsa mldsa : List SigCheck) (g : LampCmd) (i : RItem) (c1 : Chip) (r : List Byte × Chip), (c.lamp.serving = some g) ∧ (g.cmd = 0x12) ∧ (c.lamp.itemAt.isSome = true) ∧ (c.lampOhmax = true) ∧ (c.takeLamp 256 = some (i, c1)) ∧ (r = Chip.lampUnlock o (ecdsa ++ mldsa) g (c1.completeItem 5 i.seq 0 0))) ∧
    (∃ (o : Otp) (c : Chip) (g : LampCmd) (i : RItem) (c1 : Chip), (c.lamp.serving = some g) ∧ (g.cmd = 0x13) ∧ (c.lamp.itemAt.isSome = true) ∧ (c.lampOhmax = true) ∧ (c.takeLamp 256 = some (i, c1))) ∧
    (∃ (o : Otp) (c : Chip) (g : LampCmd) (i : RItem) (c1 : Chip) (r : List Byte × Chip), (c.lamp.serving = some g) ∧ (g.cmd = 0x20) ∧ (c.lamp.itemAt.isSome = true) ∧ (c.lampOhmax = true) ∧ (c.takeLamp 256 = some (i, c1)) ∧ (r = Chip.lampAmdChunk g (c1.completeItem 5 i.seq 0 0))) ∧
    (∃ (o : Otp) (c : Chip) (g : LampCmd) (i : RItem) (c1 : Chip) (r : List Byte × Chip), (c.lamp.serving = some g) ∧ (g.cmd = 0x21) ∧ (c.lamp.itemAt.isSome = true) ∧ (c.lampOhmax = true) ∧ (c.takeLamp 256 = some (i, c1)) ∧ (r = Chip.lampAmdPost g (c1.completeItem 5 i.seq 0 0))) ∧
    (∃ (o : Otp) (c : Chip) (g : LampCmd) (t : Nat), (c.lamp.serving = some g) ∧ (c.lamp.itemAt = some t)) ∧
    (∃ (o : Otp) (c : Chip) (value : Word) (g : LampCmd), (c.lamp.serving = some g) ∧ (c.lamp.itemAt.isSome = true) ∧ (g.tag = bitsOf value.toNat 15 8)) ∧
    (∃ (o : Otp) (c : Chip) (t : Nat), (c.lamp.session = some t)) ∧
    (∃ (o : Otp) (c : Chip) (n : List Byte), (c.lamp.nonce = some n)) :=
  ⟨⟨{}, lampServing 0x01, lampCmdAt 0x01, by decide⟩,
   ⟨{}, lampServing 0x02, lampCmdAt 0x02, by decide⟩,
   ⟨{}, lampServing 0x03, lampCmdAt 0x03, by decide⟩,
   ⟨{}, lampServing 0x10, lampCmdAt 0x10, by decide⟩,
   ⟨{}, lampOhmaxOf 0x11, lampCmdAt 0x11, _, _, _, by exact ⟨rfl, rfl, rfl, by decide, rfl, rfl⟩⟩,
   ⟨{}, lampOhmaxOf 0x12, [], [], lampCmdAt 0x12, _, _, _, by exact ⟨rfl, rfl, rfl, by decide, rfl, rfl⟩⟩,
   ⟨{}, lampOhmaxOf 0x13, lampCmdAt 0x13, _, _, by exact ⟨rfl, rfl, rfl, by decide, rfl⟩⟩,
   ⟨{}, lampOhmaxOf 0x20, lampCmdAt 0x20, _, _, _, by exact ⟨rfl, rfl, rfl, by decide, rfl, rfl⟩⟩,
   ⟨{}, lampOhmaxOf 0x21, lampCmdAt 0x21, _, _, _, by exact ⟨rfl, rfl, rfl, by decide, rfl, rfl⟩⟩,
   ⟨{}, lampOhmaxOf 0x21, lampCmdAt 0x21, 5, by decide⟩,
   ⟨{}, lampOhmaxOf 0x21, 1, lampCmdAt 0x21, by decide⟩,
   ⟨{}, { lamp := { session := some 5 } }, 5, by decide⟩,
   ⟨{}, { lamp := { nonce := some [] } }, [], by decide⟩⟩

theorem witness_SidebandCommandsComplete :
    (∃ (o : Otp) (c : Chip) (addr : BitVec 7), (c.boot.held = false) ∧ (2 ≤ c.boot.step) ∧ (c.i3c.dyn = none)) ∧
    (∃ (o : Otp) (c : Chip) (addr : BitVec 7), (c.boot.held = false) ∧ (2 ≤ c.boot.step) ∧ (c.i3c.dyn = none)) ∧
    (∃ (o : Otp) (c : Chip), (c.boot.held = false) ∧ (2 ≤ c.boot.step)) ∧
    (∃ (o : Otp) (c : Chip), (c.boot.held = false) ∧ (2 ≤ c.boot.step)) ∧
    (∃ (o : Otp) (c : Chip), (c.boot.held = false) ∧ (2 ≤ c.boot.step)) ∧
    (∃ (o : Otp) (c : Chip) (data : List Byte) (rails : Bool) (obs : BootObs), (c.boot.held = false) ∧ (2 ≤ c.boot.step) ∧ (2 ≤ data.length) ∧ (hitsWake (fieldAt data 0 2) (data.drop 2) = false ∨ c.sleepy = false ∨ (c.reg rPWR_WAKECFG).testBit 2 = false)) ∧
    (∃ (o : Otp) (c : Chip) (data : List Byte) (rails : Bool) (obs : BootObs), (c.boot.held = false) ∧ (2 ≤ c.boot.step) ∧ (2 ≤ data.length) ∧ (hitsWake (fieldAt data 0 2) (data.drop 2) = true) ∧ (c.sleepy = true) ∧ ((c.reg rPWR_WAKECFG).testBit 2 = true)) ∧
    (∃ (o : Otp) (c : Chip) (count : Nat), (c.boot.held = false) ∧ (2 ≤ c.boot.step)) ∧
    (∃ (o : Otp) (c : Chip), (c.boot.held = false) ∧ (2 ≤ c.boot.step) ∧ (c.i3c.dyn.isSome = true)) ∧
    (∃ (o : Otp) (c : Chip), (c.boot.held = false) ∧ (2 ≤ c.boot.step) ∧ (c.i3c.dyn.isSome = true)) ∧
    (∃ (o : Otp) (c : Chip), (c.boot.held = false) ∧ (2 ≤ c.boot.step) ∧ (c.i3c.dyn.isSome = true)) ∧
    (∃ (o : Otp) (c : Chip), (c.boot.held = false) ∧ (2 ≤ c.boot.step) ∧ (c.i3c.dyn.isSome = true)) ∧
    (∃ (o : Otp) (c : Chip), (c.boot.held = false) ∧ (2 ≤ c.boot.step) ∧ (c.i3c.dyn.isSome = true)) ∧
    (∃ (o : Otp) (c : Chip), (c.boot.held = false) ∧ (2 ≤ c.boot.step) ∧ (c.i3c.dyn.isSome = true)) :=
  ⟨⟨{}, { boot := { step := 2 } }, 9, by decide⟩,
   ⟨{}, { boot := { step := 2 } }, 9, by decide⟩,
   ⟨{}, { boot := { step := 2 } }, by decide⟩,
   ⟨{}, { boot := { step := 2 } }, by decide⟩,
   ⟨{}, { boot := { step := 2 } }, by decide⟩,
   ⟨{}, { boot := { step := 2 } }, [0, 0x30, 0xA5], true, {}, by decide⟩,
   ⟨{}, { boot := { step := 2 }, pwr := { st := .standby }, regs := [(rPWR_WAKECFG, 4)] }, [0, 0x30, 0xA5], true, {}, by decide⟩,
   ⟨{}, { boot := { step := 2 } }, 256, by decide⟩,
   ⟨{}, { boot := { step := 2 }, i3c := { dyn := some 9 } }, by decide⟩,
   ⟨{}, { boot := { step := 2 }, i3c := { dyn := some 9 } }, by decide⟩,
   ⟨{}, { boot := { step := 2 }, i3c := { dyn := some 9 } }, by decide⟩,
   ⟨{}, { boot := { step := 2 }, i3c := { dyn := some 9 } }, by decide⟩,
   ⟨{}, { boot := { step := 2 }, i3c := { dyn := some 9 } }, by decide⟩,
   ⟨{}, { boot := { step := 2 }, i3c := { dyn := some 9 } }, by decide⟩⟩

theorem witness_SpdmCommandsComplete :
    (∃ (o : Otp) (c : Chip) (chan : Fin 4), ((if chan.val < 2 then c.fxLive chan.val else c.ethLive (chan.val - 2)) = true) ∧ (c.ohmaxRuns = true) ∧ (c.pstate o < 2)) ∧
    (∃ (o : Otp) (c : Chip) (chan : Fin 4), ((if chan.val < 2 then c.fxLive chan.val else c.ethLive (chan.val - 2)) = true) ∧ (c.ohmaxRuns = true) ∧ (c.pstate o < 2) ∧ (c.ports.spdmVersion = true)) ∧
    (∃ (o : Otp) (c : Chip) (chan : Fin 4), ((if chan.val < 2 then c.fxLive chan.val else c.ethLive (chan.val - 2)) = true) ∧ (c.ohmaxRuns = true) ∧ (c.pstate o < 2) ∧ (c.ports.spdmVersion = false)) ∧
    (∃ (o : Otp) (c : Chip) (chan : Fin 4), ((if chan.val < 2 then c.fxLive chan.val else c.ethLive (chan.val - 2)) = true) ∧ (c.ohmaxRuns = true) ∧ (c.pstate o < 2) ∧ (c.ports.spdmCaps = true)) ∧
    (∃ (o : Otp) (c : Chip) (chan : Fin 4), ((if chan.val < 2 then c.fxLive chan.val else c.ethLive (chan.val - 2)) = true) ∧ (c.ohmaxRuns = true) ∧ (c.pstate o < 2) ∧ (c.ports.spdmCaps = false)) ∧
    (∃ (o : Otp) (c : Chip) (chan : Fin 4), ((if chan.val < 2 then c.fxLive chan.val else c.ethLive (chan.val - 2)) = true) ∧ (c.ohmaxRuns = true) ∧ (c.pstate o < 2) ∧ (c.ports.spdmAlgs = true)) ∧
    (∃ (o : Otp) (c : Chip) (chan : Fin 4) (slot : Fin 8) (off len : Half), ((if chan.val < 2 then c.fxLive chan.val else c.ethLive (chan.val - 2)) = true) ∧ (c.ohmaxRuns = true) ∧ (c.pstate o < 2) ∧ (c.ports.spdmAlgs = true) ∧ (o.identity = true) ∧ (slot.val = 0) ∧ (off.toNat < o.spdmChain.length)) ∧
    (∃ (o : Otp) (c : Chip) (chan : Fin 4) (slot : Fin 8) (off len : Half), ((if chan.val < 2 then c.fxLive chan.val else c.ethLive (chan.val - 2)) = true) ∧ (c.ohmaxRuns = true) ∧ (c.pstate o < 2) ∧ (c.ports.spdmAlgs = true) ∧ (o.identity = false ∨ slot.val ≠ 0 ∨ o.spdmChain.length ≤ off.toNat)) ∧
    (∃ (o : Otp) (c : Chip) (chan : Fin 4) (slot : Fin 8), ((if chan.val < 2 then c.fxLive chan.val else c.ethLive (chan.val - 2)) = true) ∧ (c.ohmaxRuns = true) ∧ (c.pstate o < 2) ∧ (c.ports.spdmAlgs = true) ∧ (o.identity = true) ∧ (slot.val = 0)) ∧
    (∃ (o : Otp) (c : Chip) (chan : Fin 4) (slot : Fin 8), ((if chan.val < 2 then c.fxLive chan.val else c.ethLive (chan.val - 2)) = true) ∧ (c.ohmaxRuns = true) ∧ (c.pstate o < 2) ∧ (c.ports.spdmAlgs = true) ∧ (o.identity = false)) ∧
    (∃ (o : Otp) (c : Chip) (chan : Fin 4) (index : BitVec 8) (signed : Bool) (blocks : List MeasBlock) (g : Nat × Chip), ((if chan.val < 2 then c.fxLive chan.val else c.ethLive (chan.val - 2)) = true) ∧ (c.ohmaxRuns = true) ∧ (c.pstate o < 2) ∧ (c.ports.spdmAlgs = true) ∧ (index.toNat ≤ 6 ∨ index.toNat = 0xFF) ∧ (signed = false ∨ o.identity = true) ∧ (blocks = (if index.toNat = 0 then [] else if index.toNat = 0xFF then [1, 2, 3, 4, 5, 6].map (Chip.measBlock o c) else [c.measBlock o index.toNat])) ∧ (g = (if signed then (c.drawMany 2).2.drawMany 6 else (0, (c.drawMany 2).2)))) ∧
    (∃ (o : Otp) (c : Chip) (chan : Fin 4) (index : BitVec 8) (signed : Bool), ((if chan.val < 2 then c.fxLive chan.val else c.ethLive (chan.val - 2)) = true) ∧ (c.ohmaxRuns = true) ∧ (c.pstate o < 2) ∧ (c.ports.spdmAlgs = true) ∧ (6 < index.toNat) ∧ (index.toNat ≠ 0xFF)) :=
  ⟨⟨{}, fxChip, 0, by decide⟩,
   ⟨{}, fxChipS, 0, by decide⟩,
   ⟨{}, fxChip, 0, by decide⟩,
   ⟨{}, fxChipS, 0, by decide⟩,
   ⟨{}, fxChip, 0, by decide⟩,
   ⟨{}, fxChipS, 0, by decide +kernel⟩,
   ⟨{ lcA := 1 }, fxChipS, 0, 0, 0, 5, by decide +kernel⟩,
   ⟨{ lcA := 1 }, fxChipS, 0, 1, 0, 5, by decide +kernel⟩,
   ⟨{ lcA := 1 }, fxChipS, 0, 0, by decide +kernel⟩,
   ⟨{ lcA := 3 }, fxChipS, 0, 0, by decide +kernel⟩,
   ⟨{}, fxChipS, 0, 0xFF, false, _, _, by exact ⟨by decide, by decide, by decide, by decide, by decide, by decide, rfl, rfl⟩⟩,
   ⟨{}, fxChipS, 0, 7, false, by decide +kernel⟩⟩

theorem witness_FlexPortCommandsComplete :
    (∃ (o : Otp) (c : Chip) (fx : Fin 2) (c1 : Chip), (c1 = c.setFx fx.val fun x => { x with sent := [] })) ∧
    (∃ (o : Otp) (c : Chip) (fx : Fin 2) (c1 : Chip), (c1 = c.setFx fx.val fun x => { x with sent := [] }) ∧ (c1.im.fxMode fx.val = 1) ∧ (c1.islOpen (portIsland fx.val) = true)) ∧
    (∃ (o : Otp) (c : Chip) (fx : Fin 2) (c1 : Chip), (c1 = c.setFx fx.val fun x => { x with sent := [] }) ∧ (c1.im.fxMode fx.val ≠ 1)) ∧
    (∃ (o : Otp) (c : Chip) (fx : Fin 2) (speed : Fin 6) (width : Fin 3) (c1 : Chip), (c1 = c.setFx fx.val fun x => { x with sent := [] }) ∧ (c1.im.fxMode fx.val = 1) ∧ ((c1.fx fx.val).link = 1) ∧ (portLanes width.val ≤ c1.im.fxWidth fx.val)) ∧
    (∃ (o : Otp) (c : Chip) (fx : Fin 2) (c1 : Chip), (c1 = c.setFx fx.val fun x => { x with sent := [] }) ∧ (c1.im.fxMode fx.val = 1) ∧ ((c1.fx fx.val).link = 2) ∧ (c1.ohmaxRuns = true)) ∧
    (∃ (o : Otp) (c : Chip) (fx : Fin 2) (write : Bool) (off : BitVec 12) (value : Word) (kind : Fin 4) (c1 : Chip), (c1 = c.setFx fx.val fun x => { x with sent := [] }) ∧ (c1.im.fxMode fx.val = 1) ∧ ((c1.fx fx.val).link = 2) ∧ ((c1.fx fx.val).ready = false)) ∧
    (∃ (o : Otp) (c : Chip) (fx : Fin 2) (off : BitVec 12) (value : Word) (kind : Fin 4) (c1 : Chip), (c1 = c.setFx fx.val fun x => { x with sent := [] }) ∧ (c1.im.fxMode fx.val = 1) ∧ ((c1.fx fx.val).link = 2) ∧ ((c1.fx fx.val).ready = true)) ∧
    (∃ (o : Otp) (c : Chip) (fx : Fin 2) (off : BitVec 12) (value : Word) (kind : Fin 4) (c1 : Chip), (c1 = c.setFx fx.val fun x => { x with sent := [] }) ∧ (c1.im.fxMode fx.val = 1) ∧ ((c1.fx fx.val).link = 2) ∧ ((c1.fx fx.val).ready = true)) ∧
    (∃ (o : Otp) (c : Chip) (fx : Fin 2) (off : BitVec 40) (data : List Byte) (c1 : Chip), (c1 = c.setFx fx.val fun x => { x with sent := [] }) ∧ (c1.fxLive fx.val = true) ∧ (data.length ≤ (c1.fx fx.val).mps) ∧ (c1.im.winLog2 fx.val ≠ 0) ∧ (off.toNat + data.length ≤ 2 ^ c1.im.winLog2 fx.val) ∧ ((c1.fx fx.val).d3 = false)) ∧
    (∃ (o : Otp) (c : Chip) (fx : Fin 2) (off : BitVec 40) (data : List Byte) (c1 : Chip), (c1 = c.setFx fx.val fun x => { x with sent := [] }) ∧ (c1.fxLive fx.val = true) ∧ (data.length ≤ (c1.fx fx.val).mps) ∧ ((c1.fx fx.val).d3 = false)) ∧
    (∃ (o : Otp) (c : Chip) (fx : Fin 2) (off : BitVec 40) (poisoned : Bool) (data : List Byte) (c1 : Chip), (c1 = c.setFx fx.val fun x => { x with sent := [] }) ∧ (c1.fxLive fx.val = true) ∧ ((c1.fx fx.val).mps < data.length) ∧ ((c1.fx fx.val).d3 = false)) ∧
    (∃ (o : Otp) (c : Chip) (fx : Fin 2) (off : BitVec 40) (len : Nat) (obs : Fin 4) (line : Nat) (c1 : Chip), (c1 = c.setFx fx.val fun x => { x with sent := [] }) ∧ (c1.fxLive fx.val = true) ∧ ((c1.fx fx.val).d3 = false)) ∧
    (∃ (o : Otp) (c : Chip) (fx : Fin 2) (off : BitVec 40) (len : Nat) (obs : Fin 4) (line : Nat) (d : List Byte × Bool) (c2 : Chip) (c1 : Chip), (c1 = c.setFx fx.val fun x => { x with sent := [] }) ∧ (c1.fxLive fx.val = true) ∧ (c1.im.winLog2 fx.val ≠ 0) ∧ (off.toNat + len ≤ 2 ^ c1.im.winLog2 fx.val) ∧ (c1.memOpen = true) ∧ (c1.portRead (c1.im.winBase fx.val + off.toNat) len obs.val line = (some (some d), c2)) ∧ ((c1.fx fx.val).d3 = false)) ∧
    (∃ (o : Otp) (c : Chip) (fx : Fin 2) (off : BitVec 24) (data : List Byte) (c1 : Chip), (c1 = c.setFx fx.val fun x => { x with sent := [] }) ∧ (c1.fxLive fx.val = true) ∧ (data.length ≤ (c1.fx fx.val).mps) ∧ (0x40000 ≤ off.toNat) ∧ (off.toNat + data.length ≤ 0x40400) ∧ ((c1.fx fx.val).d3 = false)) ∧
    (∃ (o : Otp) (c : Chip) (fx : Fin 2) (off : BitVec 24) (data : List Byte) (c1 : Chip), (c1 = c.setFx fx.val fun x => { x with sent := [] }) ∧ (c1.fxLive fx.val = true) ∧ (data.length ≤ (c1.fx fx.val).mps) ∧ (off.toNat < 0x10000 ∨ 0x40400 < off.toNat + data.length) ∧ (off.toNat < 0x10000 ∨ 0x40000 ≤ off.toNat) ∧ ((c1.fx fx.val).d3 = false)) ∧
    (∃ (o : Otp) (c : Chip) (fx : Fin 2) (off : BitVec 16) (data : List Byte) (c1 : Chip), (c1 = c.setFx fx.val fun x => { x with sent := [] }) ∧ (c1.fxLive fx.val = true) ∧ (data.length ≤ (c1.fx fx.val).mps) ∧ (off.toNat % 64 = 0) ∧ ((c1.fx fx.val).d3 = false)) ∧
    (∃ (o : Otp) (c : Chip) (fx : Fin 2) (off : BitVec 16) (data : List Byte) (c1 : Chip), (c1 = c.setFx fx.val fun x => { x with sent := [] }) ∧ (c1.fxLive fx.val = true) ∧ (data.length ≤ (c1.fx fx.val).mps) ∧ (off.toNat % 64 ≠ 0) ∧ ((c1.fx fx.val).d3 = false)) ∧
    (∃ (o : Otp) (c : Chip) (fx : Fin 2) (off : BitVec 16) (data : List Byte) (c1 : Chip), (c1 = c.setFx fx.val fun x => { x with sent := [] }) ∧ (c1.fxLive fx.val = true) ∧ (data.length ≤ (c1.fx fx.val).mps) ∧ (off.toNat % 64 = 0) ∧ ((c1.fx fx.val).d3 = false)) ∧
    (∃ (o : Otp) (c : Chip) (fx : Fin 2) (off : BitVec 16) (data : List Byte) (c1 : Chip), (c1 = c.setFx fx.val fun x => { x with sent := [] }) ∧ (c1.fxLive fx.val = true) ∧ (data.length ≤ (c1.fx fx.val).mps) ∧ (off.toNat % 64 ≠ 0) ∧ ((c1.fx fx.val).d3 = false)) ∧
    (∃ (o : Otp) (c : Chip) (fx : Fin 2) (off : BitVec 16) (data : List Byte) (c1 : Chip), (c1 = c.setFx fx.val fun x => { x with sent := [] }) ∧ (c1.fxLive fx.val = true) ∧ (data.length ≤ (c1.fx fx.val).mps) ∧ (off.toNat % 64 = 0) ∧ ((c1.fx fx.val).d3 = false)) ∧
    (∃ (o : Otp) (c : Chip) (fx : Fin 2) (off : BitVec 16) (data : List Byte) (c1 : Chip), (c1 = c.setFx fx.val fun x => { x with sent := [] }) ∧ (c1.fxLive fx.val = true) ∧ (data.length ≤ (c1.fx fx.val).mps) ∧ (off.toNat % 64 ≠ 0) ∧ ((c1.fx fx.val).d3 = false)) ∧
    (∃ (o : Otp) (c : Chip) (fx : Fin 2) (bytes : Nat) (speed : Fin 6) (width : Fin 2) (c2 c3 : Chip) (c1 : Chip), (c1 = c.setFx fx.val fun x => { x with sent := [] }) ∧ (c1.im.fxMode fx.val = 2) ∧ ((c1.fx fx.val).link = 1) ∧ (portLanes (width.val + 1) ≤ c1.im.fxWidth fx.val) ∧ (c1.islOpen (portIsland fx.val) = true) ∧ (c1.ohmaxRuns = true) ∧ (c2 = c1.setFx fx.val fun x => { x with link := 2, speed := speed.val + 1, width := portLanes (width.val + 1), since := c1.elapsed }) ∧ (c3 = { c2 with mem := { c2.mem with sdgFrames := sput 0 c2.mem.sdgFrames fx.val (min bytes (2 ^ 41) / 65536) } })) ∧
    (∃ (o : Otp) (c : Chip) (fx : Fin 2) (c1 : Chip), (c1 = c.setFx fx.val fun x => { x with sent := [] }) ∧ (c1.im.fxMode fx.val = 2) ∧ ((c1.fx fx.val).link = 2)) ∧
    (∃ (o : Otp) (c : Chip) (fx : Fin 2) (kind : Fin 4) (c1 : Chip), (c1 = c.setFx fx.val fun x => { x with sent := [] }) ∧ (c1.im.fxMode fx.val = 2) ∧ ((c1.fx fx.val).link = 2) ∧ (kind.val ≠ 0)) ∧
    (∃ (o : Otp) (c : Chip) (fx : Fin 2) (c1 : Chip), (c1 = c.setFx fx.val fun x => { x with sent := [] }) ∧ (c1.im.fxMode fx.val = 2) ∧ ((c1.fx fx.val).link = 2)) ∧
    (∃ (o : Otp) (c : Chip) (fx : Fin 2) (c1 : Chip), (c1 = c.setFx fx.val fun x => { x with sent := [] }) ∧ (c1.im.fxMode fx.val = 2) ∧ ((c1.fx fx.val).link = 2)) ∧
    (∃ (o : Otp) (c : Chip) (fx : Fin 2) (c1 : Chip), (c1 = c.setFx fx.val fun x => { x with sent := [] }) ∧ (c1.procSets (0x300 + fx.val) (rPORT_FX_CTL + 0x40 * fx.val) 1 1 = true)) :=
  ⟨⟨{}, fxChip, 0, _, by rfl⟩,
   ⟨{}, fxChip, 0, _, by exact ⟨rfl, by decide +kernel, by decide +kernel⟩⟩,
   ⟨{}, cxlChip, 1, _, by exact ⟨rfl, by decide +kernel⟩⟩,
   ⟨{}, { ports := { fx := [{ link := 1 }, {}] } }, 0, 4, 2, _, by exact ⟨rfl, by decide +kernel, by decide +kernel, by decide +kernel⟩⟩,
   ⟨{}, fxChip, 0, _, by exact ⟨rfl, by decide +kernel, by decide +kernel, by decide +kernel⟩⟩,
   ⟨{}, { ports := { fx := [{ link := 2 }, {}] } }, 0, true, 0, 0, 0, _, by exact ⟨rfl, by decide +kernel, by decide +kernel, by decide +kernel⟩⟩,
   ⟨{}, fxChip, 0, 0, 0, 0, _, by exact ⟨rfl, by decide +kernel, by decide +kernel, by decide +kernel⟩⟩,
   ⟨{}, fxChip, 0, 0, 0, 0, _, by exact ⟨rfl, by decide +kernel, by decide +kernel, by decide +kernel⟩⟩,
   ⟨{}, winChip, 0, 0, [5], _, by exact ⟨rfl, by decide +kernel, by decide +kernel, by decide +kernel, by decide +kernel, by decide +kernel⟩⟩,
   ⟨{}, fxChip, 0, 0, [5], _, by exact ⟨rfl, by decide +kernel, by decide +kernel, by decide +kernel⟩⟩,
   ⟨{}, fxChip, 0, 0, true, List.replicate 129 0, _, by exact ⟨rfl, by decide +kernel, by decide +kernel, by decide +kernel⟩⟩,
   ⟨{}, fxChip, 0, 0, 4, 0, 0, _, by exact ⟨rfl, by decide +kernel, by decide +kernel⟩⟩,
   ⟨{}, winChip, 0, 0, 4, 0, 0, _, _, _, by exact ⟨rfl, by decide +kernel, by decide +kernel, by decide +kernel, by decide +kernel, rfl, by decide +kernel⟩⟩,
   ⟨{}, fxChip, 0, 0x40000, [5], _, by exact ⟨rfl, by decide +kernel, by decide +kernel, by decide +kernel, by decide +kernel, by decide +kernel⟩⟩,
   ⟨{}, fxChip, 0, 0, [5], _, by exact ⟨rfl, by decide +kernel, by decide +kernel, by decide +kernel, by decide +kernel, by decide +kernel⟩⟩,
   ⟨{}, fxChip, 0, 64, [5], _, by exact ⟨rfl, by decide +kernel, by decide +kernel, by decide +kernel, by decide +kernel⟩⟩,
   ⟨{}, fxChip, 0, 65, [5], _, by exact ⟨rfl, by decide +kernel, by decide +kernel, by decide +kernel, by decide +kernel⟩⟩,
   ⟨{}, fxChip, 0, 64, [5], _, by exact ⟨rfl, by decide +kernel, by decide +kernel, by decide +kernel, by decide +kernel⟩⟩,
   ⟨{}, fxChip, 0, 65, [5], _, by exact ⟨rfl, by decide +kernel, by decide +kernel, by decide +kernel, by decide +kernel⟩⟩,
   ⟨{}, fxChip, 0, 64, [5], _, by exact ⟨rfl, by decide +kernel, by decide +kernel, by decide +kernel, by decide +kernel⟩⟩,
   ⟨{}, fxChip, 0, 65, [5], _, by exact ⟨rfl, by decide +kernel, by decide +kernel, by decide +kernel, by decide +kernel⟩⟩,
   ⟨{}, cxlChip, 1, 65536, 4, 0, _, _, _, by exact ⟨rfl, by decide +kernel, by decide +kernel, by decide +kernel, by decide +kernel, by decide +kernel, rfl, rfl⟩⟩,
   ⟨{}, cxlUp, 1, _, by exact ⟨rfl, by decide +kernel, by decide +kernel⟩⟩,
   ⟨{}, cxlUp, 1, 3, _, by exact ⟨rfl, by decide +kernel, by decide +kernel, by decide +kernel⟩⟩,
   ⟨{}, cxlUp, 1, _, by exact ⟨rfl, by decide +kernel, by decide +kernel⟩⟩,
   ⟨{}, cxlUp, 1, _, by exact ⟨rfl, by decide +kernel, by decide +kernel⟩⟩,
   ⟨{}, { fxChip with amd := { procs := [{ procOf 0x300 with ops := [⟨rPORT_FX_CTL, 1, 1⟩] }] } }, 0, _, by exact ⟨rfl, by decide +kernel⟩⟩⟩

theorem witness_NetworkCommandsComplete :
    (∃ (o : Otp) (c : Chip) (eth : Fin 2) (c1 : Chip), (c1 = c.setEth eth.val fun x => { x with sent := [] }) ∧ (c1.im.ethEn eth.val = true) ∧ (c1.islOpen (portIsland eth.val) = true) ∧ (15 ≤ c1.boot.step)) ∧
    (∃ (o : Otp) (c : Chip) (eth : Fin 2) (c1 : Chip), (c1 = c.setEth eth.val fun x => { x with sent := [] })) ∧
    (∃ (o : Otp) (c : Chip) (eth : Fin 2) (qpn : BitVec 24) (e : List Byte) (imm : Option Word) (data : List Byte) (ecn : Bool) (c2 : Chip) (c1 : Chip), (c1 = c.setEth eth.val fun x => { x with sent := [] }) ∧ (c1.im.qpEntry eth.val qpn.toNat = some e) ∧ (c1.ethLive eth.val = true) ∧ ((c1.qp e).error = false) ∧ (c2 = (if ecn then c1.ethSend eth.val (.cnp qpn.toNat) else c1).setQp e fun x => { x with epsn := (x.epsn + max 1 (ceilDiv data.length (max 1 ((if ecn then c1.ethSend eth.val (.cnp qpn.toNat) else c1).im.ethPmtu eth.val)))) % 2 ^ 24 })) ∧
    (∃ (o : Otp) (c : Chip) (eth : Fin 2) (qpn : BitVec 24) (e : List Byte) (imm : Word) (va : Dword) (rkey : Word) (data : List Byte) (ecn : Bool) (c2 : Chip) (c1 : Chip), (c1 = c.setEth eth.val fun x => { x with sent := [] }) ∧ (c1.im.qpEntry eth.val qpn.toNat = some e) ∧ (c1.ethLive eth.val = true) ∧ ((c1.qp e).error = false) ∧ (c2 = (if ecn then c1.ethSend eth.val (.cnp qpn.toNat) else c1).setQp e fun x => { x with epsn := (x.epsn + max 1 (ceilDiv data.length (max 1 ((if ecn then c1.ethSend eth.val (.cnp qpn.toNat) else c1).im.ethPmtu eth.val)))) % 2 ^ 24 })) ∧
    (∃ (o : Otp) (c : Chip) (eth : Fin 2) (qpn : BitVec 24) (e : List Byte) (va : Dword) (rkey : Word) (data : List Byte) (ecn : Bool) (c2 : Chip) (c1 : Chip), (c1 = c.setEth eth.val fun x => { x with sent := [] }) ∧ (c1.im.qpEntry eth.val qpn.toNat = some e) ∧ (c1.ethLive eth.val = true) ∧ ((c1.qp e).error = false) ∧ (c2 = (if ecn then c1.ethSend eth.val (.cnp qpn.toNat) else c1).setQp e fun x => { x with epsn := (x.epsn + max 1 (ceilDiv data.length (max 1 ((if ecn then c1.ethSend eth.val (.cnp qpn.toNat) else c1).im.ethPmtu eth.val)))) % 2 ^ 24 }) ∧ (c2.rdmaTarget eth.val va.toNat rkey.toNat data.length = none)) ∧
    (∃ (o : Otp) (c : Chip) (eth : Fin 2) (qpn : BitVec 24) (e : List Byte) (va : Dword) (rkey : Word) (data : List Byte) (ecn : Bool) (c2 : Chip) (c1 : Chip), (c1 = c.setEth eth.val fun x => { x with sent := [] }) ∧ (c1.im.qpEntry eth.val qpn.toNat = some e) ∧ (c1.ethLive eth.val = true) ∧ ((c1.qp e).error = false) ∧ (c2 = (if ecn then c1.ethSend eth.val (.cnp qpn.toNat) else c1).setQp e fun x => { x with epsn := (x.epsn + max 1 (ceilDiv data.length (max 1 ((if ecn then c1.ethSend eth.val (.cnp qpn.toNat) else c1).im.ethPmtu eth.val)))) % 2 ^ 24 }) ∧ (c2.rdmaTarget eth.val va.toNat rkey.toNat data.length = some va.toNat)) ∧
    (∃ (o : Otp) (c : Chip) (eth : Fin 2) (qpn : BitVec 24) (e : List Byte) (va : Dword) (rkey : Word) (len : Nat) (obs : Fin 4) (line : Nat) (ecn : Bool) (c2 : Chip) (c1 : Chip), (c1 = c.setEth eth.val fun x => { x with sent := [] }) ∧ (c1.im.qpEntry eth.val qpn.toNat = some e) ∧ (c1.ethLive eth.val = true) ∧ ((c1.qp e).error = false) ∧ (c2 = (if ecn then c1.ethSend eth.val (.cnp qpn.toNat) else c1).setQp e fun x => { x with epsn := (x.epsn + max 1 (ceilDiv len (max 1 ((if ecn then c1.ethSend eth.val (.cnp qpn.toNat) else c1).im.ethPmtu eth.val)))) % 2 ^ 24 }) ∧ (rkey.toNat ≠ c2.im.ethKey eth.val)) ∧
    (∃ (o : Otp) (c : Chip) (eth : Fin 2) (qpn : BitVec 24) (e : List Byte) (va : Dword) (rkey : Word) (len : Nat) (obs : Fin 4) (line : Nat) (ecn : Bool) (c2 : Chip) (c1 : Chip), (c1 = c.setEth eth.val fun x => { x with sent := [] }) ∧ (c1.im.qpEntry eth.val qpn.toNat = some e) ∧ (c1.ethLive eth.val = true) ∧ ((c1.qp e).error = false) ∧ (c2 = (if ecn then c1.ethSend eth.val (.cnp qpn.toNat) else c1).setQp e fun x => { x with epsn := (x.epsn + max 1 (ceilDiv len (max 1 ((if ecn then c1.ethSend eth.val (.cnp qpn.toNat) else c1).im.ethPmtu eth.val)))) % 2 ^ 24 }) ∧ (rkey.toNat = c2.im.ethKey eth.val) ∧ (dbBase + 0x100000 ≤ va.toNat) ∧ (va.toNat + len ≤ dbBase + 0x180000)) ∧
    (∃ (o : Otp) (c : Chip) (eth : Fin 2) (qpn : BitVec 24) (e : List Byte) (va : Dword) (rkey : Word) (len : Nat) (obs : Fin 4) (line : Nat) (ecn : Bool) (c2 : Chip) (d : List Byte × Bool) (c3 : Chip) (c1 : Chip), (c1 = c.setEth eth.val fun x => { x with sent := [] }) ∧ (c1.im.qpEntry eth.val qpn.toNat = some e) ∧ (c1.ethLive eth.val = true) ∧ ((c1.qp e).error = false) ∧ (c2 = (if ecn then c1.ethSend eth.val (.cnp qpn.toNat) else c1).setQp e fun x => { x with epsn := (x.epsn + max 1 (ceilDiv len (max 1 ((if ecn then c1.ethSend eth.val (.cnp qpn.toNat) else c1).im.ethPmtu eth.val)))) % 2 ^ 24 }) ∧ (rkey.toNat = c2.im.ethKey eth.val) ∧ (va.toNat < 2 ^ 50) ∧ (c2.covered va.toNat len = true) ∧ (c2.memOpen = true) ∧ (c2.portRead va.toNat len obs.val line = (some (some d), c3))) ∧
    (∃ (o : Otp) (c : Chip) (eth : Fin 2) (qpn : BitVec 24) (e : List Byte) (c1 : Chip), (c1 = c.setEth eth.val fun x => { x with sent := [] }) ∧ (c1.im.qpEntry eth.val qpn.toNat = some e) ∧ (c1.ethLive eth.val = true)) ∧
    (∃ (o : Otp) (c : Chip) (eth : Fin 2) (c2 : Chip) (c1 : Chip), (c1 = c.setEth eth.val fun x => { x with sent := [] }) ∧ ((c1.ports.qps.any fun x => x.port == eth.val && decide (x.rate < 2 ^ 20)) = true) ∧ (c2 = (c1.passTo ((c1.eth eth.val).recovered + 55 * tUs)).setEth eth.val fun x => { x with recovered := (c1.passTo ((c1.eth eth.val).recovered + 55 * tUs)).elapsed })) ∧
    (∃ (o : Otp) (c : Chip) (eth : Fin 2) (qpn : BitVec 24) (e : List Byte) (i : RItem) (c2 : Chip) (c1 : Chip), (c1 = c.setEth eth.val fun x => { x with sent := [] }) ∧ (c1.im.qpEntry eth.val qpn.toNat = some e) ∧ (c1.ethLive eth.val = true) ∧ ((c1.qp e).error = false) ∧ ((qpFlags e).testBit 1 = true) ∧ (c1.memOpen = true) ∧ ((c1.qp e).item = none) ∧ (c1.takeItem (qpRing e) .network = some (i, c2))) ∧
    (∃ (o : Otp) (c : Chip) (eth : Fin 2) (qpn : BitVec 24) (e : List Byte) (seq : Nat) (c1 : Chip), (c1 = c.setEth eth.val fun x => { x with sent := [] }) ∧ (c1.im.qpEntry eth.val qpn.toNat = some e) ∧ (c1.ethLive eth.val = true) ∧ ((c1.qp e).error = false) ∧ ((qpFlags e).testBit 1 = true) ∧ (c1.memOpen = true) ∧ ((c1.qp e).item = some (seq, false))) ∧
    (∃ (o : Otp) (c : Chip) (eth : Fin 2) (qpn : BitVec 24) (e : List Byte) (seq : Nat) (c1 : Chip), (c1 = c.setEth eth.val fun x => { x with sent := [] }) ∧ (c1.im.qpEntry eth.val qpn.toNat = some e) ∧ (c1.ethLive eth.val = true) ∧ ((c1.qp e).error = false) ∧ (c1.memOpen = true) ∧ ((c1.qp e).item = some (seq, true))) ∧
    (∃ (o : Otp) (c : Chip) (eth : Fin 2) (qpn : BitVec 24) (e : List Byte) (c1 : Chip), (c1 = c.setEth eth.val fun x => { x with sent := [] }) ∧ (c1.im.qpEntry eth.val qpn.toNat = some e)) ∧
    (∃ (o : Otp) (c : Chip) (eth : Fin 2) (qpn : BitVec 24) (e : List Byte) (c1 : Chip), (c1 = c.setEth eth.val fun x => { x with sent := [] }) ∧ (c1.im.qpEntry eth.val qpn.toNat = some e) ∧ (c1.im.ethEn eth.val = true) ∧ ((c1.qp e).error = false)) ∧
    (∃ (o : Otp) (c : Chip) (eth : Fin 2) (c1 : Chip), (c1 = c.setEth eth.val fun x => { x with sent := [] }) ∧ (c1.ethLive eth.val = true)) ∧
    (∃ (o : Otp) (c : Chip) (tai : Dword) (c1 : Chip), (c.ohmaxRuns = true) ∧ ((c.eth 0).ptpSeen = true ∨ (c.eth 1).ptpSeen = true) ∧ (c1 = c.passTo (c.ports.wallAt + 125 * tMs))) :=
  ⟨⟨{}, winChip, 0, _, by exact ⟨rfl, by decide +kernel, by decide +kernel, by decide +kernel⟩⟩,
   ⟨{}, qpChip, 0, _, by rfl⟩,
   ⟨{}, qpChip, 0, 9, _, none, [5], true, _, _, by exact ⟨rfl, rfl, by decide +kernel, by decide +kernel, rfl⟩⟩,
   ⟨{}, qpChip, 0, 9, _, 3, 0, 7, [5], true, _, _, by exact ⟨rfl, rfl, by decide +kernel, by decide +kernel, rfl⟩⟩,
   ⟨{}, qpChip, 0, 9, _, 0, 8, [5], true, _, _, by exact ⟨rfl, rfl, by decide +kernel, by decide +kernel, rfl, by decide +kernel⟩⟩,
   ⟨{}, qpChip, 0, 9, _, 0, 7, [5], true, _, _, by exact ⟨rfl, rfl, by decide +kernel, by decide +kernel, rfl, by decide +kernel⟩⟩,
   ⟨{}, qpChip, 0, 9, _, 0, 8, 4, 0, 0, true, _, _, by exact ⟨rfl, rfl, by decide +kernel, by decide +kernel, rfl, by decide +kernel⟩⟩,
   ⟨{}, qpChip, 0, 9, _, 0x8000000000100000, 7, 4, 0, 0, true, _, _, by exact ⟨rfl, rfl, by decide +kernel, by decide +kernel, rfl, by decide +kernel, by decide +kernel, by decide +kernel⟩⟩,
   ⟨{}, qpChip, 0, 9, _, 0, 7, 4, 0, 0, true, _, _, _, _, by exact ⟨rfl, rfl, by decide +kernel, by decide +kernel, rfl, by decide +kernel, by decide +kernel, by decide +kernel, by decide +kernel, rfl⟩⟩,
   ⟨{}, qpChip, 0, 9, _, _, by exact ⟨rfl, rfl, by decide +kernel⟩⟩,
   ⟨{}, { qpChip with ports := { qpChip.ports with qps := [{ port := 0, qpn := 9, epsn := 0, spsn := 0, rate := 2 ^ 19 }] } }, 0, _, _, by exact ⟨rfl, by decide, rfl⟩⟩,
   ⟨{}, qpChip, 0, 9, _, _, _, _, by exact ⟨rfl, rfl, by decide +kernel, by decide +kernel, by decide +kernel, by decide +kernel, by decide +kernel, rfl⟩⟩,
   ⟨{}, qpTook false, 0, 9, _, 4, _, by exact ⟨rfl, rfl, by decide +kernel, by decide +kernel, by decide +kernel, by decide +kernel, by decide +kernel⟩⟩,
   ⟨{}, qpTook true, 0, 9, _, 4, _, by exact ⟨rfl, rfl, by decide +kernel, by decide +kernel, by decide +kernel, by decide +kernel⟩⟩,
   ⟨{}, qpChip, 0, 9, _, _, by exact ⟨rfl, rfl⟩⟩,
   ⟨{}, qpChip, 0, 9, _, _, by exact ⟨rfl, rfl, by decide +kernel, by decide +kernel⟩⟩,
   ⟨{}, qpChip, 0, _, by exact ⟨rfl, by decide +kernel⟩⟩,
   ⟨{}, { winChip with ports := { eth := [{ ptpSeen := true }, {}] } }, 5, _, by exact ⟨by decide, by decide, rfl⟩⟩⟩

theorem witness_LinkCommandsComplete :
    (∃ (o : Otp) (c : Chip) (link : Fin 24) (half : Fin 2), (c.mayTrain link.val half.val = true) ∧ ((c.half link.val half.val).st = .disabled ∨ ((c.half link.val half.val).st = .down ∧ (c.half link.val half.val).lastFail = 0))) ∧
    (∃ (o : Otp) (c : Chip) (link : Fin 24) (half : Fin 2) (seen : TrainObs), ((c.half link.val half.val).st = .training) ∧ (c.islOpen (linkIsland link.val) = true)) ∧
    (∃ (o : Otp) (c : Chip) (link : Fin 24) (half : Fin 2), (c.mayTrain link.val half.val = true) ∧ ((c.half link.val half.val).st = .down) ∧ ((c.half link.val half.val).lastFail ≠ 0)) ∧
    (∃ (o : Otp) (c : Chip) (link : Fin 24) (lane : Fin 4) (h : Nat) (c1 : Chip) (mask : Nat), ([0, 1].find? (fun h => ((c.half link.val h).st == .up || (c.half link.val h).st == .widthchg) && ((c.link link.val).rx.getD lane.val {}).status == 0 && (c.half link.val h).rxPhys.testBit lane.val) = some h) ∧ (c1 = c.setLink link.val fun y => { y with rx := y.rx.set lane.val { (c.link link.val).rx.getD lane.val {} with status := 6 } }) ∧ (mask = ((c1.half link.val h).mask.getD (c1.half link.val h).rxMask) &&& (15 - 2 ^ ((c.link link.val).rx.getD lane.val {}).logical)) ∧ (mask = 0)) ∧
    (∃ (o : Otp) (c : Chip) (link : Fin 24) (lane : Fin 4) (h : Nat) (c1 : Chip) (mask : Nat) (c2 : Chip), ([0, 1].find? (fun h => ((c.half link.val h).st == .up || (c.half link.val h).st == .widthchg) && ((c.link link.val).rx.getD lane.val {}).status == 0 && (c.half link.val h).rxPhys.testBit lane.val) = some h) ∧ (c1 = c.setLink link.val fun y => { y with rx := y.rx.set lane.val { (c.link link.val).rx.getD lane.val {} with status := 6 } }) ∧ (mask = ((c1.half link.val h).mask.getD (c1.half link.val h).rxMask) &&& (15 - 2 ^ ((c.link link.val).rx.getD lane.val {}).logical)) ∧ (mask ≠ 0) ∧ (c2 = c1.bumpField (rLNK_TRAINS + link.val * 0x800) 15 0 1)) ∧
    (∃ (o : Otp) (c : Chip) (link : Fin 24) (half : Fin 2), ((c.half link.val half.val).st = .widthchg)) ∧
    (∃ (o : Otp) (c : Chip) (link : Fin 24) (half : Fin 2) (lost : Bool), ((c.half link.val half.val).st = .widthchg)) ∧
    (∃ (o : Otp) (c : Chip) (link : Fin 24) (half : Fin 2) (f : SentFlit) (r : List SentFlit), ((c.half link.val half.val).sent = f :: r) ∧ ((c.half link.val half.val).st = .up)) ∧
    (∃ (o : Otp) (c : Chip) (link : Fin 24), (c.procSets (0x200 + link.val) (rLNK_CTL + link.val * 0x800) 2 2 = true)) ∧
    (∃ (o : Otp) (c : Chip) (link : Fin 24) (en : Bool), (c.procSets (0x200 + link.val) (rLNK_CTL + link.val * 0x800) 1 (bit en) = true)) ∧
    (∃ (o : Otp) (c : Chip) (link : Fin 24) (value : Word), (c.procSets (0x200 + link.val) (rLNK_LANEMAP + link.val * 0x800) 0xFF (value.toNat % 256) = true)) ∧
    (∃ (o : Otp) (c : Chip) (c1 : Chip), (c1 = c.passTo (c.net.lsaAt + 10 * tMs))) ∧
    (∃ (o : Otp) (c : Chip) (link : Fin 24) (eyes : Word), (c.islOpen (linkIsland link.val) = true) ∧ ((c.half link.val 0).st = .up ∨ (c.half link.val 1).st = .up)) :=
  ⟨⟨{}, planChip, 0, 0, by decide⟩,
   ⟨{}, trainChip, 0, 0, {}, by decide⟩,
   ⟨{}, failedChip, 0, 0, by decide⟩,
   ⟨{}, laneChip 1 1, 0, 0, 0, _, _, by exact ⟨by decide, rfl, rfl, by decide⟩⟩,
   ⟨{}, laneChip 3 3, 0, 0, 0, _, _, _, by exact ⟨by decide, rfl, rfl, by decide, rfl⟩⟩,
   ⟨{}, widthChip, 0, 0, by decide⟩,
   ⟨{}, widthChip, 0, 0, true, by decide⟩,
   ⟨{}, sentChip, 0, 0, ⟨7, 0, false, []⟩, [], by decide⟩,
   ⟨{}, linkAmdChip rLNK_CTL 2 2, 0, by decide⟩,
   ⟨{}, linkAmdChip rLNK_CTL 1 1, 0, true, by decide⟩,
   ⟨{}, linkAmdChip rLNK_LANEMAP 0xFF 3, 0, 3, by decide⟩,
   ⟨{}, {}, _, by exact rfl⟩,
   ⟨{}, upChip, 0, 0x40404040, by decide⟩⟩

theorem witness_FlitCommandsComplete :
    (∃ (o : Otp) (c : Chip) (link : Fin 24) (half : Fin 2) (flit : List Byte) (errs : Nat), (c.listening link.val half.val = false)) ∧
    (∃ (o : Otp) (c : Chip) (link : Fin 24) (half : Fin 2) (flit : List Byte) (errs : Nat), (c.listening link.val half.val = true) ∧ (fecCorrects errs = false)) ∧
    (∃ (o : Otp) (c : Chip) (link : Fin 24) (half : Fin 2) (flit : List Byte) (errs : Nat), (c.listening link.val half.val = true) ∧ (fecCorrects errs = true) ∧ (flitGood flit = false)) ∧
    (∃ (o : Otp) (c : Chip) (link : Fin 24) (half : Fin 2) (flit : List Byte) (errs : Nat) (c1 : Chip), (c.listening link.val half.val = true) ∧ (fecCorrects errs = true) ∧ (flitGood flit = true) ∧ (flitShape flit = true) ∧ (fieldAt flit 0 1 = 1) ∧ (c1 = (if errs = 0 then c else c.bump (rLNK_FECCORR + link.val * 0x800)).flitHeader link.val half.val flit) ∧ (fieldAt flit 2 2 ≠ (c1.half link.val half.val).rxSeq)) ∧
    (∃ (o : Otp) (c : Chip) (link : Fin 24) (half : Fin 2) (flit : List Byte) (errs : Nat) (c1 : Chip), (c.listening link.val half.val = true) ∧ (fecCorrects errs = true) ∧ (flitGood flit = true) ∧ (flitShape flit = true) ∧ (fieldAt flit 0 1 = 1) ∧ (c1 = (if errs = 0 then c else c.bump (rLNK_FECCORR + link.val * 0x800)).flitHeader link.val half.val flit) ∧ (fieldAt flit 2 2 = (c1.half link.val half.val).rxSeq)) ∧
    (∃ (o : Otp) (c : Chip) (link : Fin 24) (half : Fin 2) (flit : List Byte) (errs : Nat), (c.listening link.val half.val = false)) ∧
    (∃ (o : Otp) (c : Chip) (link : Fin 24) (half : Fin 2) (flit : List Byte) (errs : Nat), (c.listening link.val half.val = true) ∧ (fecCorrects errs = false)) ∧
    (∃ (o : Otp) (c : Chip) (link : Fin 24) (half : Fin 2) (flit : List Byte) (errs : Nat), (c.listening link.val half.val = true) ∧ (fecCorrects errs = true) ∧ (flitGood flit = false)) ∧
    (∃ (o : Otp) (c : Chip) (link : Fin 24) (half : Fin 2) (flit : List Byte) (errs : Nat) (c1 : Chip), (c.listening link.val half.val = true) ∧ (fecCorrects errs = true) ∧ (flitGood flit = true) ∧ (flitShape flit = true) ∧ (fieldAt flit 0 1 = 0) ∧ (c1 = (if errs = 0 then c else c.bump (rLNK_FECCORR + link.val * 0x800)).flitHeader link.val half.val flit)) ∧
    (∃ (o : Otp) (c : Chip) (link : Fin 24) (half : Fin 2) (flit : List Byte) (errs : Nat), (c.listening link.val half.val = false)) ∧
    (∃ (o : Otp) (c : Chip) (link : Fin 24) (half : Fin 2) (flit : List Byte) (errs : Nat), (c.listening link.val half.val = true) ∧ (fecCorrects errs = false)) ∧
    (∃ (o : Otp) (c : Chip) (link : Fin 24) (half : Fin 2) (flit : List Byte) (errs : Nat), (c.listening link.val half.val = true) ∧ (fecCorrects errs = true) ∧ (flitGood flit = false)) ∧
    (∃ (o : Otp) (c : Chip) (link : Fin 24) (half : Fin 2) (flit : List Byte) (errs : Nat) (c1 : Chip), (c.listening link.val half.val = true) ∧ (fecCorrects errs = true) ∧ (flitGood flit = true) ∧ (flitShape flit = true) ∧ (fieldAt flit 0 1 = 3) ∧ (c1 = (if errs = 0 then c else c.bump (rLNK_FECCORR + link.val * 0x800)).flitHeader link.val half.val flit)) ∧
    (∃ (o : Otp) (c : Chip) (link : Fin 24) (half : Fin 2) (flit : List Byte) (errs : Nat), (c.listening link.val half.val = false)) ∧
    (∃ (o : Otp) (c : Chip) (link : Fin 24) (half : Fin 2) (flit : List Byte) (errs : Nat), (c.listening link.val half.val = true) ∧ (fecCorrects errs = false)) ∧
    (∃ (o : Otp) (c : Chip) (link : Fin 24) (half : Fin 2) (flit : List Byte) (errs : Nat), (c.listening link.val half.val = true) ∧ (fecCorrects errs = true) ∧ (flitGood flit = false)) ∧
    (∃ (o : Otp) (c : Chip) (link : Fin 24) (half : Fin 2) (flit : List Byte) (errs : Nat) (c0 c1 : Chip), (c.listening link.val half.val = true) ∧ (fecCorrects errs = true) ∧ (flitGood flit = true) ∧ (flitShape flit = true) ∧ (fieldAt flit 0 1 = 4) ∧ (c0 = if errs = 0 then c else c.bump (rLNK_FECCORR + link.val * 0x800)) ∧ (c1 = c0.flitHeader link.val half.val flit) ∧ ((c0.half link.val half.val).txMask &&& fieldAt flit 24 1 = 0)) ∧
    (∃ (o : Otp) (c : Chip) (link : Fin 24) (half : Fin 2) (flit : List Byte) (errs : Nat) (c0 c1 c2 : Chip), (c.listening link.val half.val = true) ∧ (fecCorrects errs = true) ∧ (flitGood flit = true) ∧ (flitShape flit = true) ∧ (fieldAt flit 0 1 = 4) ∧ (c0 = if errs = 0 then c else c.bump (rLNK_FECCORR + link.val * 0x800)) ∧ (c1 = c0.flitHeader link.val half.val flit) ∧ ((c0.half link.val half.val).txMask &&& fieldAt flit 24 1 ≠ 0) ∧ (c2 = c1.bumpField (rLNK_TRAINS + link.val * 0x800) 15 0 1)) :=
  ⟨⟨{}, {}, 0, 0, [], 0, by decide⟩,
   ⟨{}, upChip, 0, 0, [], 16, by decide⟩,
   ⟨{}, upChip, 0, 0, [], 15, by decide⟩,
   ⟨{}, upChip, 0, 0, wholeFlit [1, 0x01, 5], 0, _, by exact ⟨by decide, by decide, wholeFlit_good _ (by decide), by decide +kernel, by decide, rfl, by decide +kernel⟩⟩,
   ⟨{}, upChip, 0, 0, wholeFlit [1, 0x01], 0, _, by exact ⟨by decide, by decide, wholeFlit_good _ (by decide), by decide +kernel, by decide, rfl, by decide +kernel⟩⟩,
   ⟨{}, {}, 0, 0, [], 0, by decide⟩,
   ⟨{}, upChip, 0, 0, [], 16, by decide⟩,
   ⟨{}, upChip, 0, 0, [], 15, by decide⟩,
   ⟨{}, upChip, 0, 0, wholeFlit [], 0, _, by exact ⟨by decide, by decide, wholeFlit_good _ (by decide), by decide +kernel, by decide, rfl⟩⟩,
   ⟨{}, {}, 0, 0, [], 0, by decide⟩,
   ⟨{}, upChip, 0, 0, [], 16, by decide⟩,
   ⟨{}, upChip, 0, 0, [], 15, by decide⟩,
   ⟨{}, upChip, 0, 0, wholeFlit [3], 0, _, by exact ⟨by decide, by decide, wholeFlit_good _ (by decide), by decide +kernel, by decide, rfl⟩⟩,
   ⟨{}, {}, 0, 0, [], 0, by decide⟩,
   ⟨{}, upChip, 0, 0, [], 16, by decide⟩,
   ⟨{}, upChip, 0, 0, [], 15, by decide⟩,
   ⟨{}, upChip, 0, 0, wholeFlit [4], 0, _, _, by exact ⟨by decide, by decide, wholeFlit_good _ (by decide), by decide +kernel, by decide, rfl, rfl, by decide +kernel⟩⟩,
   ⟨{}, laneChip 3 3, 0, 0, wholeFlit ([4] ++ List.replicate 23 0 ++ [1]), 0, _, _, _, by exact ⟨by decide, by decide, wholeFlit_good _ (by decide), by decide +kernel, by decide, rfl, rfl, by decide +kernel, rfl⟩⟩⟩

theorem witness_PacketCommandsComplete :
    (∃ (o : Otp) (c : Chip) (link : Fin 24) (half : Fin 2) (obs : Fin 4) (line : Nat) (p : Packet) (rest : List RecvFlit) (c1 : Chip), (c.islOpen (linkIsland link.val) = true) ∧ (takePacket tREAD (c.half link.val half.val).recv = some (p, rest)) ∧ (c1 = c.keepBuffers link.val half.val rest) ∧ (p.dst = c.pkg)) ∧
    (∃ (o : Otp) (c : Chip) (link : Fin 24) (half : Fin 2) (obs : Fin 4) (line : Nat) (p : Packet) (rest : List RecvFlit) (c1 : Chip), (c.islOpen (linkIsland link.val) = true) ∧ (takePacket tREAD (c.half link.val half.val).recv = some (p, rest)) ∧ (c1 = c.keepBuffers link.val half.val rest) ∧ (p.dst ≠ c.pkg)) ∧
    (∃ (o : Otp) (c : Chip) (link : Fin 24) (half : Fin 2) (p : Packet) (rest : List RecvFlit) (c1 : Chip), (c.islOpen (linkIsland link.val) = true) ∧ (takePacket tREADDATA (c.half link.val half.val).recv = some (p, rest)) ∧ (c1 = c.keepBuffers link.val half.val rest) ∧ (p.dst = c.pkg)) ∧
    (∃ (o : Otp) (c : Chip) (link : Fin 24) (half : Fin 2) (p : Packet) (rest : List RecvFlit) (c1 : Chip), (c.islOpen (linkIsland link.val) = true) ∧ (takePacket tREADDATA (c.half link.val half.val).recv = some (p, rest)) ∧ (c1 = c.keepBuffers link.val half.val rest) ∧ (p.dst ≠ c.pkg)) ∧
    (∃ (o : Otp) (c : Chip) (link : Fin 24) (half : Fin 2) (p : Packet) (rest : List RecvFlit) (c1 : Chip), (c.islOpen (linkIsland link.val) = true) ∧ (takePacket tWRITE (c.half link.val half.val).recv = some (p, rest)) ∧ (c1 = c.keepBuffers link.val half.val rest) ∧ (p.dst = c.pkg)) ∧
    (∃ (o : Otp) (c : Chip) (link : Fin 24) (half : Fin 2) (p : Packet) (rest : List RecvFlit) (c1 : Chip), (c.islOpen (linkIsland link.val) = true) ∧ (takePacket tWRITE (c.half link.val half.val).recv = some (p, rest)) ∧ (c1 = c.keepBuffers link.val half.val rest) ∧ (p.dst ≠ c.pkg)) ∧
    (∃ (o : Otp) (c : Chip) (link : Fin 24) (half : Fin 2) (p : Packet) (rest : List RecvFlit) (c1 : Chip), (c.islOpen (linkIsland link.val) = true) ∧ (takePacket tWRITEACK (c.half link.val half.val).recv = some (p, rest)) ∧ (c1 = c.keepBuffers link.val half.val rest) ∧ (p.dst = c.pkg)) ∧
    (∃ (o : Otp) (c : Chip) (link : Fin 24) (half : Fin 2) (p : Packet) (rest : List RecvFlit) (c1 : Chip), (c.islOpen (linkIsland link.val) = true) ∧ (takePacket tWRITEACK (c.half link.val half.val).recv = some (p, rest)) ∧ (c1 = c.keepBuffers link.val half.val rest) ∧ (p.dst ≠ c.pkg)) ∧
    (∃ (o : Otp) (c : Chip) (link : Fin 24) (half : Fin 2) (obs : Fin 4) (p : Packet) (rest : List RecvFlit) (c1 : Chip), (c.islOpen (linkIsland link.val) = true) ∧ (takePacket tATOMIC (c.half link.val half.val).recv = some (p, rest)) ∧ (c1 = c.keepBuffers link.val half.val rest) ∧ (p.dst = c.pkg)) ∧
    (∃ (o : Otp) (c : Chip) (link : Fin 24) (half : Fin 2) (obs : Fin 4) (p : Packet) (rest : List RecvFlit) (c1 : Chip), (c.islOpen (linkIsland link.val) = true) ∧ (takePacket tATOMIC (c.half link.val half.val).recv = some (p, rest)) ∧ (c1 = c.keepBuffers link.val half.val rest) ∧ (p.dst ≠ c.pkg)) ∧
    (∃ (o : Otp) (c : Chip) (link : Fin 24) (half : Fin 2) (p : Packet) (rest : List RecvFlit) (c1 : Chip), (c.islOpen (linkIsland link.val) = true) ∧ (takePacket tATOMICRESP (c.half link.val half.val).recv = some (p, rest)) ∧ (c1 = c.keepBuffers link.val half.val rest) ∧ (p.dst = c.pkg)) ∧
    (∃ (o : Otp) (c : Chip) (link : Fin 24) (half : Fin 2) (p : Packet) (rest : List RecvFlit) (c1 : Chip), (c.islOpen (linkIsland link.val) = true) ∧ (takePacket tATOMICRESP (c.half link.val half.val).recv = some (p, rest)) ∧ (c1 = c.keepBuffers link.val half.val rest) ∧ (p.dst ≠ c.pkg)) ∧
    (∃ (o : Otp) (c : Chip) (link : Fin 24) (half : Fin 2) (p : Packet) (rest : List RecvFlit) (c1 : Chip), (c.islOpen (linkIsland link.val) = true) ∧ (takePacket tRINGOP (c.half link.val half.val).recv = some (p, rest)) ∧ (c1 = c.keepBuffers link.val half.val rest) ∧ (p.dst = c.pkg)) ∧
    (∃ (o : Otp) (c : Chip) (link : Fin 24) (half : Fin 2) (p : Packet) (rest : List RecvFlit) (c1 : Chip), (c.islOpen (linkIsland link.val) = true) ∧ (takePacket tRINGOP (c.half link.val half.val).recv = some (p, rest)) ∧ (c1 = c.keepBuffers link.val half.val rest) ∧ (p.dst ≠ c.pkg)) ∧
    (∃ (o : Otp) (c : Chip) (link : Fin 24) (half : Fin 2) (p : Packet) (rest : List RecvFlit) (c1 : Chip), (c.islOpen (linkIsland link.val) = true) ∧ (takePacket tRINGRESP (c.half link.val half.val).recv = some (p, rest)) ∧ (c1 = c.keepBuffers link.val half.val rest) ∧ (p.dst = c.pkg)) ∧
    (∃ (o : Otp) (c : Chip) (link : Fin 24) (half : Fin 2) (p : Packet) (rest : List RecvFlit) (c1 : Chip), (c.islOpen (linkIsland link.val) = true) ∧ (takePacket tRINGRESP (c.half link.val half.val).recv = some (p, rest)) ∧ (c1 = c.keepBuffers link.val half.val rest) ∧ (p.dst ≠ c.pkg)) ∧
    (∃ (o : Otp) (c : Chip) (link : Fin 24) (half : Fin 2) (p : Packet) (rest : List RecvFlit) (c1 : Chip), (c.islOpen (linkIsland link.val) = true) ∧ (takePacket tCLOSED (c.half link.val half.val).recv = some (p, rest)) ∧ (c1 = c.keepBuffers link.val half.val rest) ∧ (p.dst = c.pkg)) ∧
    (∃ (o : Otp) (c : Chip) (link : Fin 24) (half : Fin 2) (p : Packet) (rest : List RecvFlit) (c1 : Chip), (c.islOpen (linkIsland link.val) = true) ∧ (takePacket tCLOSED (c.half link.val half.val).recv = some (p, rest)) ∧ (c1 = c.keepBuffers link.val half.val rest) ∧ (p.dst ≠ c.pkg)) ∧
    (∃ (o : Otp) (c : Chip) (link : Fin 24) (half : Fin 2) (p : Packet) (rest : List RecvFlit) (c1 : Chip), (c.islOpen (linkIsland link.val) = true) ∧ (takePacket tBOUNCE (c.half link.val half.val).recv = some (p, rest)) ∧ (c1 = c.keepBuffers link.val half.val rest) ∧ (p.dst = c.pkg)) ∧
    (∃ (o : Otp) (c : Chip) (link : Fin 24) (half : Fin 2) (p : Packet) (rest : List RecvFlit) (c1 : Chip), (c.islOpen (linkIsland link.val) = true) ∧ (takePacket tBOUNCE (c.half link.val half.val).recv = some (p, rest)) ∧ (c1 = c.keepBuffers link.val half.val rest) ∧ (p.dst ≠ c.pkg)) ∧
    (∃ (o : Otp) (c : Chip) (link : Fin 24) (half : Fin 2) (p : Packet) (rest : List RecvFlit) (c1 : Chip), (c.islOpen (linkIsland link.val) = true) ∧ (takePacket tERROR (c.half link.val half.val).recv = some (p, rest)) ∧ (c1 = c.keepBuffers link.val half.val rest) ∧ (p.dst = c.pkg)) ∧
    (∃ (o : Otp) (c : Chip) (link : Fin 24) (half : Fin 2) (p : Packet) (rest : List RecvFlit) (c1 : Chip), (c.islOpen (linkIsland link.val) = true) ∧ (takePacket tERROR (c.half link.val half.val).recv = some (p, rest)) ∧ (c1 = c.keepBuffers link.val half.val rest) ∧ (p.dst ≠ c.pkg)) ∧
    (∃ (o : Otp) (c : Chip) (link : Fin 24) (half : Fin 2) (p : Packet) (rest : List RecvFlit) (c1 : Chip), (c.islOpen (linkIsland link.val) = true) ∧ (takePacket tLSA (c.half link.val half.val).recv = some (p, rest)) ∧ (c1 = c.keepBuffers link.val half.val rest)) :=
  ⟨⟨{}, recvChip tREAD [], 0, 0, 0, 0, recvPkt tREAD [], [⟨0, []⟩], _, by exact ⟨by decide, by decide, rfl, by decide⟩⟩,
   ⟨{}, { recvChip tREAD [] with pkg := 9 }, 0, 0, 0, 0, recvPkt tREAD [], [⟨0, []⟩], _, by exact ⟨by decide, by decide, rfl, by decide⟩⟩,
   ⟨{}, recvChip tREADDATA [], 0, 0, recvPkt tREADDATA [], [⟨0, []⟩], _, by exact ⟨by decide, by decide, rfl, by decide⟩⟩,
   ⟨{}, { recvChip tREADDATA [] with pkg := 9 }, 0, 0, recvPkt tREADDATA [], [⟨0, []⟩], _, by exact ⟨by decide, by decide, rfl, by decide⟩⟩,
   ⟨{}, recvChip tWRITE [], 0, 0, recvPkt tWRITE [], [⟨0, []⟩], _, by exact ⟨by decide, by decide, rfl, by decide⟩⟩,
   ⟨{}, { recvChip tWRITE [] with pkg := 9 }, 0, 0, recvPkt tWRITE [], [⟨0, []⟩], _, by exact ⟨by decide, by decide, rfl, by decide⟩⟩,
   ⟨{}, recvChip tWRITEACK [], 0, 0, recvPkt tWRITEACK [], [⟨0, []⟩], _, by exact ⟨by decide, by decide, rfl, by decide⟩⟩,
   ⟨{}, { recvChip tWRITEACK [] with pkg := 9 }, 0, 0, recvPkt tWRITEACK [], [⟨0, []⟩], _, by exact ⟨by decide, by decide, rfl, by decide⟩⟩,
   ⟨{}, recvChip tATOMIC [], 0, 0, 0, recvPkt tATOMIC [], [⟨0, []⟩], _, by exact ⟨by decide, by decide, rfl, by decide⟩⟩,
   ⟨{}, { recvChip tATOMIC [] with pkg := 9 }, 0, 0, 0, recvPkt tATOMIC [], [⟨0, []⟩], _, by exact ⟨by decide, by decide, rfl, by decide⟩⟩,
   ⟨{}, recvChip tATOMICRESP [], 0, 0, recvPkt tATOMICRESP [], [⟨0, []⟩], _, by exact ⟨by decide, by decide, rfl, by decide⟩⟩,
   ⟨{}, { recvChip tATOMICRESP [] with pkg := 9 }, 0, 0, recvPkt tATOMICRESP [], [⟨0, []⟩], _, by exact ⟨by decide, by decide, rfl, by decide⟩⟩,
   ⟨{}, recvChip tRINGOP [], 0, 0, recvPkt tRINGOP [], [⟨0, []⟩], _, by exact ⟨by decide, by decide, rfl, by decide⟩⟩,
   ⟨{}, { recvChip tRINGOP [] with pkg := 9 }, 0, 0, recvPkt tRINGOP [], [⟨0, []⟩], _, by exact ⟨by decide, by decide, rfl, by decide⟩⟩,
   ⟨{}, recvChip tRINGRESP [], 0, 0, recvPkt tRINGRESP [], [⟨0, []⟩], _, by exact ⟨by decide, by decide, rfl, by decide⟩⟩,
   ⟨{}, { recvChip tRINGRESP [] with pkg := 9 }, 0, 0, recvPkt tRINGRESP [], [⟨0, []⟩], _, by exact ⟨by decide, by decide, rfl, by decide⟩⟩,
   ⟨{}, recvChip tCLOSED [], 0, 0, recvPkt tCLOSED [], [⟨0, []⟩], _, by exact ⟨by decide, by decide, rfl, by decide⟩⟩,
   ⟨{}, { recvChip tCLOSED [] with pkg := 9 }, 0, 0, recvPkt tCLOSED [], [⟨0, []⟩], _, by exact ⟨by decide, by decide, rfl, by decide⟩⟩,
   ⟨{}, recvChip tBOUNCE [], 0, 0, recvPkt tBOUNCE [], [⟨0, []⟩], _, by exact ⟨by decide, by decide, rfl, by decide⟩⟩,
   ⟨{}, { recvChip tBOUNCE [] with pkg := 9 }, 0, 0, recvPkt tBOUNCE [], [⟨0, []⟩], _, by exact ⟨by decide, by decide, rfl, by decide⟩⟩,
   ⟨{}, recvChip tERROR [], 0, 0, recvPkt tERROR [], [⟨0, []⟩], _, by exact ⟨by decide, by decide, rfl, by decide⟩⟩,
   ⟨{}, { recvChip tERROR [] with pkg := 9 }, 0, 0, recvPkt tERROR [], [⟨0, []⟩], _, by exact ⟨by decide, by decide, rfl, by decide⟩⟩,
   ⟨{}, recvChip tLSA [], 0, 0, recvPkt tLSA [], [⟨0, []⟩], _, by exact ⟨by decide, by decide, rfl⟩⟩⟩

end Sys2Proof.Machine
end

section
/-! SUPPORT. No command looks at the queue: what each shape of meaning says of it, once, and then every command. -/

namespace Sys2Proof.Machine

/-- A meaning that acts on the package and settles it, whatever the queue holds. -/
def Settling (m : State → Host.Outcome State Fault Refusal) : Prop := ∃ f : Otp → Chip → Chip, ∀ s, m s = s.runO f

/-- A meaning that answers a next state with the queue it found, and fuses and package that do not depend on that queue. -/
def QueueBlind (m : State → Host.Outcome State Fault Refusal) : Prop :=
  ∀ (o : Otp) (c : Chip), ∃ (o' : Otp) (c' : Chip), ∀ q : List Instr, m ⟨o, c, q⟩ = .next ⟨o', c', q⟩

/-! ### Shapes that settle -/

theorem settling_packet (link : Fin 24) (half : Fin 2) (typ : Nat) (eff : Packet → Chip → Chip) :
    Settling fun s => s.packet link half typ eff := ⟨_, fun _ => rfl⟩

theorem settling_runFx (n : Nat) (f : Otp → Chip → Chip) : Settling fun s => s.runFx n f := ⟨_, fun _ => rfl⟩

theorem settling_runEth (n : Nat) (f : Chip → Chip) : Settling fun s => s.runEth n f := ⟨_, fun _ => rfl⟩

theorem settling_runI3c (f : Otp → Chip → Chip) : Settling fun s => s.runI3c f := ⟨_, fun _ => rfl⟩

theorem settling_runSpdm (chan : Nat) (f : Otp → Chip → Chip) : Settling fun s => s.runSpdm chan f := ⟨_, fun _ => rfl⟩

/-- It is enough to find the action for each contents of the fuses. -/
theorem Settling.of_otp {m : State → Host.Outcome State Fault Refusal}
    (h : ∀ o, ∃ f : Chip → Chip, ∀ c q, m ⟨o, c, q⟩ = State.run ⟨o, c, q⟩ f) : Settling m := by
  choose f hf using h
  exact ⟨f, fun ⟨o, c, q⟩ => by rw [hf, State.run_settled, State.runO_settled]⟩

/-- RDMA_READ_REQUEST answers from the ring table, which shows fuses. -/
theorem settling_rdmaReadRequest (eth : Fin 2) (qpn : BitVec 24) (va : Dword) (rkey : Word) (len : Nat) (obs : Fin 4) (line : Nat)
    (ecn : Bool) : Settling (execRdmaReadRequest eth qpn va rkey len obs line ecn) :=
  .of_otp fun o => by
    dsimp only [execRdmaReadRequest, State.runEth]
    exact ⟨_, fun _ _ => rfl⟩

/-- Every command settles the package and keeps the fuses, but those that may program fuses, and MIGRATION_EPOCH, which leaves nothing to settle. -/
theorem exec_settling (i : Instr) (hprog : mayProgram i = false) (hepoch : i ≠ .migrationEpoch) : Settling (exec i) := by
  unfold exec
  cases i with
  | porstRise | porstLowPulse | railReturn | lifecycleTransition | fuseProgramDone => cases hprog
  | migrationEpoch => exact absurd rfl hepoch
  | readReceive | readDataReceive | writeReceive | writeAckReceive | atomicReceive | atomicRespReceive | ringOpReceive
  | ringRespReceive | closedReceive | bounceReceive | errorReceive => exact settling_packet _ _ _ _
  | fxPerstDeassert | itemDoorbell | tailDoorbell | consumeDoorbell | cxlCorrectableError | cxlReadTimeout | fxRetrain =>
    exact settling_runFx _ _
  | fxPerstAssert | fxLinkL0 | fxFunctionReady | pcieConfigRequest | bar2Write | bar2Read | statusWindowWrite | cxlLinkUp
  | cxlFatalError =>
    dsimp only [execFxPerstAssert, execFxLinkL0, execFxFunctionReady, execPcieConfigRequest, execBar2Write, execBar2Read,
      execStatusWindowWrite, execCxlLinkUp, execCxlFatalError]
    exact settling_runFx _ _
  | rdmaReadRequest => exact settling_rdmaReadRequest _ _ _ _ _ _ _ _
  | ethernetLinkChange | roceSendReceive | rdmaWriteReceive | roceWriteImmReceive | cnpReceive | cnpRateRecovery | egressSend
  | egressAck | qpReset | queuePairError | ptpEventMessage =>
    dsimp only [execEthernetLinkChange, execRoceSendReceive, execRdmaWriteReceive, execRoceWriteImmReceive, execCnpReceive,
      execCnpRateRecovery, execEgressSend, execEgressAck, execQpReset, execQueuePairError, execPtpEventMessage]
    exact settling_runEth _ _
  | i3cEntdaa | i3cSetdasa | i3cRstdaa | i3cEnec | i3cDisec | i3cGetpid | i3cGetbcr | i3cGetdcr | i3cGetstatus | i3cGetmwl
  | i3cGetmrl | i3cPrivateWrite | i3cPrivateRead => exact settling_runI3c _
  | spdmGetVersion | spdmGetCapabilities | spdmNegotiateAlgorithms | spdmGetDigests | spdmGetCertificate | spdmChallenge =>
    exact settling_runSpdm _ _
  | spdmGetMeasurements =>
    dsimp only [execSpdmGetMeasurements]
    exact settling_runSpdm _ _
  | _ => exact ⟨_, fun _ => rfl⟩

/-- A command that programs no fuse acts on the package alone. -/
theorem exec_eq_act (i : Instr) (hprog : mayProgram i = false) :
    ∃ f : Otp → Chip → Chip, ∀ s, exec i s = s.act f := by
  by_cases hepoch : i = .migrationEpoch
  · subst hepoch
    exact ⟨_, execMigrationEpoch.eq_1⟩
  · obtain ⟨f, hf⟩ := exec_settling i hprog hepoch
    exact ⟨fun o c => (f o c).settle o, hf⟩

/-! ### The queue -/

theorem queueBlind_act (f : Otp → Chip → Chip) : QueueBlind fun s => s.act f := fun o c => ⟨o, f o c, fun _ => rfl⟩

theorem queueBlind_runO (f : Otp → Chip → Chip) : QueueBlind fun s => s.runO f := queueBlind_act _

theorem queueBlind_fuse (f : Otp → Chip → Otp × Chip) : QueueBlind fun s => s.fuse f :=
  fun o c => ⟨(f o c).1, (f o c).2.settle (f o c).1, fun _ => rfl⟩

/-- A restart from t0 ends in the same package whatever waits (R43–R46). -/
theorem queueBlind_startUp (obs : BootObs) : QueueBlind fun s => .next (s.startUp obs) := by
  intro o c
  cases hok : obs.otpOk with
  | false =>
    simp only [State.startUp, hok, Bool.not_false, if_true]
    exact ⟨_, _, fun _ => rfl⟩
  | true =>
    simp only [State.startUp, hok, Bool.not_true, Bool.false_eq_true, if_false]
    exact ⟨_, _, fun _ => rfl⟩

theorem queueBlind_next (g : Otp → Otp) (f : Otp → Chip → Chip) :
    QueueBlind fun s => .next { s with otp := g s.otp, chip := f s.otp s.chip } := fun o c => ⟨g o, f o c, fun _ => rfl⟩

/-- A choice that reads fuses and package. -/
theorem QueueBlind.ite {m n : State → Host.Outcome State Fault Refusal} (p : Otp → Chip → Prop) [∀ o c, Decidable (p o c)]
    (hm : QueueBlind m) (hn : QueueBlind n) : QueueBlind fun s => if p s.otp s.chip then m s else n s := by
  intro o c
  by_cases h : p o c
  · simpa only [h, if_true] using hm o c
  · simpa only [h, if_false] using hn o c

/-- A change of fuses and package before the meaning. -/
theorem QueueBlind.after {m : State → Host.Outcome State Fault Refusal} (hm : QueueBlind m) (g : Otp → Chip → Otp)
    (f : Otp → Chip → Chip) : QueueBlind fun s => m { s with otp := g s.otp s.chip, chip := f s.otp s.chip } :=
  fun o c => hm (g o c) (f o c)

theorem queueBlind_porstLowPulse (ticks : Nat) (obs : BootObs) : QueueBlind (execPorstLowPulse ticks obs) :=
  .ite (fun _ _ => ticks < 1600) (queueBlind_next id fun _ c => c.pass ticks) <|
    .ite (fun _ _ => 16000 ≤ ticks) ((queueBlind_startUp obs).after (fun o _ => o) fun _ c => c.pass ticks) <|
      .ite (fun _ c => (c.pass ticks).draw.1 % 2 = 1)
        ((queueBlind_startUp obs).after (fun o _ => o) fun _ c => (c.pass ticks).draw.2)
        (queueBlind_next id fun _ c => (c.pass ticks).draw.2)

theorem queueBlind_railReturn (obs : BootObs) : QueueBlind (execRailReturn obs) :=
  .ite (fun _ c => c.boot.held = true) (queueBlind_startUp obs) (queueBlind_runO _)

theorem queueBlind_lifecycleTransition (ok : Bool) (obs : BootObs) : QueueBlind (execLifecycleTransition ok obs) := by
  intro o c
  unfold execLifecycleTransition
  dsimp only
  split
  next t _ _ =>
    by_cases hwho : (lcWho o.lc t).isNone = true
    · simp only [hwho, if_true]
      exact ⟨_, _, fun _ => rfl⟩
    · cases ok with
      | false =>
        simp only [hwho, Bool.not_false, if_true]
        exact ⟨_, _, fun _ => rfl⟩
      | true =>
        simp only [hwho, if_false, Bool.not_true, Bool.false_eq_true]
        exact queueBlind_startUp obs _ _
  next => exact ⟨_, _, fun _ => rfl⟩

theorem queueBlind_fuseProgramDone (ok : Bool) : QueueBlind (execFuseProgramDone ok) := by
  intro o c
  unfold execFuseProgramDone
  dsimp only
  split
  next p _ _ =>
    by_cases hcode : p.code = 5
    · simp only [hcode, if_true]
      exact ⟨_, _, fun _ => rfl⟩
    · simp only [hcode, if_false]
      exact queueBlind_fuse _ o c
  next => exact ⟨_, _, fun _ => rfl⟩

/-- No command looks at the queue. -/
theorem queueBlind_exec (i : Instr) : QueueBlind (exec i) := by
  cases hprog : mayProgram i with
  | false =>
    obtain ⟨f, hf⟩ := exec_eq_act i hprog
    rw [show exec i = fun s => s.act f from funext hf]
    exact queueBlind_act f
  | true =>
    cases i with
    | porstRise obs => exact queueBlind_startUp obs
    | porstLowPulse ticks obs => exact queueBlind_porstLowPulse ticks obs
    | railReturn obs => exact queueBlind_railReturn obs
    | lifecycleTransition ok obs => exact queueBlind_lifecycleTransition ok obs
    | fuseProgramDone ok => exact queueBlind_fuseProgramDone ok
    | _ => cases hprog

end Sys2Proof.Machine
end

section
/-! The statements of the step, its queue, and the bits of a register write (00_scope.md R1, R10, R14, R16, R17; log entries 8, 9, 11). -/

namespace Sys2Proof.Machine

/-- Settles O1. -/
theorem stepRunsFrontCommand : Obligations.StepRunsFrontCommand :=
  fun i s => step_cons { s with pending := i :: s.pending } i s.pending rfl

/-- Settles O3: no command looks at the queue. -/
theorem everyCommandAnswersNext : Obligations.EveryCommandAnswersNext := by
  intro i s
  obtain ⟨o, c, h⟩ := queueBlind_exec i s.otp s.chip
  exact ⟨⟨o, c, s.pending⟩, h s.pending, rfl, h⟩

theorem runAll_cons_of_next {i : Instr} {s t : State} (l : List Instr) (h : exec i s = .next t) : runAll (i :: l) s = runAll l t := by
  simp only [runAll, h]

theorem core_run_succ_of_next {s t : State} (k : Nat) (h : step s = .next t) :
    Sys2Proof.core.run (k + 1) s = Sys2Proof.core.run k t := by
  have hstep : Sys2Proof.core.step s = .next t := h
  simp only [Host.Core.run, hstep]

/-- The run of a list is the same on a state with another queue, but for that queue. -/
theorem queueBlind_runAll (l : List Instr) : QueueBlind (runAll l) := by
  induction l with
  | nil => exact fun o c => ⟨o, c, fun _ => rfl⟩
  | cons i l ih =>
    intro o c
    obtain ⟨o₁, c₁, hexec⟩ := queueBlind_exec i o c
    obtain ⟨o₂, c₂, hrun⟩ := ih o₁ c₁
    exact ⟨o₂, c₂, fun q => (runAll_cons_of_next l (hexec q)).trans (hrun q)⟩

/-- The machine's run over a queue that starts with a list is the list's own run, the rest of the queue aside. -/
theorem core_run_eq_runAll (l rest : List Instr) (o : Otp) (c : Chip) :
    Sys2Proof.core.run l.length (⟨o, c, l ++ rest⟩ : State) = runAll l ⟨o, c, rest⟩ := by
  induction l generalizing o c with
  | nil => rfl
  | cons i l ih =>
    obtain ⟨o', c', h⟩ := queueBlind_exec i o c
    have hstep : step ⟨o, c, i :: l ++ rest⟩ = .next ⟨o', c', l ++ rest⟩ := (step_cons _ i (l ++ rest) rfl).trans (h _)
    rw [List.length_cons, core_run_succ_of_next l.length hstep, ih o' c', runAll_cons_of_next l (h rest)]

/-- Settles O4, by induction on the list. -/
theorem queueIsServedInOrder : Obligations.QueueIsServedInOrder := by
  intro l rest s
  obtain ⟨o, c, h⟩ := queueBlind_runAll l s.otp s.chip
  exact ⟨⟨o, c, rest⟩, h rest, rfl, (core_run_eq_runAll l rest s.otp s.chip).trans (h rest)⟩

/-! ### Register writes -/

/-- Within a register's 32 bits: an RW bit takes what is written, then a written 1 clears a W1C bit, and hardware's set has the last word (R14, R16). -/
theorem RegSpec.testBit_after (s : RegSpec) (old v sets : Nat) {n : Nat} (hn : n < 32) :
    (s.after old v sets).testBit n =
      (((if s.rw.toNat.testBit n then v.testBit n else old.testBit n) && !(v.testBit n && s.w1c.toNat.testBit n)) ||
        (sets.testBit n && s.w1c.toNat.testBit n)) := by
  have hones : (0xFFFFFFFF : Nat).testBit n = true := by
    rw [show (0xFFFFFFFF : Nat) = 2 ^ 32 - 1 from rfl, Nat.testBit_two_pow_sub_one]
    exact decide_eq_true hn
  simp only [RegSpec.after, Nat.testBit_or, Nat.testBit_and, Nat.testBit_xor, hones, Bool.xor_true]
  cases s.rw.toNat.testBit n <;> simp

/-- Settles O14. -/
theorem registerWriteBits : Obligations.RegisterWriteBits := by
  intro s old v sets n hn
  refine ⟨fun hrw hw1c => ?_, fun hrw hw1c => ?_, fun hrw hw1c => ?_⟩
  · simp [s.testBit_after old v sets hn, hrw, hw1c]
  · simp [s.testBit_after old v sets hn, hrw, hw1c, Bool.or_comm]
  · simp [s.testBit_after old v sets hn, hrw, hw1c]

/-- What a write does to a register that has no action of its own (R14, R17). -/
theorem Chip.regWrite_of_no_action {o : Otp} {c : Chip} {writer a v sets : Nat} {valid : List SigCheck} {s : RegSpec}
    (hspec : regSpecAt a = some s) (hact : c.regAction o a v valid = none) :
    c.regWrite o writer a v sets valid =
      let c' := if s.rw = 0 ∧ s.w1c = 0 then c else c.setReg a (s.after (c.reg a) v sets)
      if s.am = 0 then c' else c'.notice 17 (writer + a * 65536) := by
  simp only [Chip.regWrite, hspec, hact]

/-- Settles O15; SUBCAUSE 17 and the packing of ARG are the model's choice (log entry 11). -/
theorem writeOnReadOnlyField : Obligations.WriteOnReadOnlyField := by
  intro o c writer a v sets valid s hspec hact
  rw [Chip.regWrite_of_no_action hspec hact]
  refine ⟨fun hrw hw1c ham => ?_, fun hrw hw1c ham => ?_, fun ham => ?_, fun n hn => (registerWriteBits s _ v sets n hn).2.2⟩
  · simp only [hrw, hw1c, ham, and_self, if_true]
  · simp only [hrw, hw1c, ham, and_self, if_true, if_false]
  · simp only [ham, if_false]
    split <;> rfl

end Sys2Proof.Machine
end

section
/-! The control commands (17_signal_box.md R435–R450; 21_faults.md R546; 22_wear.md R556, R559). -/

namespace Sys2Proof.Machine

/-! ### What an access comes to (R448–R450) -/

section
variable {o : Otp} {c : Chip} {x : Access} {valid : List SigCheck} {far : Option (List Byte)} {t : Nat}

theorem Chip.access_decodeError (hopen : c.islOpen 1 = true) (hcause : c.decodeCause o x ≠ 0) :
    c.access o x valid far = c.decodeError x (c.decodeCause o x) := by
  simp [Chip.access, hopen, hcause]

theorem Chip.access_closed (hopen : c.islOpen 1 = true) (hcause : c.decodeCause o x = 0) (htarget : c.target o x.addr = some t)
    (hisl : targetIsland t x.addr ≠ 0) (hclosed : c.islOpen (targetIsland t x.addr) = false) :
    c.access o x valid far = c.closedAccess x := by
  simp [Chip.access, hopen, hcause, htarget, hisl, hclosed]

theorem Chip.access_serve (hopen : c.islOpen 1 = true) (hcause : c.decodeCause o x = 0) (htarget : c.target o x.addr = some t)
    (hisl : (targetIsland t x.addr != 0 && !c.islOpen (targetIsland t x.addr)) = false) :
    c.access o x valid far = c.serve o x t valid far := by
  simp [Chip.access, hopen, hcause, htarget, hisl]

/-- A write served by a register unit is a register write. -/
theorem Chip.serve_regWrite (hmaster : x.master ≠ 5) (ht : 1 < t) (hbridge : t ≠ 8) (hwrite : x.write = true) :
    c.serve o x t valid far = c.regWrite o x.master x.addr (x.data % 2 ^ 32) x.sets valid := by
  have h0 : t ≠ 0 := by omega
  have h1 : t ≠ 1 := by omega
  simp only [Chip.serve, hmaster, h0, h1, hbridge, hwrite, if_true, if_false]

theorem Chip.serve_bridge (hmaster : x.master ≠ 5) : c.serve o x 8 valid far = c.bridge x far := by
  simp [Chip.serve, hmaster]

/-- A write through a bridge window to memory of this package (R440). -/
theorem Chip.bridge_write_here {window off : Nat} (haddr : x.addr = 0x40000000 + window * 2 ^ 28 + off) (hwindow : window < 4)
    (hoff : off < 2 ^ 28) (hwrite : x.write = true) (hpkg : c.bridgePkg window = c.pkg)
    (hcause : c.bridgeCause (c.bridgeBase window + off) x.size = none) :
    c.bridge x far =
      (c.memWrite (c.bridgeBase window + off) (leBytes x.size x.data)).setCtl fun k => { k with answer := leBytes x.size 0 } := by
  have hw : x.addr / 2 ^ 28 % 4 = window := by omega
  have ho : x.addr % 2 ^ 28 = off := by omega
  simp only [Chip.bridge, hw, ho, hpkg, hcause, hwrite, ne_eq, not_true_eq_false, if_false, if_true]

end

/-! ### The commands -/

/-- Settles O35. -/
theorem controlCommandsComplete : Obligations.ControlCommandsComplete := by
  intro o c q
  refine ⟨?registerWrite, ?decodeError, ?closedIsland, ?bridgeWrite, ?remap, ?heartbeat, ?watchdog, ?fastSample, ?slowSample, ?daily⟩
  case registerWrite =>
    intro master addr value sets valid t hopen hmaster hcause htarget ht hbridge hisl
    show execControlRegisterWrite master addr value sets valid ⟨o, c, q⟩ = _
    rw [execControlRegisterWrite, State.runO_settled, Chip.access_serve hopen hcause htarget hisl,
      Chip.serve_regWrite hmaster ht hbridge rfl, Nat.mod_eq_of_lt value.isLt]
  case decodeError =>
    rintro master foreign addr size write fetch data x hopen rfl hcause
    show execControlDecodeError master foreign addr size write fetch data ⟨o, c, q⟩ = _
    rw [execControlDecodeError, State.runO_settled, Chip.access_decodeError hopen hcause]
  case closedIsland =>
    rintro master addr write data x t hopen rfl hcause htarget hisl hclosed
    show execClosedIslandAccess master addr write data ⟨o, c, q⟩ = _
    rw [execClosedIslandAccess, State.runO_settled, Chip.access_closed hopen hcause htarget hisl hclosed, Chip.closedAccess]
  case bridgeWrite =>
    rintro master window off size data far x hopen hmem hmaster rfl hcause htarget hpkg hbridge
    have hisl : (targetIsland 8 (0x40000000 + window.val * 2 ^ 28 + off.toNat) != 0 &&
        !c.islOpen (targetIsland 8 (0x40000000 + window.val * 2 ^ 28 + off.toNat))) = false := by simp [targetIsland, hmem]
    show execBridgeAccess master window off size true data far ⟨o, c, q⟩ = _
    rw [execBridgeAccess, State.runO_settled, Chip.access_serve hopen hcause htarget hisl, Chip.serve_bridge hmaster,
      Chip.bridge_write_here rfl window.isLt off.isLt rfl hpkg hbridge]
  case remap =>
    intro value hopen hset
    show execSbRemapWrite value ⟨o, c, q⟩ = _
    simp only [execSbRemapWrite, State.run_settled, hopen, Chip.remapWrite, hset, if_true]
  case heartbeat =>
    intro value hopen
    show execSbHbeatWrite value ⟨o, c, q⟩ = _
    simp only [execSbHbeatWrite, State.run_settled, hopen, Chip.heartbeat, if_true]
  case watchdog =>
    rintro core c1 hstep hopen hlatch rfl
    show execCoreWatchdogExpiry core ⟨o, c, q⟩ = _
    simp only [execCoreWatchdogExpiry, State.run_settled, Nat.not_lt.2 hstep, hopen, hlatch, Bool.not_true, Bool.false_eq_true,
      or_self, if_false]
  case fastSample =>
    rintro tjPlat tjPort tjHbm vdd power c1 hheld hstep rfl
    show execFastMonitorSample tjPlat tjPort tjHbm vdd power ⟨o, c, q⟩ = _
    simp only [execFastMonitorSample, State.runO_settled, hheld, hstep, Bool.false_eq_true, or_self, if_false]
  case slowSample =>
    rintro obs c1 hruns rfl
    show execSlowMonitorSample obs ⟨o, c, q⟩ = _
    simp only [execSlowMonitorSample, State.runO_settled, hruns, Bool.not_true, Bool.false_eq_true, if_false]
  case daily =>
    intro hruns
    show execDailyPrediction ⟨o, c, q⟩ = _
    simp only [execDailyPrediction, State.run_settled, hruns, Bool.not_true, Bool.false_eq_true, if_false]

end Sys2Proof.Machine
end

section
/-! The start-up commands (02_start_up.md R44–R65; 03_amibo_image.md R90; 21_faults.md R546). -/

namespace Sys2Proof.Machine

/-- Between 100 ns and 1 us a pulse is ignored or restarts start-up, as a free value says (R44). -/
theorem execPorstLowPulse_between {ticks : Nat} (obs : BootObs) (o : Otp) (c : Chip) (q : List Instr) (hlow : 1600 ≤ ticks)
    (hhigh : ticks < 16000) :
    execPorstLowPulse ticks obs ⟨o, c, q⟩ =
      if (c.pass ticks).draw.1 % 2 = 1 then .next (State.startUp ⟨o, (c.pass ticks).draw.2, q⟩ obs)
      else .next ⟨o, (c.pass ticks).draw.2, q⟩ := by
  simp only [execPorstLowPulse, Nat.not_lt.2 hlow, Nat.not_le.2 hhigh, if_false]

/-- Settles O26. That the deadline leaves a slot's code from 0x20 on and NO_IMAGE else, that a heartbeat counts as a report, and what
I1's timeout latches are the model's choice (log entry 46). -/
theorem startUpCommandsComplete : Obligations.StartUpCommandsComplete := by
  intro o c q
  refine ⟨?rise, ?ignoredPulse, ?longPulse, ?betweenPulse, ?recovery, ?streamDone, ?readTimeout, ?retry, ?hbm, ?handOver, ?islandLimit,
    ?i1Limit, ?linkWindow, ?freeStart, ?lockRequired, ?silent, ?deadline⟩
  case rise => exact fun obs => rfl
  case ignoredPulse =>
    intro ticks obs hticks
    show execPorstLowPulse ticks obs ⟨o, c, q⟩ = _
    simp only [execPorstLowPulse, hticks, if_true]
  case longPulse =>
    intro ticks obs hticks
    have hshort : ¬ ticks < 1600 := by omega
    show execPorstLowPulse ticks obs ⟨o, c, q⟩ = _
    simp only [execPorstLowPulse, hshort, hticks, if_true, if_false]
  case betweenPulse =>
    intro ticks obs hlow hhigh
    show execPorstLowPulse ticks obs ⟨o, c, q⟩ = _ ∨ execPorstLowPulse ticks obs ⟨o, c, q⟩ = _
    rw [execPorstLowPulse_between obs o c q hlow hhigh]
    by_cases hdraw : (c.pass ticks).draw.1 % 2 = 1
    · exact .inr (if_pos hdraw)
    · exact .inl (if_neg hdraw)
  case recovery =>
    intro sfdpA sfdpB openA openB t hstep hgoes hwait
    show execFlashRecoveryExpiry sfdpA sfdpB openA openB ⟨o, c, q⟩ = _
    simp only [execFlashRecoveryExpiry, State.runO_settled, hwait, hstep, hgoes, ne_eq, not_true_eq_false, Bool.false_eq_true, or_self,
      if_false]
  case streamDone =>
    intro ecdsa endEcdsa mldsa endMldsa hstream
    show execSlotStreamDone ecdsa endEcdsa mldsa endMldsa ⟨o, c, q⟩ = _
    cases hjudge : judgeSlot o c.chosenFlash (ecdsa ++ endEcdsa ++ mldsa ++ endMldsa) <;>
      simp only [execSlotStreamDone, State.runO_settled, hstream, hjudge, Bool.not_true, Bool.false_eq_true, if_false]
  case readTimeout =>
    intro hstream
    show execFlashReadTimeout ⟨o, c, q⟩ = _
    simp only [execFlashReadTimeout, State.run_settled, hstream, if_true]
  case retry =>
    intro checkA checkB t hstep hgoes hwait
    show execAttemptRetry checkA checkB ⟨o, c, q⟩ = _
    simp only [execAttemptRetry, State.run_settled, hwait, Nat.not_le.2 hstep, hgoes, Bool.false_eq_true, or_self, if_false]
  case hbm =>
    intro mask hwait hgoes
    show execHbmTrainingDone mask ⟨o, c, q⟩ = _
    simp only [execHbmTrainingDone, State.runO_settled, hwait, hgoes, Bool.not_false, Bool.and_self, if_true]
  case handOver =>
    intro im hloaded hstep hhbm hgoes
    show execHandOver ⟨o, c, q⟩ = _
    simp only [execHandOver, State.runO_settled, hloaded, hstep, hhbm, hgoes, ne_eq, not_true_eq_false, Bool.false_eq_true, or_self,
      if_false]
  case islandLimit =>
    intro isl hopening hisl
    show execPlatformOpenTimeout isl ⟨o, c, q⟩ = _
    simp only [execPlatformOpenTimeout, State.runO_settled, hopening, Nat.not_le.2 hisl, ne_eq, not_true_eq_false, or_self, if_false]
  case i1Limit =>
    intro hopening hstep hgoes
    show execI1OpenTimeout ⟨o, c, q⟩ = _
    simp only [execI1OpenTimeout, State.run_settled, hopening, hstep, hgoes, ne_eq, not_true_eq_false, Bool.false_eq_true, or_self,
      if_false]
  case linkWindow =>
    rintro c1 hstep hgoes rfl
    show execLinkWindowExpiry ⟨o, c, q⟩ = _
    simp only [execLinkWindowExpiry, State.run_settled, hstep, hgoes, ne_eq, not_true_eq_false, Bool.false_eq_true, or_self, if_false]
  case freeStart =>
    intro hstep hgoes hcode hlock
    show execLockTimeoutExpiry ⟨o, c, q⟩ = _
    have hfree : (c.passTo (c.boot.lockAt + c.im.clk.lockTimeout)).im.clk.lockRequired = false := hlock
    simp only [execLockTimeoutExpiry, State.run_settled, hstep, hgoes, hcode, hfree, ne_eq, not_true_eq_false, Bool.false_eq_true,
      or_self, if_false]
  case lockRequired =>
    rintro c1 hstep hgoes hcode hlock rfl
    show execLockTimeoutExpiry ⟨o, c, q⟩ = _
    have hheld : (c.passTo (c.boot.lockAt + c.im.clk.lockTimeout)).im.clk.lockRequired = true := hlock
    simp only [execLockTimeoutExpiry, State.run_settled, hstep, hgoes, hcode, hheld, ne_eq, not_true_eq_false, Bool.false_eq_true,
      or_self, if_true, if_false]
  case silent =>
    intro t hreport hfirst hlast hgoes
    show execOhmaxSilentTimeout ⟨o, c, q⟩ = _
    simp only [execOhmaxSilentTimeout, State.run_settled, hreport, Nat.not_lt.2 hfirst, Nat.not_lt.2 hlast, hgoes, Bool.false_eq_true,
      or_self, if_false]
  case deadline =>
    rintro slot hfirst hlast hgoes rfl
    show execStartupDeadlineExpiry ⟨o, c, q⟩ = _
    rcases hchosen : c.boot.chosen with _ | _ | k <;>
      simp only [execStartupDeadlineExpiry, State.run_settled, Nat.not_lt.2 hfirst, Nat.not_le.2 hlast, hgoes, hchosen,
        Bool.false_eq_true, or_self, if_false]

end Sys2Proof.Machine
end

section
/-! The flex ports' commands (02_start_up.md R63; 15_host_and_memory_ports.md R388–R398; 08_memory_tiers.md R228; 09_rings.md R252, R253). -/

namespace Sys2Proof.Machine

/-- A flex port's command acts on the package without what the function sent before, and settles it. -/
theorem State.runFx_settled {o : Otp} {c c1 : Chip} {q : List Instr} {n : Nat} (f : Otp → Chip → Chip)
    (hsent : c1 = c.setFx n fun x => { x with sent := [] }) : State.runFx ⟨o, c, q⟩ n f = .next (State.settled ⟨o, c, q⟩ (f o c1)) := by
  subst hsent
  rfl

@[simp] theorem Chip.im_setFx (c : Chip) (n : Nat) (f : FxPort → FxPort) : (c.setFx n f).im = c.im := rfl
@[simp] theorem Chip.islOpen_setFx (c : Chip) (n : Nat) (f : FxPort → FxPort) (isl : Nat) :
    (c.setFx n f).islOpen isl = c.islOpen isl := rfl

/-- Counting a discarded write changes neither image nor ports. -/
@[simp] theorem Chip.im_fxUncorr (c : Chip) (n : Nat) : (c.fxUncorr n).im = c.im := rfl
@[simp] theorem Chip.fx_fxUncorr (c : Chip) (n m : Nat) : (c.fxUncorr n).fx m = c.fx m := rfl

/-! ### Memory writes and doorbells of a host (R252, R392, R394) -/

section
variable {c : Chip} {n : Nat} {data : List Byte}

theorem Chip.hostTlp_good (k : Chip → Chip) (hlive : c.fxLive n = true) (hd0 : (c.fx n).d3 = false) (hlen : data.length ≤ (c.fx n).mps) :
    c.hostTlp n false data k = k c := by
  simp only [Chip.hostTlp, hlive, hd0, Nat.not_lt.2 hlen, Bool.not_true, Bool.false_eq_true, if_false]

theorem Chip.hostTlp_poisoned (k : Chip → Chip) (hlive : c.fxLive n = true) (hd0 : (c.fx n).d3 = false)
    (hlen : data.length ≤ (c.fx n).mps) : c.hostTlp n true data k = (c.fxUncorr n).notice 394 n := by
  simp only [Chip.hostTlp, hlive, hd0, Nat.not_lt.2 hlen, Bool.not_true, Bool.false_eq_true, if_true, if_false]

theorem Chip.hostTlp_malformed (poisoned : Bool) (k : Chip → Chip) (hlive : c.fxLive n = true) (hd0 : (c.fx n).d3 = false)
    (hlen : (c.fx n).mps < data.length) : c.hostTlp n poisoned data k = c.fxUncorr n := by
  simp only [Chip.hostTlp, hlive, hd0, hlen, Bool.not_true, Bool.false_eq_true, if_true, if_false]

theorem Chip.hostDoorbell_aligned (window : Nat) {off : Nat} (hlive : c.fxLive n = true) (hd0 : (c.fx n).d3 = false)
    (hlen : data.length ≤ (c.fx n).mps) (hoff : off % 64 = 0) :
    c.hostDoorbell n window off false data = c.portWrite n (dbBase + 65536 * window + off) data := by
  rw [Chip.hostDoorbell, Chip.hostTlp_good _ hlive hd0 hlen, if_pos hoff]

theorem Chip.hostDoorbell_refused (window : Nat) {off : Nat} (hlive : c.fxLive n = true) (hd0 : (c.fx n).d3 = false)
    (hlen : data.length ≤ (c.fx n).mps) (hoff : off % 64 ≠ 0) :
    c.hostDoorbell n window off false data = (if fieldAt data 0 2 ≤ 0x3FFF then c.refuseDb (fieldAt data 0 2) else c).msix n 1 := by
  rw [Chip.hostDoorbell, Chip.hostTlp_good _ hlive hd0 hlen, if_neg hoff, apply_ite (Chip.msix · n 1)]

end

section
variable {o : Otp} {c c1 : Chip} {q : List Instr} {i : Instr} {n off : Nat} {data : List Byte} (window : Nat)
  (hexec : exec i ⟨o, c, q⟩ = State.runFx ⟨o, c, q⟩ n fun _ c => c.hostDoorbell n window off false data)
  (hsent : c1 = c.setFx n fun x => { x with sent := [] }) (hlive : c1.fxLive n = true) (hd0 : (c1.fx n).d3 = false)
  (hlen : data.length ≤ (c1.fx n).mps)
include hexec hsent hlive hd0 hlen

theorem completes_doorbell_aligned (hoff : off % 64 = 0) :
    Completes i ⟨o, c, q⟩ (c1.portWrite n (dbBase + 65536 * window + off) data) := by
  rw [Completes, hexec, State.runFx_settled _ hsent, Chip.hostDoorbell_aligned window hlive hd0 hlen hoff]

theorem completes_doorbell_refused (hoff : off % 64 ≠ 0) :
    Completes i ⟨o, c, q⟩ ((if fieldAt data 0 2 ≤ 0x3FFF then c1.refuseDb (fieldAt data 0 2) else c1).msix n 1) := by
  rw [Completes, hexec, State.runFx_settled _ hsent, Chip.hostDoorbell_refused window hlive hd0 hlen hoff]

end

/-! ### The CXL host port (R397, R398) -/

theorem Chip.cxlFatal_of_up {c : Chip} {n : Nat} (hmode : c.im.fxMode n = 2) (hup : (c.fx n).link = 2) :
    c.cxlFatal n = c.fxDown n 3 false := if_pos ⟨hmode, hup⟩

/-! ### The commands -/

/-- Settles O45. The MSI-X table as a place that STATUS_WINDOW_WRITE writes and the count of discarded writes (log entry 43), D3hot and
the places in configuration space (log entry 31), and FX_RETRAIN as its procedure applying (log entry 60) are the model's choice. -/
theorem flexPortCommandsComplete : Obligations.FlexPortCommandsComplete := by
  intro o c q
  refine ⟨?perstHigh, ?perstLow, ?perstLowOther, ?linkL0, ?ready, ?configRetry, ?configWrite, ?configRead, ?bar2Write, ?bar2Poisoned,
    ?bar2Malformed, ?bar0Read, ?bar2Read, ?msixTable, ?discarded, ?item, ?itemRefused, ?tail, ?tailRefused, ?consume, ?consumeRefused,
    ?cxlUp, ?cxlCorrectable, ?cxlFatal, ?cxlUncorrectable, ?cxlTimeout, ?retrain⟩
  case perstHigh =>
    intro fx c1 hsent
    show execFxPerstDeassert fx ⟨o, c, q⟩ = _
    rw [execFxPerstDeassert, State.runFx_settled _ hsent]
  case perstLow =>
    intro fx c1 hsent hmode hopen
    show execFxPerstAssert fx ⟨o, c, q⟩ = _
    simp only [execFxPerstAssert, State.runFx_settled _ hsent, Chip.im_setFx, Chip.islOpen_setFx, hmode, hopen, and_self, if_true]
  case perstLowOther =>
    intro fx c1 hsent hmode
    show execFxPerstAssert fx ⟨o, c, q⟩ = _
    simp only [execFxPerstAssert, State.runFx_settled _ hsent, Chip.im_setFx, hmode, false_and, if_false]
  case linkL0 =>
    intro fx speed width c1 hsent hmode htraining hwidth
    show execFxLinkL0 fx speed width ⟨o, c, q⟩ = _
    simp only [execFxLinkL0, State.runFx_settled _ hsent, hmode, htraining, Nat.not_lt.2 hwidth, ne_eq, not_true_eq_false, or_self,
      if_false]
  case ready =>
    intro fx c1 hsent hmode hup hruns
    show execFxFunctionReady fx ⟨o, c, q⟩ = _
    simp only [execFxFunctionReady, State.runFx_settled _ hsent, hmode, hup, hruns, ne_eq, not_true_eq_false, Bool.not_true,
      Bool.false_eq_true, or_self, if_false]
  case configRetry =>
    intro fx write off value kind c1 hsent hmode hup hready
    show execPcieConfigRequest fx write off value kind ⟨o, c, q⟩ = _
    simp only [execPcieConfigRequest, State.runFx_settled _ hsent, hmode, hup, hready, ne_eq, not_true_eq_false, Bool.not_false, or_self,
      if_true, if_false]
  case configWrite =>
    intro fx off value kind c1 hsent hmode hup hready
    show execPcieConfigRequest fx true off value kind ⟨o, c, q⟩ = _
    simp only [execPcieConfigRequest, State.runFx_settled _ hsent, hmode, hup, hready, ne_eq, not_true_eq_false, Bool.not_true,
      Bool.false_eq_true, or_self, if_true, if_false]
  case configRead =>
    intro fx off value kind c1 hsent hmode hup hready
    show execPcieConfigRequest fx false off value kind ⟨o, c, q⟩ = _
    simp only [execPcieConfigRequest, State.runFx_settled _ hsent, hmode, hup, hready, ne_eq, not_true_eq_false, Bool.not_true,
      Bool.false_eq_true, or_self, if_false]
  case bar2Write =>
    intro fx off data c1 hsent hlive hlen hwin hend hd0
    show execBar2Write fx off false data ⟨o, c, q⟩ = _
    simp only [execBar2Write, State.runFx_settled _ hsent, Chip.hostTlp_good _ hlive hd0 hlen, hwin, Nat.not_lt.2 hend, or_self, if_false]
  case bar2Poisoned =>
    intro fx off data c1 hsent hlive hlen hd0
    show execBar2Write fx off true data ⟨o, c, q⟩ = _
    simp only [execBar2Write, State.runFx_settled _ hsent, Chip.hostTlp_poisoned _ hlive hd0 hlen]
  case bar2Malformed =>
    intro fx off poisoned data c1 hsent hlive hlen hd0
    show execBar2Write fx off poisoned data ⟨o, c, q⟩ = _
    simp only [execBar2Write, State.runFx_settled _ hsent, Chip.hostTlp_malformed _ _ hlive hd0 hlen]
  case bar0Read =>
    intro fx off len obs line c1 hsent hlive hd0
    show execBar2Read fx true off len obs line ⟨o, c, q⟩ = _
    simp only [execBar2Read, State.runFx_settled _ hsent, hlive, hd0, Bool.not_true, Bool.false_eq_true, if_true, if_false]
  case bar2Read =>
    intro fx off len obs line d c2 c1 hsent hlive hwin hend hopen hread hd0
    show execBar2Read fx false off len obs line ⟨o, c, q⟩ = _
    simp only [execBar2Read, State.runFx_settled _ hsent, hlive, hd0, hwin, Nat.not_lt.2 hend, hopen, hread, Bool.not_true,
      Bool.false_eq_true, or_self, if_false]
  case msixTable =>
    intro fx off data c1 hsent hlive hlen hfrom hend hd0
    have hdoorbell : ¬ (0x10000 ≤ off.toNat ∧ off.toNat < 0x40000) := by omega
    show execStatusWindowWrite fx off false data ⟨o, c, q⟩ = _
    simp only [execStatusWindowWrite, State.runFx_settled _ hsent, Chip.hostTlp_good _ hlive hd0 hlen, if_neg hdoorbell, hfrom, hend,
      and_self, if_true]
  case discarded =>
    intro fx off data c1 hsent hlive hlen hmsix hdoorbell hd0
    have hnotDoorbell : ¬ (0x10000 ≤ off.toNat ∧ off.toNat < 0x40000) := by omega
    have hnotMsix : ¬ (0x40000 ≤ off.toNat ∧ off.toNat + data.length ≤ 0x40400) := by omega
    show execStatusWindowWrite fx off false data ⟨o, c, q⟩ = _
    simp only [execStatusWindowWrite, State.runFx_settled _ hsent, Chip.hostTlp_good _ hlive hd0 hlen, if_neg hnotDoorbell,
      if_neg hnotMsix]
  case item => exact fun fx off data c1 hsent hlive hlen hoff hd0 => completes_doorbell_aligned 1 rfl hsent hlive hd0 hlen hoff
  case itemRefused => exact fun fx off data c1 hsent hlive hlen hoff hd0 => completes_doorbell_refused 1 rfl hsent hlive hd0 hlen hoff
  case tail => exact fun fx off data c1 hsent hlive hlen hoff hd0 => completes_doorbell_aligned 2 rfl hsent hlive hd0 hlen hoff
  case tailRefused => exact fun fx off data c1 hsent hlive hlen hoff hd0 => completes_doorbell_refused 2 rfl hsent hlive hd0 hlen hoff
  case consume => exact fun fx off data c1 hsent hlive hlen hoff hd0 => completes_doorbell_aligned 3 rfl hsent hlive hd0 hlen hoff
  case consumeRefused => exact fun fx off data c1 hsent hlive hlen hoff hd0 => completes_doorbell_refused 3 rfl hsent hlive hd0 hlen hoff
  case cxlUp =>
    rintro fx bytes speed width c2 c3 c1 hsent hmode htraining hwidth hopen hruns rfl rfl
    show execCxlLinkUp fx bytes speed width ⟨o, c, q⟩ = _
    simp only [execCxlLinkUp, State.runFx_settled _ hsent, hmode, htraining, Nat.not_lt.2 hwidth, hopen, hruns, ne_eq, not_true_eq_false,
      Bool.not_true, Bool.false_eq_true, or_self, if_false]
  case cxlCorrectable =>
    intro fx c1 hsent hmode hup
    show execCxlCorrectableError fx ⟨o, c, q⟩ = _
    simp only [execCxlCorrectableError, State.runFx_settled _ hsent, hmode, hup, and_self, if_true]
  case cxlFatal =>
    intro fx kind c1 hsent hmode hup hkind
    show execCxlFatalError fx kind ⟨o, c, q⟩ = _
    simp only [execCxlFatalError, State.runFx_settled _ hsent, hkind, false_and, if_false, Chip.cxlFatal_of_up hmode hup]
  case cxlUncorrectable =>
    intro fx c1 hsent hmode hup
    have hdown : (c1.fxUncorr fx.val).cxlFatal fx.val = (c1.fxUncorr fx.val).fxDown fx.val 3 false :=
      Chip.cxlFatal_of_up (by rw [Chip.im_fxUncorr, hmode]) (by rw [Chip.fx_fxUncorr, hup])
    show execCxlFatalError fx 0 ⟨o, c, q⟩ = _
    simp only [execCxlFatalError, State.runFx_settled _ hsent, Fin.val_zero, hmode, hup, and_self, if_true, hdown]
  case cxlTimeout =>
    intro fx c1 hsent hmode hup
    show execCxlReadTimeout fx ⟨o, c, q⟩ = _
    rw [execCxlReadTimeout, State.runFx_settled _ hsent, Chip.cxlFatal_of_up hmode hup]
  case retrain =>
    intro fx c1 hsent hproc
    show execFxRetrain fx ⟨o, c, q⟩ = _
    simp only [execFxRetrain, State.runFx_settled _ hsent, hproc, if_true]

end Sys2Proof.Machine
end

section
/-! The idle step and the cancel (04_islands_and_timetable.md R111, R124; 09_rings.md R263; 19_power_states.md R500; log entry 8). -/

namespace Sys2Proof.Machine

/-! ### The empty queue -/

theorem State.idle_standby {s : State} (h : s.chip.pwr.st = .standby) : s.idle = { s with chip := s.chip.pass 640 } := by
  simp only [State.idle, h, if_true]

theorem State.idle_running {s : State} (h : s.chip.pwr.st ≠ .standby) : s.idle = s.settled (s.chip.pass 16).ohmaxConsume := by
  simp only [State.idle, h, if_false, State.settled]

/-- Settles O2; that time passes on an empty queue is the model's choice (log entry 8). -/
theorem emptyQueueIdles : Obligations.EmptyQueueIdles := by
  intro s hempty
  rw [step_nil s hempty]
  exact ⟨fun hstandby => by rw [State.idle_standby hstandby], fun hrunning => by rw [State.idle_running hrunning]⟩

/-! ### The departure log leaves the timetable alone (R131) -/

@[simp] theorem Chip.tt_bump (c : Chip) (a : Nat) : (c.bump a).tt = c.tt := rfl
@[simp] theorem Chip.tt_signal (c : Chip) (s : Signal) : (c.signal s).tt = c.tt := rfl
@[simp] theorem Chip.tt_setRing (c : Chip) (r : Nat) (f : Ring → Ring) : (c.setRing r f).tt = c.tt := rfl

@[simp] theorem Chip.tt_setRingWord (c : Chip) (r x off : Nat) (bs : List Byte) : (c.setRingWord r x off bs).tt = c.tt := by
  unfold Chip.setRingWord
  dsimp only
  split
  · rfl
  · split <;> rfl

@[simp] theorem Chip.tt_setRingWords (c : Chip) (r x : Nat) (bs : List Byte) : (c.setRingWords r x bs).tt = c.tt := by
  unfold Chip.setRingWords
  induction List.range (ceilDiv bs.length 64) generalizing c with
  | nil => rfl
  | cons k ks ih => rw [List.foldl_cons, ih, Chip.tt_setRingWord]

@[simp] theorem Chip.tt_grant (c : Chip) (r n : Nat) (who : Party) : (c.grant r n who).2.tt = c.tt := rfl

@[simp] theorem Chip.tt_alertCheck (c : Chip) (r : Nat) : (c.alertCheck r).tt = c.tt := by
  unfold Chip.alertCheck
  split <;> rfl

@[simp] theorem Chip.tt_commitItem (c : Chip) (r seq : Nat) (hold : Bool) : (c.commitItem r seq hold).tt = c.tt := by
  unfold Chip.commitItem
  split
  · rfl
  · simp only [Chip.tt_alertCheck, apply_ite Chip.tt, Chip.tt_signal, Chip.tt_setRing, Chip.tt_setRingWord, ite_self]

theorem Chip.tt_of_enginePut {c c' : Chip} {r : Nat} {bytes : List Byte} (h : c.enginePut r bytes = some c') : c'.tt = c.tt := by
  unfold Chip.enginePut at h
  dsimp only at h
  split at h
  · cases h
  · cases h
    rw [Chip.tt_commitItem, Chip.tt_setRingWords, Chip.tt_grant]

@[simp] theorem Chip.tt_logDep (c : Chip) (status time fired id : Nat) (d : Departure) : (c.logDep status time fired id d).tt = c.tt := by
  unfold Chip.logDep
  dsimp only
  split
  next hput => exact Chip.tt_of_enginePut hput
  next => exact Chip.tt_bump c _

/-! ### Cancelling (R124) -/

section
variable {c : Chip} {id : Nat} {d : Departure} (hfind : c.tt.deps.find? (fun x => x.id == id) = some d)
include hfind

theorem Chip.cancelDep_in_time (hlead : c.tt.counter + armLead d.scope ≤ c.depTick d) :
    c.cancelDep id = (true, ({ c with tt := c.tt.dropDep d } : Chip).logDep depCancelled (c.depTick d) 0 id d) := by
  simp only [Chip.cancelDep, hfind, hlead, if_true]

theorem Chip.cancelDep_too_late (hlate : c.depTick d < c.tt.counter + armLead d.scope) :
    c.cancelDep id = (false, c.logDep depTooLate (c.depTick d) 0 id d) := by
  simp only [Chip.cancelDep, hfind, Nat.not_le.2 hlate, if_false]

end

/-- Settles O13. -/
theorem cancelNeedsTheLead : Obligations.CancelNeedsTheLead := by
  intro c id d hfind
  refine ⟨fun hlead => ?_, fun hlate => ?_⟩
  · rw [Chip.cancelDep_in_time hfind hlead]
    exact ⟨rfl, rfl⟩
  · rw [Chip.cancelDep_too_late hfind hlate]
    exact ⟨rfl, rfl, by rw [Chip.tt_logDep]⟩

end Sys2Proof.Machine
end

section
/-! The timetable's commands (04_islands_and_timetable.md R106, R112, R113, R118, R120, R132–R137; 13_bilsal_links.md R345–R347, R360, R361). -/

namespace Sys2Proof.Machine

/-! ### A codeword on a stream (R335, R345, R347) -/

/-- A field of a flit's body lies 24 bytes further on in the flit (R346). -/
theorem fieldAt_drop (b : List Byte) (k off n : Nat) : fieldAt (b.drop k) off n = fieldAt b (k + off) n := by
  rw [fieldAt, fieldAt, List.drop_drop]

section
variable {c : Chip} {l h : Nat} {flit : List Byte} {errs ftype : Nat} (eff : Chip → Chip)

theorem Chip.onFlit_unheard : c.onFlit false l h flit errs ftype eff = c := rfl

theorem Chip.onFlit_uncorrectable (hfec : fecCorrects errs = false) :
    c.onFlit true l h flit errs ftype eff = (c.bump (rLNK_FECUNC + l * 0x800)).sendNak l h := by
  simp only [Chip.onFlit, hfec, Bool.not_true, Bool.not_false, Bool.false_eq_true, if_true, if_false]

theorem Chip.onFlit_badCrc (hfec : fecCorrects errs = true) (hcrc : flitGood flit = false) :
    c.onFlit true l h flit errs ftype eff = (if errs = 0 then c else c.bump (rLNK_FECCORR + l * 0x800)).crcFailed l h := by
  simp only [Chip.onFlit, hfec, hcrc, Bool.not_true, Bool.not_false, Bool.false_eq_true, if_true, if_false]

theorem Chip.onFlit_whole (hfec : fecCorrects errs = true) (hcrc : flitGood flit = true) (hshape : flitShape flit = true)
    (htype : fieldAt flit 0 1 = ftype) :
    c.onFlit true l h flit errs ftype eff = eff (if errs = 0 then c else c.bump (rLNK_FECCORR + l * 0x800)) := by
  simp only [Chip.onFlit, hfec, hcrc, hshape, htype, ne_eq, not_true_eq_false, Bool.not_true, Bool.false_eq_true, if_false]

end

/-- The three conditions of a complete exchange (R361), of which one fails. -/
theorem exchange_not_whole {a b c a' b' : Nat} (h : a ≠ a' ∨ b ≠ b' ∨ c = 0) : (a == a' && b == b' && c != 0) = false := by
  rcases h with h | h | h <;> simp [h]

/-! ### The cold-start root (R113) -/

/-- Every half-link in the routes has stayed clear of partition time for 16 exchanges. -/
theorem Chip.clearRuns_all {c : Chip}
    (h : ∀ u ∈ c.upHalves, ∃ k ∈ c.tt.clearRun.find? (fun k => k.1 == halfKey u.1 u.2), 16 ≤ k.2) :
    (c.upHalves.all fun u => ((c.tt.clearRun.find? fun k => k.1 == halfKey u.1 u.2).map fun k => decide (16 ≤ k.2)).getD false) = true := by
  rw [List.all_eq_true]
  intro u hu
  obtain ⟨k, hk, hrun⟩ := h u hu
  rw [Option.mem_def.1 hk, Option.map_some, Option.getD_some]
  exact decide_eq_true hrun

/-! ### External sync (R135) -/

/-- A station that waits for an edge is neither off nor without external sync. -/
theorem sync_watching {st : SyncSt} (h : st = .acquire ∨ st = .track) : st ≠ .off ∧ st ≠ .freerun := by
  rcases h with rfl | rfl <;> decide

/-! ### The commands -/

/-- Settles O27. That clearing counts clears TT_LOGLOST among them is the model's choice (log entry 84). -/
theorem timetableCommandsComplete : Obligations.TimetableCommandsComplete := by
  intro o c q
  refine ⟨?timeSend, ?timeUnheard, ?timeUncorrectable, ?timeBadCrc, ?timeFirst, ?root, ?boundary, ?boundaryLater, ?settled, ?pulse,
    ?otherPulse, ?frame, ?missing, ?fourthMissing, ?nowLo, ?clear⟩
  case timeSend =>
    rintro link half sentAt c1 hhears rfl
    show execTimeFlitSend link half sentAt ⟨o, c, q⟩ = _
    rw [execTimeFlitSend, State.run_settled, hhears]
    rfl
  case timeUnheard =>
    intro link half flit errs seenAt lane hhears
    show execTimeFlitReceive link half ⟨flit, errs⟩ seenAt lane ⟨o, c, q⟩ = _
    rw [execTimeFlitReceive, State.run_settled, hhears, Chip.onFlit_unheard]
  case timeUncorrectable =>
    intro link half flit errs seenAt lane hhears hfec
    show execTimeFlitReceive link half ⟨flit, errs⟩ seenAt lane ⟨o, c, q⟩ = _
    rw [execTimeFlitReceive, State.run_settled, hhears, Chip.onFlit_uncorrectable _ hfec]
  case timeBadCrc =>
    intro link half flit errs seenAt lane hhears hfec hcrc
    show execTimeFlitReceive link half ⟨flit, errs⟩ seenAt lane ⟨o, c, q⟩ = _
    rw [execTimeFlitReceive, State.run_settled, hhears, Chip.onFlit_badCrc _ hfec hcrc]
  case timeFirst =>
    rintro link half flit errs seenAt lane c1 x hhears hfec hcrc hshape htype rfl rfl hopen
    show execTimeFlitReceive link half ⟨flit, errs⟩ seenAt lane ⟨o, c, q⟩ = _
    rw [execTimeFlitReceive, State.run_settled, hhears, Chip.onFlit_whole _ hfec hcrc hshape htype]
    simp only [fieldAt_drop, Nat.reduceAdd, exchange_not_whole hopen, Bool.not_false, if_true, Chip.now]
  case root =>
    intro hcarries hstep hgoes hup hclear hsync
    have hsome : c.upHalves.isEmpty = false := List.isEmpty_eq_false_iff.2 hup
    show execColdStartRoot ⟨o, c, q⟩ = _
    simp only [execColdStartRoot, State.run_settled, Chip.clearRuns_all hclear, hcarries, hgoes, hsome, hsync, Option.filter_some,
      beq_self_eq_true, Bool.true_or, if_true, decide_eq_false (Nat.not_lt.2 hstep), Bool.not_true, Bool.or_self, Bool.false_eq_true,
      if_false]
  case boundary =>
    intro readBack stretch hnext
    show execTurnBoundary ⟨readBack, stretch⟩ ⟨o, c, q⟩ = _
    simp only [execTurnBoundary, State.run_settled, hnext, if_true]
  case boundaryLater =>
    intro readBack stretch hnext
    show execTurnBoundary ⟨readBack, stretch⟩ ⟨o, c, q⟩ = _
    simp only [execTurnBoundary, State.run_settled, hnext, Bool.false_eq_true, if_false]
  case settled => exact fun isl => rfl
  case pulse =>
    intro tick high hmode hon hlong hshort
    show execSyncPpsEdge tick high ⟨o, c, q⟩ = _
    simp only [execSyncPpsEdge, State.run_settled, hmode, hon, tUs, tMs, hlong, hshort, ne_eq, not_true_eq_false, or_self, if_false,
      Nat.reduceMul, and_self, if_true]
  case otherPulse =>
    intro tick high hmode hon hlength
    have hother : ¬ (16000 ≤ high ∧ high ≤ 3200000000) := by omega
    show execSyncPpsEdge tick high ⟨o, c, q⟩ = _
    simp only [execSyncPpsEdge, State.run_settled, hmode, hon, tUs, tMs, hother, ne_eq, not_true_eq_false, or_self, if_false,
      Nat.reduceMul]
  case frame =>
    rintro tick frame c1 hmode hon hlen hstart hcrc rfl
    show execSyncCodeFrame tick frame ⟨o, c, q⟩ = _
    simp only [execSyncCodeFrame, State.run_settled, hmode, hon, hlen, hstart, hcrc, Nat.reduceBEq, ne_eq, not_true_eq_false, or_self,
      if_false, and_self, if_true]
  case missing =>
    intro hmode hwatch hfew
    obtain ⟨hon, hheld⟩ := sync_watching hwatch
    have hgoes : ¬ 4 ≤ c.tt.sync.missing + 1 := by omega
    show execSyncIntervalMissing ⟨o, c, q⟩ = _
    simp only [execSyncIntervalMissing, State.run_settled, hmode, hon, hheld, hgoes, or_self, if_false]
  case fourthMissing =>
    intro hmode hwatch hthree
    obtain ⟨hon, hheld⟩ := sync_watching hwatch
    have hfourth : 4 ≤ c.tt.sync.missing + 1 := by omega
    show execSyncIntervalMissing ⟨o, c, q⟩ = _
    simp only [execSyncIntervalMissing, State.run_settled, hmode, hon, hheld, hfourth, or_self, if_false, if_true]
  case nowLo => rfl
  case clear =>
    intro value hbit
    show execTtCntclr value ⟨o, c, q⟩ = _
    simp only [execTtCntclr, State.run_settled, Chip.clearTtCounts, hbit, if_true, List.foldl_cons, List.foldl_nil]

end Sys2Proof.Machine
end

section
/-! The departure actions (04_islands_and_timetable.md R106, R118, R122, R125, R126, R130, R131; 09_rings.md R254;
10_dispatch_and_switching.md R275; 12_generate_and_learn.md R332; 14_collectives.md R380; 19_power_states.md R486). -/

namespace Sys2Proof.Machine

/-! ### What each action does at its edge -/

section
variable {c : Chip} {d : Departure}

/-- A WEIGHT_SWITCH of a permitted operation, with its reserved bits 0, on a channel that this package belongs to (R332). -/
theorem Chip.weightEdge_good {ch : TrnChan} (hch : c.trnChan (bitsOf d.arg 7 4) = some ch)
    (hmember : ch.member c.pkg = true ∨ c.pkg = ch.srcPkg) (hzero : bitsOf d.arg 31 8 = 0) (hlow : 1 ≤ switchOp d)
    (hhigh : switchOp d ≤ 3) :
    c.weightEdge d =
      if switchOp d = 2 then c.commitEdge (bitsOf d.arg 7 4) (d.arg / 2 ^ 32)
      else if switchOp d = 3 then c.abortEdge (bitsOf d.arg 7 4) (d.arg / 2 ^ 32)
      else c.stageEdge (bitsOf d.arg 7 4) (d.arg / 2 ^ 32) d.scope := by
  have hours : (ch.member c.pkg || c.pkg == ch.srcPkg) = true := by simpa using hmember
  simp only [Chip.weightEdge, Chip.weightSwitch, hch, hours, hzero, decide_eq_true hlow, decide_eq_true hhigh, Bool.not_true,
    Bool.and_self, Bool.false_eq_true, ne_eq, not_true_eq_false, or_self, if_false]

theorem Chip.launchEdge_armed {e : Nat × ColDesc × Bool} (h : c.col.armed.find? (fun e => e.1 == d.id) = some e) :
    c.launchEdge d = c.launch e.2.1 e.2.2 := by
  simp only [Chip.launchEdge, h]

theorem Chip.postEdge_good {k : Task} (h : c.checkPost d = .good k) :
    c.postEdge d = (c.touch (postOff d) 128).postTask (c.postScope d) k := by
  simp only [Chip.postEdge, h]

theorem Chip.doorbellEdge_hold (harg : d.arg < 2 ^ 14) (hhold : c.ringHold d.arg = true) :
    c.doorbellEdge d = c.releaseHeld d.arg (if (c.ringProd d.arg).testBit 2 then .host else .network) := by
  have hring : bitsOf d.arg 13 0 = d.arg := Nat.mod_eq_of_lt harg
  simp only [Chip.doorbellEdge, hring, Nat.div_eq_of_lt harg, hhold, ne_eq, not_true_eq_false, Bool.not_true, Bool.false_eq_true, or_self,
    if_false]

theorem Chip.clockEdge_ok {o : Otp} (isl : List Nat) (h : mhzOk o d.arg = true) :
    c.clockEdge o d isl = isl.foldl (fun c i => c.setMhz i d.arg) c := by
  simp only [Chip.clockEdge, h, Bool.not_true, Bool.false_eq_true, if_false]

end

section
variable {o : Otp} {c : Chip} {scope : Nat} {isl : List Nat}

theorem Chip.islandState_open (hisl : c.stateIslands o scope 1 = some isl) (hruns : c.halted = false) :
    c.islandState o scope 1 = isl.foldl Chip.openIsland (if scope = 0 then c.wakeP2 4 else c) := by
  simp only [Chip.islandState, hisl, hruns, Bool.false_eq_true, if_false, if_true]

theorem Chip.islandState_close (hisl : c.stateIslands o scope 2 = some isl) (hruns : c.halted = false) :
    c.islandState o scope 2 =
      isl.foldl (fun c n => if isDieIsland n && c.sidingsHold (n - 12) then c.notice 487 n else c.closeIsland n) c := by
  simp only [Chip.islandState, hisl, hruns, Bool.false_eq_true, if_false, if_true, OfNat.ofNat_ne_one]

/-- ENTER_P2 and ENTER_P3 name no island and are the package's (R486). -/
theorem Chip.islandState_enter {op : Nat} (hop : op = 3 ∨ op = 4) (hruns : c.halted = false) :
    c.islandState o 0 op = c.enterPower op := by
  rcases hop with rfl | rfl <;>
    simp only [Chip.islandState, Chip.stateIslands, hruns, Nat.reduceEqDiff, or_self, or_true, true_or, and_self,
      Bool.false_eq_true, if_false, if_true]

end

/-! ### The commands -/

section
variable {o : Otp} {c : Chip} {q : List Instr} {i : Instr} {d : Departure} {t : Nat} {isIt : Departure → Bool}
  {eff : Departure → List Nat → Chip → Chip} {drops : Departure → Chip → Bool} {c' : Chip}

/-- A command that fires the next departure completes with the departure's effect when that one is its own and fires on time. -/
theorem Fires.completes (h : Fires c d t) (hexec : exec i ⟨o, c, q⟩ = .next (State.settled ⟨o, c, q⟩ (c.fireDep isIt eff drops)))
    (hisIt : isIt d = true) (hkept : drops d (c.atFiring d t) = false) (heff : eff d (depIslands d) (c.fired d t) = c') :
    Completes i ⟨o, c, q⟩ c' := by
  rw [Completes, hexec, h.fireDep isIt eff drops hisIt hkept, heff]

end

/-- Settles O28. That the period of a TURN_SET away from a boundary waits for the next one is the model's choice (log entry 21). -/
theorem departuresComplete : Obligations.DeparturesComplete := by
  intro o c q
  refine ⟨?logMark, ?snapshot, ?wearSample, ?syncAdjust, ?turnSet, ?amendCommit, ?stage, ?commit, ?abort, ?launch, ?post, ?doorbell,
    ?openIslands, ?closeIslands, ?enterP2, ?enterP3, ?clockSet⟩
  case logMark => exact fun d t hfires haction => hfires.completes rfl (by simp [haction]) rfl rfl
  case snapshot =>
    intro d t hfires haction harg
    exact hfires.completes rfl (by simp [haction, harg]) rfl (if_pos harg)
  case wearSample =>
    intro obs d t hfires haction harg hruns
    exact hfires.completes rfl (by simp [haction, harg]) rfl (if_pos hruns)
  case syncAdjust => exact fun d t hfires haction => hfires.completes rfl (by simp [haction]) rfl rfl
  case turnSet => exact fun d t hfires haction => hfires.completes rfl (by simp [haction]) rfl rfl
  case amendCommit => exact fun d t hfires haction => hfires.completes rfl (by simp [haction]) rfl rfl
  case stage =>
    intro d t ch hfires haction hop hch hmember hzero
    refine hfires.completes rfl (by simp [haction, hop]) rfl ?_
    rw [Chip.weightEdge_good hch hmember hzero (by omega) (by omega), if_neg (by omega), if_neg (by omega)]
  case commit =>
    intro d t ch hfires haction hop hch hmember hzero
    refine hfires.completes rfl (by simp [haction, hop]) rfl ?_
    rw [Chip.weightEdge_good hch hmember hzero (by omega) (by omega), if_pos hop]
  case abort =>
    intro d t ch hfires haction hop hch hmember hzero
    refine hfires.completes rfl (by simp [haction, hop]) rfl ?_
    rw [Chip.weightEdge_good hch hmember hzero (by omega) (by omega), if_neg (by omega), if_pos hop]
  case launch =>
    intro d t e hfires haction harmed
    exact hfires.completes rfl (by simp [haction]) rfl (Chip.launchEdge_armed harmed)
  case post =>
    intro d t k hfires haction hreadable hgood
    exact hfires.completes rfl (by simp [haction]) hreadable (Chip.postEdge_good hgood)
  case doorbell =>
    intro d t hfires haction harg hhold
    exact hfires.completes rfl (by simp [haction]) rfl (Chip.doorbellEdge_hold harg hhold)
  case openIslands =>
    intro d t isl hfires haction harg hisl hruns
    refine hfires.completes rfl (by simp [haction, harg]) rfl ?_
    rw [harg, Chip.islandState_open hisl hruns]
  case closeIslands =>
    intro d t isl hfires haction harg hisl hruns
    refine hfires.completes rfl (by simp [haction, harg]) rfl ?_
    rw [harg, Chip.islandState_close hisl hruns]
  case enterP2 =>
    intro d t hfires haction harg hscope hruns
    refine hfires.completes rfl (by simp [haction, harg]) rfl ?_
    rw [harg, hscope, Chip.islandState_enter (.inl rfl) hruns]
  case enterP3 =>
    intro d t hfires haction harg hscope hruns
    refine hfires.completes rfl (by simp [haction, harg]) rfl ?_
    rw [harg, hscope, Chip.islandState_enter (.inr rfl) hruns]
  case clockSet =>
    intro d t hfires haction hmhz
    exact hfires.completes rfl (by simp [haction]) rfl (Chip.clockEdge_ok _ hmhz)

end Sys2Proof.Machine
end

section
/-! The vector, conversion and special-function operations (05_cells.md R149, R155–R159, R592; 06_cell_operations.md R172, R179,
R180, R591). -/

namespace Sys2Proof.Machine

/-! ### How an operation that issues completes (R149, R170) -/

/-- An operation that sets no flag leaves the flags of the thread and of its cell (R149). -/
@[simp] theorem Chip.setFlags_zero (c : Chip) (cell thread : Nat) : c.setFlags cell thread 0 = c := by simp [Chip.setFlags]

section
variable {s : State} {cell thread : Fin 64} {w op : Nat} {p : PartState} {t : Thread} {i : Instr}

/-- An operation that issues completes with its meaning. -/
theorem Issues.completes {k : PartState → Thread → Chip → Chip} {c' : Chip} (h : Issues s.chip cell thread w p t)
    (hexec : exec i s = .next (s.settled (s.chip.issue cell thread w op k))) (hop : wOp w = op) (hk : k p t s.chip = c') :
    Completes i s c' := by
  rw [Completes, hexec, h.issue hop, hk]

/-- A lane operation writes v[D] and sets its flags. -/
theorem Issues.completes_lanes {f : Thread → List FpRes} {r : List FpRes} (h : Issues s.chip cell thread w p t)
    (hexec : exec i s = .next (s.settled (s.chip.lanes cell thread w op f))) (hop : wOp w = op) (hr : f t = r) :
    Completes i s ((s.chip.setThread cell thread fun x => (x.setV (wD w) (r.map (·.bits))).step).setFlags cell thread
      (orFlags (r.map (·.flags)))) := by
  subst hr
  exact h.completes hexec hop rfl

/-- A change of the thread that issues is all that happens. -/
theorem Issues.threadStep {f : Thread → Thread} (h : Issues s.chip cell thread w p t)
    (hdone : Completes i s (s.chip.setThread cell thread f)) : ThreadStep i s cell thread (f t) :=
  .ofSetThread hdone h.part h.thread rfl

/-- A lane operation that sets no flag writes v[D] and changes nothing else. -/
theorem Issues.threadStep_lanesQuiet {f : Thread → List Word} {r : List Word} (h : Issues s.chip cell thread w p t)
    (hexec : exec i s = .next (s.settled (s.chip.lanesQuiet cell thread w op f))) (hop : wOp w = op) (hr : f t = r) :
    ThreadStep i s cell thread (t.setV (wD w) r).step := by
  subst hr
  exact h.threadStep (f := fun _ => (t.setV (wD w) (f t)).step) (h.completes hexec hop rfl)

end

/-! ### The commands -/

/-- Settles O25. Which bits SFN returns inside the bounds of R156 is the model's choice (log entry 7). -/
theorem vectorOperationsComplete : Obligations.VectorOperationsComplete := by
  rintro s cell thread word p t w lanes h rfl rfl
  refine ⟨?vadd, ?vsub, ?vmul, ?vfma, ?vmin, ?vmax, ?vcmp, ?vsel, ?vbcast, ?vredSum, ?vredMax, ?vredMin, ?vcvtPack, ?vcvtUnpack,
    ?sfn, ?roph, ?dice, ?vcvts⟩
  case vadd =>
    intro hop hx
    exact h.completes_lanes rfl hop (by simp only [hx, zero_ne_one, if_false])
  case vsub =>
    intro hop hx
    exact h.completes_lanes rfl hop (by simp only [hx, if_true])
  case vmul => exact fun hop => h.completes_lanes rfl hop rfl
  case vfma => exact fun hop => h.completes_lanes rfl hop rfl
  case vmin => exact fun hop => h.threadStep_lanesQuiet rfl hop rfl
  case vmax => exact fun hop => h.threadStep_lanesQuiet rfl hop rfl
  case vcmp => exact fun hop => h.threadStep_lanesQuiet rfl hop rfl
  case vsel => exact fun hop => h.threadStep_lanesQuiet rfl hop rfl
  case vbcast => exact fun hop => h.threadStep_lanesQuiet rfl hop rfl
  case vredSum =>
    rintro q hop hx rfl
    exact h.completes rfl hop (by simp only [hx])
  case vredMax =>
    intro hop hx
    exact h.threadStep (f := fun x => (x.setS _ _).step) (h.completes rfl hop (by simp only [hx, Chip.setFlags_zero]))
  case vredMin =>
    intro hop hx
    exact h.threadStep (f := fun x => (x.setS _ _).step) (h.completes rfl hop (by simp only [hx, Chip.setFlags_zero]))
  case vcvtPack =>
    rintro f r hop hfmt hy rfl
    exact h.completes rfl hop (by simp only [hfmt, hy, if_true])
  case vcvtUnpack =>
    intro f hop hfmt hy
    exact h.completes rfl hop (by simp only [hfmt, hy, one_ne_zero, if_false])
  case sfn => exact fun hop => h.completes_lanes rfl hop rfl
  case roph => exact fun hop => h.completes_lanes rfl hop rfl
  case dice => exact fun hop => h.threadStep_lanesQuiet rfl hop rfl
  case vcvts =>
    rintro f d r hop hfmt rfl rfl
    exact h.completes rfl hop (by simp only [hfmt])

end Sys2Proof.Machine
end

section
/-! How an operation that issues changes its thread, or its part (06_cell_operations.md R168, R170). -/

namespace Sys2Proof.Machine

section
variable {s : State} {cell thread : Fin 64} {w op : Nat} {p : PartState} {t : Thread} {i : Instr}

theorem Issues.partAt (h : Issues s.chip cell thread w p t) : s.chip.partAt cell = some p := h.part

/-- The thread that issues is the one that a look at its cell finds. -/
theorem Issues.thread? (h : Issues s.chip cell thread w p t) : s.chip.thread? cell thread = some t := by
  rw [Chip.thread?, h.partAt, Option.bind_some, h.thread]

/-- An operation that only changes its thread does that and goes on to the next word. -/
theorem Issues.threadStep_issueT {f : PartState → Thread → Thread} {x : Thread} (h : Issues s.chip cell thread w p t)
    (hexec : exec i s = .next (s.settled (s.chip.issueT cell thread w op f))) (hop : wOp w = op) (hx : f p t = x) :
    ThreadStep i s cell thread x.step := by
  subst hx
  exact h.threadStep (f := fun _ => (f p t).step) (h.completes hexec hop rfl)

/-- An operation whose meaning comes to a change of its thread changes nothing else. -/
theorem Issues.threadStep_of_meaning {k : PartState → Thread → Chip → Chip} {f : Thread → Thread} {x : Thread}
    (h : Issues s.chip cell thread w p t) (hexec : exec i s = .next (s.settled (s.chip.issue cell thread w op k))) (hop : wOp w = op)
    (hk : k p t s.chip = s.chip.setThread cell thread f) (hx : f t = x) : ThreadStep i s cell thread x := by
  subst hx
  exact h.threadStep (h.completes hexec hop hk)

/-- An operation that changes its part, but none of its threads, and moves its own thread on, changes nothing else. -/
theorem Issues.partStep_moved {k : PartState → Thread → Chip → Chip} {f : PartState → PartState} {x : PartState}
    (h : Issues s.chip cell thread w p t) (hexec : exec i s = .next (s.settled (s.chip.issue cell thread w op k))) (hop : wOp w = op)
    (hk : k p t s.chip = (s.chip.setPart cell f).setThread cell thread Thread.step) (hx : f p = x) (hthreads : x.threads = p.threads) :
    PartStep i s cell { x with threads := p.threads.set thread t.step } := by
  subst hx
  rw [Chip.setThread, Chip.setPart_setPart] at hk
  refine .ofSetPart (h.completes hexec hop hk) h.part ?_
  rw [hthreads, setAt_eq_set Thread.step h.thread]

end

end Sys2Proof.Machine
end

section
/-! The scalar operations of a cell thread (06_cell_operations.md R168, R170, R172–R174, R191). -/

namespace Sys2Proof.Machine

/-- Settles O16. -/
theorem scalarOperationsComplete : Obligations.ScalarOperationsComplete := by
  intro s cell thread word p t h
  refine ⟨?nop, ?sli, ?salu, ?scmp, ?br, ?flgrd, ?tnow⟩
  case nop => exact fun hop => h.threadStep_issueT rfl hop rfl
  case sli => exact fun hop => h.threadStep_issueT rfl hop rfl
  case salu => exact fun hop => h.threadStep_issueT rfl hop rfl
  case scmp => exact fun hop => h.threadStep_issueT rfl hop rfl
  case br => exact fun hop => h.threadStep_of_meaning rfl hop rfl rfl
  case flgrd => exact fun hop => h.threadStep_issueT rfl hop rfl
  case tnow =>
    intro hop
    refine h.threadStep_issueT rfl hop ?_
    generalize wX word.toNat = x
    match x with
    | 0 | 1 | 2 | _ + 3 => rfl

end Sys2Proof.Machine
end

section
/-! The operations of a cell thread that can wait (06_cell_operations.md R172, R174, R183, R184, R191, R192). -/

namespace Sys2Proof.Machine

/-! ### The end of a thread (R189, R192) -/

/-- A thread with no failed transfer and no handle in use ends. -/
theorem Chip.endThread_clean {c : Chip} {cell thread : Nat} {t : Thread} (finish : Chip → Chip) (hthread : c.thread? cell thread = some t)
    (hfailed : t.failed = 0) (hresv : ∀ h ∈ t.resv, h = none) (htakes : ∀ h ∈ t.takes, h = none) :
    c.endThread cell thread finish = finish ((c.setThread cell thread fun t => { t with st := .ended }).barCheck cell 8) := by
  have hheld : (t.resv.any Option.isSome || t.takes.any Option.isSome) = false := by
    simpa [List.any_eq_false] using ⟨hresv, htakes⟩
  simp only [Chip.endThread, hthread, hfailed, hheld, ne_eq, not_true_eq_false, Bool.false_eq_true, if_false]

/-- A BAR of one of the four barriers, for some of the part's threads (R184). -/
theorem bar_legal {x n threads : Nat} (hx : x ≤ 3) (hn : 0 < n) (hthreads : n ≤ threads) :
    x % 4 = x ∧ ¬ (n = 0 ∨ threads < n) := by omega

/-! ### The commands -/

/-- Settles O17. That the count of the first arriver releases a barrier is the model's choice (log entry 13). -/
theorem waitingOperationsComplete : Obligations.WaitingOperationsComplete := by
  refine ⟨?issued, ?woken⟩
  case issued =>
    intro s cell thread word p t h
    refine ⟨?flagsClear, ?flagsTrap, ?fencePasses, ?fenceWaits, ?tickPassed, ?tickWaits, ?boundaryWaits, ?barReleases, ?barWaits,
      ?ends, ?endWaits⟩
    case flagsClear => exact fun hop hclear => h.threadStep_of_meaning rfl hop (if_neg (not_not_intro hclear)) rfl
    case flagsTrap => exact fun hop hraised => h.completes rfl hop (if_pos hraised)
    case fencePasses =>
      exact fun hop hpass => h.threadStep_of_meaning rfl hop (if_pos (hpass.imp_right List.isEmpty_iff.2)) rfl
    case fenceWaits =>
      intro hop hwide hbusy
      exact h.threadStep_of_meaning rfl hop (if_neg (not_or_intro hwide (mt List.isEmpty_iff.1 hbusy))) rfl
    case tickPassed =>
      exact fun hop hx hpassed => h.threadStep_of_meaning rfl hop ((if_pos hx).trans (if_pos hpassed)) rfl
    case tickWaits =>
      exact fun hop hx hahead => h.threadStep_of_meaning rfl hop ((if_pos hx).trans (if_neg (Nat.not_le.2 hahead))) rfl
    case boundaryWaits =>
      exact fun hop hx => h.threadStep_of_meaning rfl hop (if_neg (by omega)) rfl
    case barReleases =>
      rintro b hop hx himm hthreads rfl hlast
      refine h.completes rfl hop ?_
      obtain ⟨hbar, hcount⟩ := bar_legal hx himm hthreads
      simp only [hbar, hcount, if_false, List.isEmpty_iff, List.length_append, List.length_singleton, hlast, if_true]
    case barWaits =>
      rintro b hop hx himm hthreads rfl hfew
      refine h.completes rfl hop ?_
      obtain ⟨hbar, hcount⟩ := bar_legal hx himm hthreads
      simp only [hbar, hcount, if_false, List.isEmpty_iff, List.length_append, List.length_singleton, Nat.not_le.2 hfew]
    case ends =>
      intro hop hidle hfailed hresv htakes
      refine h.completes rfl hop ?_
      rw [if_pos (List.isEmpty_iff.2 hidle), Chip.endThread_clean _ h.thread? hfailed hresv htakes]
    case endWaits =>
      exact fun hop hbusy => h.threadStep_of_meaning rfl hop (if_neg (mt List.isEmpty_iff.1 hbusy)) rfl
  case woken =>
    intro s cell thread t hthread hruns hopen
    have hserved : ¬ ((s.chip.cell cell).st ≠ .run ∨ (!s.chip.islOpen (cellIsland cell)) = true) := by simp [hruns, hopen]
    refine ⟨fun tick hst => ?_, fun turn hst hturn => ?_⟩
    · show execDwaitWake cell thread s = _
      simp only [execDwaitWake, State.run_settled, hthread, hserved, if_false, hst]
    · show execDwaitWake cell thread s = _
      simp only [execDwaitWake, State.run_settled, hthread, hserved, if_false, hst, hturn]

end Sys2Proof.Machine
end

section
/-! The loads and stores of the cell store (05_cells.md R150, R152; 06_cell_operations.md R181). -/

namespace Sys2Proof.Machine

/-! ### An access to the cell store (R152, R181) -/

@[simp] theorem Chip.storeEcc_none (c : Chip) (n line : Nat) : c.storeEcc n 0 line = c := rfl

section
variable {c : Chip} {cell thread off n align : Nat}

/-- A read that leaves the store takes BOUNDS. -/
theorem Chip.storeRead_outside {obs line : Nat} {k : List Byte → Chip → Chip} (hout : cellStoreBytes < off + n) :
    c.storeRead cell thread off n align obs line k = c.except cell thread excBounds 0 off := by
  simp only [Chip.storeRead, inStore, decide_eq_false (Nat.not_le.2 hout), Bool.not_false, if_true]

section
variable (hin : off + n ≤ cellStoreBytes)
include hin

/-- A misaligned read inside the store takes ALIGN. -/
theorem Chip.storeRead_misaligned {obs line : Nat} {k : List Byte → Chip → Chip} (halign : off % align ≠ 0) :
    c.storeRead cell thread off n align obs line k = c.except cell thread excAlign 0 off := by
  simp only [Chip.storeRead, inStore, decide_eq_true hin, Bool.not_true, Bool.false_eq_true, if_false, halign, ne_eq,
    not_false_eq_true, if_true]

section
variable {obs line : Nat} {k : List Byte → Chip → Chip} {p : PartState} (halign : off % align = 0)
  (hpart : (c.storeEcc cell obs (pickLine (unitsOf off n) line)).partAt cell = some p)
include halign hpart

/-- A read that meets poison, be it of its own ECC check, takes POISON. -/
theorem Chip.storeRead_poisoned (hbad : p.bad off n = true) :
    c.storeRead cell thread off n align obs line k =
      (c.storeEcc cell obs (pickLine (unitsOf off n) line)).except cell thread excStorePoison 0 off := by
  simp only [Chip.storeRead, inStore, decide_eq_true hin, Bool.not_true, Bool.false_eq_true, if_false, halign, ne_eq,
    not_true_eq_false, hpart, hbad, if_true]

/-- Any other read goes on with its bytes, on the package after the check has counted. -/
theorem Chip.storeRead_clean (hbad : p.bad off n = false) :
    c.storeRead cell thread off n align obs line k = k (p.load off n) (c.storeEcc cell obs (pickLine (unitsOf off n) line)) := by
  simp only [Chip.storeRead, inStore, decide_eq_true hin, Bool.not_true, Bool.false_eq_true, if_false, halign, ne_eq,
    not_true_eq_false, hpart, hbad]

end
end

/-- An aligned write inside the store puts its bytes there and moves its thread on. -/
theorem Chip.storeWrite_good {bs : List Byte} (hin : off + bs.length ≤ cellStoreBytes) (halign : off % align = 0) :
    c.storeWrite cell thread off align bs = (c.setPart cell fun p => p.put off bs).setThread cell thread Thread.step := by
  simp only [Chip.storeWrite, inStore, decide_eq_true hin, Bool.not_true, Bool.false_eq_true, if_false, halign, ne_eq,
    not_true_eq_false]

end

theorem length_bytesOfLanes (v : List Word) : (bytesOfLanes v).length = 4 * v.length := by
  simp only [bytesOfLanes, List.length_flatMap, length_leBytes, List.map_const', List.sum_replicate, smul_eq_mul, Nat.mul_comm]

/-! ### The commands -/

/-- Settles O22. -/
theorem cellStoreOperationsComplete : Obligations.CellStoreOperationsComplete := by
  rintro s cell thread word p t w off line h rfl rfl
  refine ⟨?lds, ?ldsPoison, ?ldsBounds, ?ldsAlign, ?ldsEcc, ?ldvEcc, ?sts, ?ldv, ?stv⟩
  case lds =>
    intro hop hin halign hbad
    exact h.threadStep_of_meaning rfl hop (Chip.storeRead_clean hin halign h.partAt hbad) rfl
  case ldsPoison =>
    exact fun hop hin halign hbad => h.completes rfl hop (Chip.storeRead_poisoned hin halign h.partAt hbad)
  case ldsBounds => exact fun hop hout ecc => h.completes rfl hop (Chip.storeRead_outside hout)
  case ldsAlign => exact fun hop hin halign ecc => h.completes rfl hop (Chip.storeRead_misaligned hin halign)
  case ldsEcc =>
    rintro ecc c1 p1 hop hin halign rfl hpart hbad
    exact h.completes rfl hop (Chip.storeRead_clean hin halign hpart hbad)
  case ldvEcc =>
    rintro ecc c1 p1 hop hin halign rfl hpart hbad
    exact h.completes rfl hop (Chip.storeRead_clean hin halign hpart hbad)
  case sts =>
    intro hop hin halign
    exact h.partStep_moved rfl hop (Chip.storeWrite_good (by rwa [length_leBytes]) halign) rfl rfl
  case ldv =>
    intro hop hin halign hbad
    exact h.threadStep_of_meaning rfl hop (Chip.storeRead_clean hin halign h.partAt hbad) rfl
  case stv =>
    intro hop hlanes hin halign
    exact h.partStep_moved rfl hop (Chip.storeWrite_good (by rwa [length_bytesOfLanes, hlanes]) halign) rfl rfl

end Sys2Proof.Machine
end

section
/-! The MAC operations (05_cells.md R141–R143, R148, R149, R153, R154; 06_cell_operations.md R176–R178). -/

namespace Sys2Proof.Machine

/-! ### The rows that ACCST writes (R153, R154, R178) -/

theorem rowBytes_plain {f : ElemFmt} (hplain : f.isMx = false) (row : List Word) :
    rowBytes f row =
      (packElems f ((row.map (convPlain f .nearest)).map (·.bits)), none, orFlags ((row.map (convPlain f .nearest)).map (·.flags))) := by
  simp only [rowBytes, hplain, Bool.false_eq_true, if_false]

theorem rowBytes_mx {f : ElemFmt} (hmx : f.isMx = true) (row : List Word) :
    rowBytes f row = (packElems f (convMx f (fun _ => .nearest) row).elems, some (convMx f (fun _ => .nearest) row).scale,
      (convMx f (fun _ => .nearest) row).flags) := by
  simp only [rowBytes, hmx, if_true]

/-- Changes of a part that agree on every row of a list come to the same part. -/
theorem Chip.setPart_foldl_congr {c : Chip} {n : Nat} {rows : List Nat} {f g : PartState → Nat → PartState}
    (h : ∀ q, ∀ r ∈ rows, f q r = g q r) : (c.setPart n fun q => rows.foldl f q) = c.setPart n fun q => rows.foldl g q := by
  rw [funext fun q => List.foldl_ext f g q h]

/-- What stands at a place of a list that a map made. -/
theorem getD_map_range {α : Type} {n r : Nat} (hr : r < n) (f : Nat → α) (d : α) : ((List.range n).map f).getD r d = f r := by
  simp [hr]

/-- Regions that all lie in the store pass its bounds check (R176, R178). -/
theorem any_outside_eq_false {α : Type} {l : List α} {off len : α → Nat} (h : ∀ x ∈ l, off x + len x ≤ cellStoreBytes) :
    (l.any fun x => !inStore (off x) (len x)) = false := by
  simpa [List.any_eq_false, inStore] using h

/-! ### The commands -/

/-- Settles O24. -/
theorem macOperationsComplete : Obligations.MacOperationsComplete := by
  rintro s cell thread word p t w line h rfl
  refine ⟨?stage, ?mma, ?accrd, ?accwr, ?accstPlain, ?accstMx⟩
  case stage =>
    rintro f reg hop hfmt rfl hreg
    refine h.partStep_moved (f := fun p' => { p' with stage := p'.stage.set _ (some _) }) rfl hop ?_ rfl rfl
    have hin := any_outside_eq_false fun e he => (hreg e he).1
    have hclean := List.any_eq_false.2 fun e he => Bool.eq_false_iff.1 (hreg e he).2
    simp only [hfmt, hin, Bool.false_eq_true, if_false, Fin.coe_ofNat_eq_mod, Nat.zero_mod, Chip.storeEcc_none, h.partAt, hclean]
  case mma =>
    rintro slots r hop hslots rfl
    exact h.completes rfl hop (by simp only [hslots])
  case accrd => exact fun hop => h.threadStep_issueT rfl hop rfl
  case accwr =>
    intro hop
    refine h.threadStep_issueT rfl hop ?_
    show t.setTile _ ([0, 1, 2, 3].flatMap _) = _
    simp only [List.flatMap_cons, List.flatMap_nil, List.append_nil, List.append_assoc, Nat.add_zero]
  case accstPlain =>
    rintro f offs rows hop hfmt hplain rfl hin rfl
    refine h.completes rfl hop ?_
    have hrows := any_outside_eq_false hin
    simp only [hfmt, hrows, hplain, Bool.false_and, Bool.or_self, Bool.false_eq_true, if_false]
    refine congrArg (fun c : Chip => (c.setThread cell thread Thread.step).setFlags cell thread _)
      (Chip.setPart_foldl_congr fun q r hr => ?_)
    simp only [getD_map_range (List.mem_range.1 hr), rowBytes_plain hplain]
  case accstMx =>
    rintro f offs rows hop hfmt hmx rfl hin hscales rfl
    refine h.completes rfl hop ?_
    have hrows := any_outside_eq_false hin
    have hbytes := any_outside_eq_false fun r hr => hscales r (List.mem_range.1 hr)
    simp only [hfmt, hrows, hbytes, Bool.and_false, Bool.or_self, Bool.false_eq_true, if_false, rowBytes_mx hmx, List.map_map,
      Function.comp_def]
    refine congrArg (fun c : Chip => (c.setThread cell thread Thread.step).setFlags cell thread _)
      (Chip.setPart_foldl_congr fun q r hr => ?_)
    simp only [getD_map_range (List.mem_range.1 hr)]

end Sys2Proof.Machine
end

section
/-! The ring operations of a cell thread, and the threads that wait at a ring (06_cell_operations.md R185–R189; 09_rings.md R241–R243,
R246, R247, R258). -/

namespace Sys2Proof.Machine

/-! ### A waiting thread is served (R187, R242, R246) -/

/-- Settles O20. That a request leaves its queue does not change its thread. -/
theorem ringWaitsComplete : Obligations.RingWaitsComplete := by
  intro s ring
  refine ⟨fun q cell thread t hfirst hwho hthread => ?_, fun q t hfirst hthread => ?_⟩
  · have hkept : (s.chip.setRing ring.toNat fun x => { x with waitRes := x.waitRes.erase q }).thread? cell thread = some t := hthread
    refine ⟨fun hopen hgrant => ?granted, fun hclosed => ?closed⟩
    case granted =>
      show execRresWaitGrant ring s = _
      simp only [execRresWaitGrant, State.run_settled, hfirst, hwho, hkept, hopen, hgrant, decide_false, Bool.or_true, Bool.not_true,
        Bool.false_eq_true, if_false]
    case closed =>
      show execRresWaitGrant ring s = _
      simp only [execRresWaitGrant, State.run_settled, hfirst, hwho, hkept, hclosed, decide_true, Bool.true_or, Bool.not_true,
        Bool.false_eq_true, if_false, if_true]
  · refine ⟨fun c hopen hdelivered => ?delivered, fun hclosed => ?closed⟩
    case delivered =>
      show execRtakeWaitDeliver ring s = _
      simp only [execRtakeWaitDeliver, State.run_settled, hfirst, hthread, hopen, if_false, hdelivered]
    case closed =>
      show execRtakeWaitDeliver ring s = _
      simp only [execRtakeWaitDeliver, State.run_settled, hfirst, hthread, hclosed, if_true]

/-! ### The words of a thread (R185–R189) -/

@[simp] theorem Chip.storeEcc_pkg (c : Chip) (n obs line : Nat) : (c.storeEcc n obs line).pkg = c.pkg := by
  unfold Chip.storeEcc
  split <;> rfl

/-- Settles O19. That the other bits of a FULL or EMPTY status are free is the model's choice (log entry 15). -/
theorem cellRingOperationsComplete : Obligations.CellRingOperationsComplete := by
  rintro s cell thread word p t w r n h rfl
  refine ⟨?rres, ?rwr, ?rwrVoided, ?rcom, ?rtake, ?rmile, ?rdone⟩
  case rres =>
    rintro hop hfree hform hring hhere hmay hopen rfl hsize
    have hslot : (freeHandle t.resv).isNone = false := Option.isNone_eq_false_iff.2 hfree
    have hserved : Completes (.rres cell thread word) s (if s.chip.canGrant r (wImm word.toNat) = true
        then s.chip.grantTo cell thread (wD word.toNat) r (wImm word.toNat)
        else if wNw word.toNat = true then s.chip.bareStatus cell thread (wD word.toNat) stFull
        else (s.chip.setRing r fun x => { x with waitRes := x.waitRes ++ [⟨.cell cell thread, wImm word.toNat⟩] }).setThread cell thread
          fun t' => { t' with st := .waitRes r, word := word.toNat }) :=
      h.completes rfl hop (by
        simp only [hslot, hform, hring, hhere, hmay, hopen, Nat.not_lt.2 hsize, Bool.not_true, Bool.false_eq_true, if_false])
    refine ⟨fun hgrant => ?granted, fun hfull hnw => ?full, fun hfull hnw => ?waits⟩
    case granted => simpa only [hgrant, if_true] using hserved
    case full => simpa only [hfull, hnw, Bool.false_eq_true, if_false, if_true] using hserved
    case waits => simpa only [hfull, hnw, Bool.false_eq_true, if_false] using hserved
  case rwr =>
    rintro k i ecc line c1 p1 hop hresv hhere hwords hfits hin rfl hpart hbad hopen hstill
    refine h.completes rfl hop ?_
    have hlegal : ¬ (wY word.toNat = 0 ∨ k.words < wX word.toNat + wY word.toNat) := by omega
    simp only [hresv, hopen, Option.isNone_some, Bool.false_eq_true, and_false, if_false, hlegal]
    rw [Chip.storeRead_clean (of_decide_eq_true hin) (Nat.mod_one _) hpart hbad]
    simp only [hhere, Chip.storeEcc_pkg, ne_eq, not_true_eq_false, if_false, hstill]
  case rwrVoided =>
    intro k ecc line hop hresv hhere hvoided
    refine h.threadStep_of_meaning rfl hop ?_ rfl
    simp only [hresv, hhere, hvoided, Option.isNone_none, and_self, if_true]
  case rcom =>
    intro k i hop hresv hhere hopen hgood
    exact h.completes rfl hop (by simp only [hresv, hhere, hopen, hgood, ne_eq, not_true_eq_false, if_false, if_true])
  case rtake =>
    intro hop hfree hform hring hhere hmay hopen
    have hslot : (freeHandle t.takes).isNone = false := Option.isNone_eq_false_iff.2 hfree
    have hadmitted : (!refOk (t.sreg (wA word.toNat)).toNat || refRemote (t.sreg (wA word.toNat)).toNat ||
        !s.chip.cellMay r true) = false := by simp [hform, hhere, hmay]
    refine ⟨fun c hdelivered => ?delivered, fun hnone hnw => ?empty, fun hnone hnw => ?waits⟩
    case delivered =>
      exact h.completes rfl hop (by simp only [hslot, hring, hadmitted, hopen, hdelivered, Bool.false_eq_true, if_false])
    case empty =>
      exact h.completes rfl hop (by simp only [hslot, hring, hadmitted, hopen, hnone, hnw, Bool.false_eq_true, if_false, if_true])
    case waits =>
      exact h.completes rfl hop (by simp only [hslot, hring, hadmitted, hopen, hnone, hnw, Bool.false_eq_true, if_false])
  case rmile =>
    intro k hop htake hkept
    exact h.completes rfl hop (by simp only [htake, hkept, Bool.false_eq_true, if_false])
  case rdone =>
    intro k hop htake hkept
    exact h.completes rfl hop (by simp only [htake, hkept, Bool.false_eq_true, if_false])

end Sys2Proof.Machine
end

section
/-! The departures that threads arm and cancel (04_islands_and_timetable.md R123, R124; 06_cell_operations.md R190, R191). -/

namespace Sys2Proof.Machine

/-- A request that passes the checks takes a slot, and its identifier is the next one (R122, R123). -/
theorem Chip.armDep_passed {c : Chip} {q : DepReq} (h : c.armCheck q = none) : c.armDep q = (0, c.tt.nextId, (c.addDep q false).2) := by
  simp only [Chip.armDep, h, Chip.addDep]

/-- Settles O21. That a departure which has left its slot answers TOO_LATE is the model's choice (log entry 63). -/
theorem threadDeparturesComplete : Obligations.ThreadDeparturesComplete := by
  rintro s cell thread word p t w h rfl
  refine ⟨?armed, ?cancelled, ?tooLate, ?unknown⟩
  case armed =>
    intro q hop habsolute hnear hq hpassed
    refine ⟨(s.chip.addDep q false).2.draw.1, h.completes rfl hop ?_⟩
    subst hq
    simp only [habsolute, Bool.false_and, Bool.false_eq_true, if_false, hnear, Chip.armDep_passed hpassed, Nat.add_zero]
  case cancelled =>
    intro d hop hnear hmine hfirst hlead
    exact h.completes rfl hop (by simp only [hmine, Chip.cancelDep_in_time hfirst hlead, hnear, Bool.false_eq_true, if_false])
  case tooLate =>
    exact fun d hop hgone hspent => h.completes rfl hop (by simp only [hgone, hspent])
  case unknown =>
    exact fun hop hgone hnever => h.threadStep_of_meaning rfl hop (by simp only [hgone, hnever]; rfl) rfl

end Sys2Proof.Machine
end

section
/-! Transfers and atomics of a cell thread, and their ends (06_cell_operations.md R181, R182; 08_memory_tiers.md R222, R226, R231;
09_rings.md R267; 19_power_states.md R492, R493). -/

namespace Sys2Proof.Machine

/-! ### Issue and waiting (R181, R182) -/

/-- A transfer between an aligned range of the store and a good address waits for its tag while that is busy, and else starts and lets its
thread go on. -/
theorem Chip.transferIssue_good {c : Chip} {cell thread w : Nat} {t : Thread} {k : Nat → Nat → Nat → Chip → Chip}
    (hsize : 0 < (t.sreg (wC w)).toNat) (hin : (t.sreg (wB w)).toNat + (t.sreg (wC w)).toNat ≤ cellStoreBytes)
    (hoff : (t.sreg (wB w)).toNat % 64 = 0) (hlen : (t.sreg (wC w)).toNat % 64 = 0) (haddr : (t.sreg (wA w)).toNat % 64 = 0)
    (hgood : c.addrGood (t.sreg (wA w)).toNat (t.sreg (wC w)).toNat = true) :
    c.transferIssue cell thread w t k =
      if c.tagBusy cell thread (wX w) then c.setThread cell thread fun t => { t with st := .waitTagFree (wX w), word := w }
      else (k (t.sreg (wA w)).toNat (t.sreg (wB w)).toNat (t.sreg (wC w)).toNat c).setThread cell thread Thread.step := by
  simp only [Chip.transferIssue, inStore, decide_eq_true hin, Nat.ne_of_gt hsize, hoff, hlen, haddr, hgood, Bool.not_true,
    Bool.false_eq_true, or_self, ne_eq, not_true_eq_false, if_false]

/-- An XWAIT whose tags did not fail goes on (R181). -/
theorem Chip.endWait_clean {c : Chip} {cell thread mask : Nat} {t : Thread} (hthread : c.thread? cell thread = some t)
    (hclean : t.failed &&& mask = 0) : c.endWait cell thread mask = c.setThread cell thread Thread.step := by
  simp only [Chip.endWait, hthread, hclean, ne_eq, not_true_eq_false, if_false]

/-! ### The commands -/

/-- Settles O23. What counts in the return queue of an XPUT (R493) is the model's choice (log entry 96); the 1 ms of a remote RWR or RCOM is
its reading of R492. -/
theorem transferOperationsComplete : Obligations.TransferOperationsComplete := by
  refine ⟨?issued, ?ended, ?ringOp⟩
  case issued =>
    rintro s cell thread word p t w a off n h rfl rfl rfl rfl
    refine ⟨fun hsize hin hoff hlen haddr hgood => ⟨fun hfree => ⟨?get, ?put⟩, fun hbusy => ⟨?getWaits, ?putWaits⟩⟩, ?putHeld,
      ?atom, ?wait, ?waitBusy, ?waitOver⟩
    case get =>
      intro hop
      refine h.completes rfl hop ?_
      rw [Chip.transferIssue_good hsize hin hoff hlen haddr hgood, if_neg (Bool.eq_false_iff.1 hfree)]
    case put =>
      rintro hop hroom ecc line c1 p1 bad rfl hpart rfl
      refine h.completes rfl hop ?_
      rw [if_neg (Bool.eq_false_iff.1 hroom), Chip.transferIssue_good hsize hin hoff hlen haddr hgood, if_neg (Bool.eq_false_iff.1 hfree)]
      simp only [hpart, Option.getD_some]
    case getWaits =>
      intro hop
      exact h.threadStep_of_meaning rfl hop ((Chip.transferIssue_good hsize hin hoff hlen haddr hgood).trans (if_pos hbusy)) rfl
    case putWaits =>
      intro hop hroom ecc line
      exact h.threadStep_of_meaning rfl hop ((if_neg (Bool.eq_false_iff.1 hroom)).trans
        ((Chip.transferIssue_good hsize hin hoff hlen haddr hgood).trans (if_pos hbusy))) rfl
    case putHeld => exact fun hop hfull ecc line => h.completes rfl hop (if_pos hfull)
    case atom =>
      intro hop halign hgood
      refine h.completes rfl hop ?_
      simp only [halign, hgood, ne_eq, not_true_eq_false, Bool.not_true, Bool.false_eq_true, if_false]
      rfl
    case wait => exact fun hop hnw => h.threadStep_of_meaning rfl hop (if_pos hnw) rfl
    case waitBusy =>
      exact fun hop hnw hbusy => h.threadStep_of_meaning rfl hop ((if_neg (Bool.eq_false_iff.1 hnw)).trans (if_pos hbusy)) rfl
    case waitOver =>
      intro hop hnw hidle hclean
      exact h.threadStep_of_meaning rfl hop ((if_neg (Bool.eq_false_iff.1 hnw)).trans
        ((if_neg (not_not_intro hidle)).trans (Chip.endWait_clean h.thread? hclean))) rfl
  case ended =>
    intro s cell thread tag obs line x hfind
    have htag : tag.val ≠ 17 := Nat.ne_of_lt tag.isLt
    refine ⟨fun haway hheld => ?performed, fun hkind hst hnever => ?unanswered, fun since hkind hclosed => ?closed⟩
    case performed =>
      show execTransferComplete cell thread tag obs line s = _
      simp only [execTransferComplete, State.run_settled, hfind, haway, hheld, Bool.false_eq_true, or_self, if_false]
    case unanswered =>
      show execTransferClosedLimit cell thread tag.castSucc s = _
      simp only [execTransferClosedLimit, State.run_settled, htag, Fin.val_castSucc, hfind, hkind, hst, hnever, Option.getD_none, if_false]
    case closed =>
      show execTransferClosedLimit cell thread tag.castSucc s = _
      simp only [execTransferClosedLimit, State.run_settled, htag, Fin.val_castSucc, hfind, hkind, hclosed, if_false]
      cases x.st with
      | away => simp only [Option.getD_some]
      | here | answered | failed => rfl
  case ringOp =>
    intro s cell thread q hasked hkind
    show execTransferClosedLimit cell thread 17 s = _
    have hlimit : s.chip.ringOpLimit cell thread = (s.chip.passTo (q.since + tMs)).originError (wireTag 0 cell thread 17) 7 := by
      rcases hkind with ⟨ring, seq, first, data, hkind⟩ | ⟨ring, seq, hkind⟩ <;> simp only [Chip.ringOpLimit, hasked, hkind]
    have htag : (17 : Fin 18).val = 17 := rfl
    simp only [execTransferClosedLimit, State.run_settled, htag, if_true, hlimit]

end Sys2Proof.Machine
end

section
/-! The loop walkers of a cell thread (07_loop_tables.md R201, R203–R205, R210; 06_cell_operations.md R175). -/

namespace Sys2Proof.Machine

/-- Settles O18. -/
theorem loopOperationsComplete : Obligations.LoopOperationsComplete := by
  intro s cell thread word ecc line p t h
  refine ⟨?lbegin, ?lnext⟩
  case lbegin =>
    rintro l k hop hloop hfit rfl
    have hregisters : ¬ 31 < wD word.toNat + l.desc.roles.length - 1 := Nat.not_lt.2 hfit
    refine ⟨fun pos vals sk hsearch => ?first, fun sk hsearch => ?empty⟩
    case first =>
      rw [PartState.loopStart] at hsearch
      exact h.completes rfl hop (by simp only [hloop, hregisters, if_false, hsearch, PartState.loopStart])
    case empty =>
      have hones : BitVec.allOnes 64 = 0xFFFFFFFFFFFFFFFF := rfl
      rw [PartState.loopStart] at hsearch
      exact h.completes rfl hop (by simp only [hloop, hregisters, if_false, hsearch, PartState.loopStart, hones])
  case lnext =>
    intro k hop hbound
    refine ⟨fun hfinished => ?finished, fun pos vals sk hwalks hsearch => ?next, fun sk hwalks hsearch => ?last⟩
    case finished => exact h.threadStep_of_meaning rfl hop (by simp only [hbound, hfinished, if_true]) rfl
    case next => exact h.completes rfl hop (by simp only [hbound, hwalks, hsearch, Bool.false_eq_true, if_false])
    case last => exact h.completes rfl hop (by simp only [hbound, hwalks, hsearch, Bool.false_eq_true, if_false])

end Sys2Proof.Machine
end

section
/-! The events of memory and of the ring engine (08_memory_tiers.md R218–R220, R224, R227, R234; 09_rings.md R244, R259–R261). -/

namespace Sys2Proof.Machine

/-! ### Clearing an uncertain page (R224) -/

theorem Chip.uclr_object {c : Chip} {addr : Nat} (hspace : addrSpace addr = 0) (hpkg : addrPkg addr = c.pkg)
    (hobj : (c.objAt (addrOff addr)).isSome = true) : c.uclr addr = { c with mem := c.mem.clearPage (addrOff addr / 4096) } :=
  if_neg fun
    | .inl hspace' => hspace' hspace
    | .inr (.inl hpkg') => hpkg' hpkg
    | .inr (.inr hnone) => Option.isSome_iff_ne_none.1 hobj (Option.isNone_iff_eq_none.1 hnone)

theorem Chip.uclr_other {c : Chip} {addr : Nat} (h : addrSpace addr ≠ 0 ∨ addrPkg addr ≠ c.pkg ∨ c.objAt (addrOff addr) = none) :
    c.uclr addr = c :=
  if_pos (h.imp_right (.imp_right Option.isNone_iff_eq_none.2))

/-! ### The commands -/

/-- Settles O29. -/
theorem memoryAndRingCommandsComplete : Obligations.MemoryAndRingCommandsComplete := by
  intro o c q
  refine ⟨?epoch, ?moveEnds, ?stackFails, ?clearsPage, ?clearsNothing, ?reservation, ?drainBegins, ?drainEmpty, ?drainLimit, ?cut,
    ?cutClosed⟩
  case epoch =>
    intro hopen
    show execMigrationEpoch ⟨o, c, q⟩ = _
    simp only [execMigrationEpoch, State.act_next, hopen, Bool.not_true, Bool.false_eq_true, if_false]
  case moveEnds =>
    rintro stalled v l m hmoves hopen rfl
    show execWagonMoveSwitch stalled ⟨o, c, q⟩ = _
    simp only [execWagonMoveSwitch, State.run_settled, hmoves, hopen, Bool.not_true, Bool.false_eq_true, if_false]
  case stackFails =>
    intro stack htrained
    show execHbmStackFail stack ⟨o, c, q⟩ = _
    simp only [execHbmStackFail, State.run_settled, htrained, Bool.not_true, Bool.false_eq_true, if_false]
  case clearsPage =>
    rintro value addr hopen rfl hspace hpkg hobj
    show execMemUclrHiWrite value ⟨o, c, q⟩ = _
    simp only [execMemUclrHiWrite, State.run_settled, hopen, if_true, Chip.uclr_object hspace hpkg hobj]
  case clearsNothing =>
    rintro value addr rfl hother
    show execMemUclrHiWrite value ⟨o, c, q⟩ = _
    simp only [execMemUclrHiWrite, State.run_settled, Chip.uclr_other hother, ite_self]
  case reservation =>
    intro ring i holdest
    show execReservationTimeout ring ⟨o, c, q⟩ = _
    simp only [execReservationTimeout, State.run_settled, holdest]
  case drainBegins =>
    intro ring hopened
    show execRingDrainFlush ring ⟨o, c, q⟩ = _
    simp only [execRingDrainFlush, State.run_settled, Chip.drainRing, hopened, if_true]
  case drainEmpty =>
    intro ring t hsince hnothing
    show execRingDrainEnd ring ⟨o, c, q⟩ = _
    simp only [execRingDrainEnd, State.run_settled, hsince, hnothing, Bool.false_eq_true, if_false]
  case drainLimit =>
    intro ring t hsince hsome
    show execRingDrainEnd ring ⟨o, c, q⟩ = _
    simp only [execRingDrainEnd, State.run_settled, hsince, hsome, if_true]
  case cut =>
    intro ring hlive
    show execRingCutFlush ring ⟨o, c, q⟩ = _
    simp only [execRingCutFlush, State.run_settled, hlive, if_false]
  case cutClosed =>
    intro ring hclosed
    show execRingCutFlush ring ⟨o, c, q⟩ = _
    simp only [execRingCutFlush, State.run_settled, hclosed, if_true]

end Sys2Proof.Machine
end

section
/-! The dispatcher's commands (10_dispatch_and_switching.md R269–R273, R276, R278, R279, R282–R284; 05_cells.md R152). -/

namespace Sys2Proof.Machine

/-! ### What passing time leaves alone (log entry 8) -/

@[simp] theorem Chip.passTo_pkg (c : Chip) (deadline : Nat) : (c.passTo deadline).pkg = c.pkg := rfl
@[simp] theorem Chip.passTo_im (c : Chip) (deadline : Nat) : (c.passTo deadline).im = c.im := rfl
@[simp] theorem Chip.passTo_disp (c : Chip) (deadline : Nat) : (c.passTo deadline).disp = c.disp := rfl
@[simp] theorem Chip.passTo_partAt (c : Chip) (deadline n : Nat) : (c.passTo deadline).partAt n = c.partAt n := rfl

/-! ### The parts on the cells (R278) -/

/-- A change of a cell that keeps its part leaves every cell's part. -/
theorem Chip.partAt_setCell {f : Cell → Cell} (hf : ∀ x, (f x).ps = x.ps) (c : Chip) (n m : Nat) :
    (c.setCell n f).partAt m = c.partAt m := by
  by_cases hm : m = n
  · subst hm
    by_cases hlt : m < c.cells.length
    · simp only [Chip.partAt, Chip.cell, Chip.setCell, setAt_getD_self _ _ _ _ hlt, hf]
    · simp only [Chip.partAt, Chip.cell, Chip.setCell, setAt, List.modify_eq_self (Nat.le_of_not_lt hlt)]
  · simp only [Chip.partAt, Chip.cell, Chip.setCell, setAt_getD_ne _ _ _ _ _ hm]

theorem Chip.incomingOk_none (c : Chip) {w : Switch} (h : w.incoming = none) : c.incomingOk w = true := by
  simp only [Chip.incomingOk, h]

/-! ### The commands -/

/-- Settles O30. -/
theorem dispatcherCommandsComplete : Obligations.DispatcherCommandsComplete := by
  intro o c q
  refine ⟨?selects, ?starts, ?quiesces, ?abandons, ?retries, ?saves, ?savesLast, ?loadsNew, ?loadsSaved, ?streamEnds,
    ?streamFails, ?noCell⟩
  case selects =>
    rintro c1 k pl hopen rfl hbest
    show execTaskSelect ⟨o, c, q⟩ = _
    simp only [execTaskSelect, State.run_settled, hopen, Bool.not_true, Bool.false_eq_true, if_false, hbest]
  case starts =>
    intro cell since ps t hstarting hps hopen htask
    show execColdStartDone cell ⟨o, c, q⟩ = _
    simp only [execColdStartDone, State.run_settled, Chip.partAt, hstarting, hps, hopen, htask, Bool.not_true, Bool.false_eq_true,
      if_false]
  case quiesces =>
    intro cell line w p hswitch hphase hquiet hnone hps hclean
    have hpart : c.partAt cell = some p := hps
    show execQuiesceDone cell 0 line ⟨o, c, q⟩ = _
    simp only [execQuiesceDone, State.run_settled, hswitch, hphase, hquiet, hnone, Chip.incomingOk_none _ hnone, Chip.passTo_partAt, hpart,
      Option.isNone_some, Chip.partAt_setCell, implies_true, Fin.val_zero, Chip.storeEcc_none, hclean, List.isEmpty_nil, ne_eq,
      not_true_eq_false, Bool.not_true, Bool.false_eq_true, or_self, if_false, if_true]
  case abandons =>
    rintro cell w k c1 hswitch hphase hstays hbusy hincoming rfl
    show execQuiesceAbandon cell ⟨o, c, q⟩ = _
    simp only [execQuiesceAbandon, State.run_settled, hswitch, hphase, hstays, hbusy, hincoming, ne_eq, not_true_eq_false,
      Bool.false_eq_true, or_self, if_false]
  case retries =>
    intro ring seq e hblocked
    show execPreemptRetryTimer ring seq ⟨o, c, q⟩ = _
    simp only [execPreemptRetryTimer, State.run_settled, hblocked]
  case saves =>
    rintro cell w k c1 hswitch hphase hincoming rfl
    show execSwitchSaveDone cell ⟨o, c, q⟩ = _
    simp only [execSwitchSaveDone, State.run_settled, hswitch, hphase, hincoming, ne_eq, not_true_eq_false, if_false]
  case savesLast =>
    intro cell w hswitch hphase hnone
    show execSwitchSaveDone cell ⟨o, c, q⟩ = _
    simp only [execSwitchSaveDone, State.run_settled, hswitch, hphase, hnone, ne_eq, not_true_eq_false, if_false]
  case loadsNew =>
    rintro cell w k t c1 hswitch hphase hincoming hfresh hlight htask rfl
    show execSwitchLoadDone cell ⟨o, c, q⟩ = _
    simp only [execSwitchLoadDone, State.run_settled, hswitch, hphase, hincoming, hfresh, hlight, Chip.passTo_disp, htask, ne_eq,
      not_true_eq_false, Bool.false_eq_true, if_false, if_true]
  case loadsSaved =>
    intro cell w k ps hswitch hphase hincoming hresumed hdark hsaved
    show execSwitchLoadDone cell ⟨o, c, q⟩ = _
    simp only [execSwitchLoadDone, State.run_settled, hswitch, hphase, hincoming, hresumed, hdark, Chip.passTo_disp, hsaved, ne_eq,
      not_true_eq_false, Bool.false_eq_true, if_false, if_true]
  case streamEnds =>
    rintro wset data w dst c1 hwset hstreams hspace hpkg rfl rfl hreads
    have hw : c.disp.wsets.getD wset {} = w := by simp [hwset]
    show execWsetStreamDone wset data ⟨o, c, q⟩ = _
    simp only [execWsetStreamDone, State.run_settled, hw, hstreams, hspace, Chip.passTo_pkg, Chip.passTo_im, hpkg, hreads, beq_self_eq_true,
      bne_self_eq_false, Bool.and_false, Bool.false_and, ne_eq, not_true_eq_false, Bool.false_eq_true, if_false]
  case streamFails =>
    rintro wset w dst hwset hstreams rfl hfails
    have hw : c.disp.wsets.getD wset {} = w := by simp [hwset]
    show execWsetStreamFail wset ⟨o, c, q⟩ = _
    simp only [execWsetStreamFail, State.run_settled, hw, hstreams, hfails, and_self, if_true]
  case noCell =>
    rintro ps c1 hwaits rfl
    show execNoCellTimeout ⟨o, c, q⟩ = _
    simp only [execNoCellTimeout, State.run_settled, hwaits]

end Sys2Proof.Machine
end

section
/-! The sequence engine's commands (11_sequences.md R292, R293, R297, R299, R303, R304; 09_rings.md R258). -/

namespace Sys2Proof.Machine

/-- A well-formed operation at the head of the control ring is taken, acts, and completes with DONE (R292, R293). -/
theorem Chip.onCtl_taken {c c1 : Chip} {op : Nat} {eff : SeqPlan → List Byte → Chip → Chip} {p : SeqPlan} {h b : List Byte} {i : RItem}
    (hplan : c.seqPlan = some p) (hhead : c.headCtl p.ctrl = some h) (hop : ctlOp h = op) (htake : c.takeCtl p.ctrl = some (i, b, c1))
    (hshape : ctlShape b = true) : c.onCtl op eff = (eff p b c1).completeItem p.ctrl i.seq complDone 0 := by
  simp only [Chip.onCtl, hplan, hhead, hop, htake, hshape, ne_eq, not_true_eq_false, if_false, if_true]

/-- Settles O31. Its words also speak of a RESUME that finds no paused sequence (R293), for which the statement has no clause. -/
theorem sequenceCommandsComplete : Obligations.SequenceCommandsComplete := by
  intro o c q
  refine ⟨?joins, ?cancels, ?resumesHeld, ?resumesPaused, ?setsExpiry, ?expiryNoop, ?copiesEnd, ?overrunStarts⟩
  case joins =>
    intro ring p i b h c1 hplan hjoin hroom hhead htake hshape hmodel hring hleast hmost hunknown
    show execSeqJoin ring ⟨o, c, q⟩ = _
    simp only [execSeqJoin, State.run_settled, hplan, hjoin, hhead, htake, hshape, hring, hunknown, Nat.not_le.2 hroom,
      decide_eq_true hmodel, decide_eq_true hleast, decide_eq_true hmost, beq_self_eq_true, Bool.not_false, Bool.and_self,
      if_false, if_true]
  case cancels =>
    intro p i b h c1 hplan hhead hop htake hshape
    show execSeqCancel ⟨o, c, q⟩ = _
    simp only [execSeqCancel, State.run_settled, Chip.onCtl_taken hplan hhead hop htake hshape]
  case resumesHeld =>
    rintro p i b h c1 s c2 hplan hhead hop htake hshape hpaused hheld rfl
    show execSeqResume ⟨o, c, q⟩ = _
    simp only [execSeqResume, State.run_settled, Chip.onCtl_taken hplan hhead hop htake hshape, hpaused, hheld, if_true]
  case resumesPaused =>
    intro p i b h c1 s hplan hhead hop htake hshape hpaused hnotHeld hnotQueued
    show execSeqResume ⟨o, c, q⟩ = _
    simp only [execSeqResume, State.run_settled, Chip.onCtl_taken hplan hhead hop htake hshape, hpaused, hnotHeld, hnotQueued,
      Bool.false_eq_true, if_false]
  case setsExpiry =>
    intro p i b h c1 s hplan hhead hop htake hshape hpaused
    show execSeqTtl ⟨o, c, q⟩ = _
    simp only [execSeqTtl, State.run_settled, Chip.onCtl_taken hplan hhead hop htake hshape, hpaused]
  case expiryNoop =>
    intro p i b h c1 hplan hhead hop htake hshape hunpaused
    show execSeqTtl ⟨o, c, q⟩ = _
    simp only [execSeqTtl, State.run_settled, Chip.onCtl_taken hplan hhead hop htake hshape, hunpaused]
  case copiesEnd =>
    intro p t hplan hbusy hunposted
    show execParkCopyDone ⟨o, c, q⟩ = _
    simp only [execParkCopyDone, State.run_settled, hplan, hbusy, hunposted, Bool.false_eq_true, if_false]
  case overrunStarts =>
    rintro p snap rest c1 hplan hidle hoverdue rfl
    show execSeqOverrunStart ⟨o, c, q⟩ = _
    simp only [execSeqOverrunStart, State.run_settled, hplan, hidle, hoverdue]

end Sys2Proof.Machine
end

section
/-! The turntable's commands (12_generate_and_learn.md R310, R316, R318, R319, R320). -/

namespace Sys2Proof.Machine

/-! ### What passing time and a channel's state leave alone -/

@[simp] theorem Chip.setTrn_pkg (c : Chip) (n : Nat) (f : TrnCh → TrnCh) : (c.setTrn n f).pkg = c.pkg := rfl
@[simp] theorem Chip.setTrn_im (c : Chip) (n : Nat) (f : TrnCh → TrnCh) : (c.setTrn n f).im = c.im := rfl

/-- An object's base is the image's, whatever time has passed and whatever a channel did. -/
theorem Chip.objBase_setTrn_passTo (c : Chip) (deadline n : Nat) (f : TrnCh → TrnCh) (obj : Nat) :
    ((c.passTo deadline).setTrn n f).objBase obj = c.objBase obj := by
  simp only [Chip.objBase, Chip.setTrn_im, Chip.passTo_im]

/-! ### Reports -/

/-- A member in RELEASE turns READY once its target bank is released and in HBM; away from the root nothing more happens (R316, R319). -/
theorem Chip.tryReady_turnsReady {c : Chip} {n : Nat} {t : TrnChan} (hchan : c.trnChan n = some t) (hst : (c.trnCh n).st = .release)
    (hreleased : c.released n (c.trnCh n).target = true) (hresident : (c.demoted t (c.trnCh n).target).isEmpty = true)
    (haway : c.pkg ≠ t.srcPkg) : c.tryReady n = c.setTrn n fun x => { x with st := .ready } := by
  simp only [Chip.tryReady, hchan, hst, hreleased, hresident, Chip.setTrn_pkg, haway, ne_eq, not_true_eq_false, Bool.not_true,
    Bool.false_eq_true, or_self, if_false]

/-- The root takes a member's first READY while it waits, and sets up once it has every member's (R318). -/
theorem Chip.rootReady_first {c : Chip} {n pkg : Nat} {t : TrnChan} (hchan : c.trnChan n = some t) (hwaits : (c.trnCh n).rootSt = .release)
    (hfirst : pkg ∉ (c.trnCh n).ready) (hmember : t.member pkg = true) :
    c.rootReady n pkg =
      let c1 := c.setTrn n fun x => { x with ready := x.ready ++ [pkg] }
      if (t.memberList c.im).all fun p => p ∈ (c1.trnCh n).ready then c1.beginSetup n else c1 := by
  have himage := Chip.setTrn_im c n fun x => { x with ready := x.ready ++ [pkg] }
  simp only [Chip.rootReady, hchan, hwaits, hfirst, hmember, himage, ne_eq, not_true_eq_false, Bool.not_true, Bool.false_eq_true, or_self,
    if_false]

/-- The root takes a READY member's first DONE while it streams, and arms the COMMIT once it has every READY member's (R320). -/
theorem Chip.rootDone_first {c : Chip} {n pkg : Nat} (hstreams : (c.trnCh n).rootSt = .streaming) (hfirst : pkg ∉ (c.trnCh n).done)
    (hready : pkg ∈ (c.trnCh n).ready) :
    c.rootDone n pkg =
      let c1 := c.setTrn n fun x => { x with done := x.done ++ [pkg] }
      if (c.trnCh n).ready.all fun p => p ∈ (c1.trnCh n).done then c1.armCommit n else c1 := by
  simp only [Chip.rootDone, hstreams, hfirst, hready, ne_eq, not_true_eq_false, or_self, if_false]

/-! ### The commands -/

/-- Settles O32. The statement has no clause for BANK_RELEASED at the source package, nor for the timeout of a root that waits as a member too. -/
theorem turntableCommandsComplete : Obligations.TurntableCommandsComplete := by
  intro o c q
  refine ⟨?released, ?readyReport, ?readyTimeoutRoot, ?readyTimeoutMember, ?streamStarts, ?doneReport, ?doneTimeoutRoot,
    ?doneTimeoutMember⟩
  case released =>
    intro ch t hchan hst hreleased hresident haway
    show execBankReleased ch ⟨o, c, q⟩ = _
    rw [execBankReleased, State.run_settled, Chip.tryReady_turnsReady hchan hst hreleased hresident haway]
  case readyReport =>
    rintro ch pkg t c1 hchan hwaits hfirst hmember rfl
    show execTurntableReadyReport ch pkg ⟨o, c, q⟩ = _
    rw [execTurntableReadyReport, State.run_settled, Chip.rootReady_first hchan hwaits hfirst hmember]
  case readyTimeoutRoot =>
    intro ch p hplan hwaits hnotMember
    show execTurntableReadyTimeout ch ⟨o, c, q⟩ = _
    simp only [execTurntableReadyTimeout, State.run_settled, hplan, hwaits, hnotMember, true_or, if_true, if_false]
  case readyTimeoutMember =>
    intro ch p hplan hnotRoot hwaits
    show execTurntableReadyTimeout ch ⟨o, c, q⟩ = _
    simp only [execTurntableReadyTimeout, State.run_settled, hplan, hnotRoot, hwaits, or_true, if_true, if_false]
  case streamStarts =>
    rintro ch t c1 hchan hready rfl
    show execTurntableStreamStart ch ⟨o, c, q⟩ = _
    simp only [execTurntableStreamStart, State.run_settled, hchan, hready, Chip.objBase_setTrn_passTo, ne_eq,
      not_true_eq_false, if_false]
  case doneReport =>
    rintro ch pkg c1 hstreams hfirst hready rfl
    show execTurntableDoneReport ch pkg ⟨o, c, q⟩ = _
    rw [execTurntableDoneReport, State.run_settled, Chip.rootDone_first hstreams hfirst hready]
  case doneTimeoutRoot =>
    intro ch p hplan hstreams hnotMember
    show execTurntableDoneTimeout ch ⟨o, c, q⟩ = _
    simp only [execTurntableDoneTimeout, State.run_settled, hplan, hstreams, hnotMember, reduceCtorEq, or_self, if_true, if_false]
  case doneTimeoutMember =>
    intro ch p hplan hidle hstreams
    show execTurntableDoneTimeout ch ⟨o, c, q⟩ = _
    simp only [execTurntableDoneTimeout, State.run_settled, hplan, hidle, hstreams, reduceCtorEq, or_true, if_true, if_false]

end Sys2Proof.Machine
end

section
/-! The packets of a link (13_bilsal_links.md R349, R352, R357; 06_cell_operations.md R182; 09_rings.md R242, R267; 19_power_states.md R492). -/

namespace Sys2Proof.Machine

/-! ### A packet that a stream holds (R349, R352) -/

@[simp] theorem Chip.keepBuffers_pkg (c : Chip) (l h : Nat) (rest : List RecvFlit) : (c.keepBuffers l h rest).pkg = c.pkg := rfl

section
variable {o : Otp} {c c1 : Chip} {q : List Instr} {i : Instr} {link : Fin 24} {half : Fin 2} {typ : Nat} {eff : Packet → Chip → Chip}
  {p : Packet} {rest : List RecvFlit}

section
variable (htake : takePacket typ (c.half link half).recv = some (p, rest)) (hkept : c1 = c.keepBuffers link half rest)
include htake hkept

/-- A packet for this package has its effect once its buffer is freed. -/
theorem Chip.onPacket_here (hdst : p.dst = c.pkg) : c.onPacket link half typ eff = eff p c1 := by
  subst hkept
  simp only [Chip.onPacket, htake, Chip.keepBuffers_pkg, hdst, if_true]

/-- A packet for another package goes on toward it. -/
theorem Chip.onPacket_transit (hdst : p.dst ≠ c.pkg) : c.onPacket link half typ eff = c1.transit p := by
  subst hkept
  simp only [Chip.onPacket, htake, Chip.keepBuffers_pkg, hdst, if_false]

end

theorem State.packet_open (hopen : c.islOpen (linkIsland link) = true) :
    State.packet ⟨o, c, q⟩ link half typ eff = .next (State.settled ⟨o, c, q⟩ (c.onPacket link half typ eff)) := by
  simp only [State.packet, State.run_settled, hopen, if_true]

section
variable (hexec : exec i ⟨o, c, q⟩ = State.packet ⟨o, c, q⟩ link half typ eff) (hopen : c.islOpen (linkIsland link) = true)
  (htake : takePacket typ (c.half link half).recv = some (p, rest)) (hkept : c1 = c.keepBuffers link half rest)
include hexec hopen htake hkept

theorem completes_packet_transit (hdst : p.dst ≠ c.pkg) : Completes i ⟨o, c, q⟩ (c1.transit p) := by
  rw [Completes, hexec, State.packet_open hopen, Chip.onPacket_transit htake hkept hdst]

variable (eff)

theorem completes_packet_here (hdst : p.dst = c.pkg) : Completes i ⟨o, c, q⟩ (eff p c1) := by
  rw [Completes, hexec, State.packet_open hopen, Chip.onPacket_here htake hkept hdst]

end

end

/-! ### The commands -/

/-- Settles O49. Its R492 stands in 19_power_states.md. -/
theorem packetCommandsComplete : Obligations.PacketCommandsComplete := by
  intro o c q
  refine ⟨?read, ?readOn, ?readData, ?readDataOn, ?write, ?writeOn, ?writeAck, ?writeAckOn, ?atomic, ?atomicOn, ?atomicResp,
    ?atomicRespOn, ?ringOp, ?ringOpOn, ?ringResp, ?ringRespOn, ?closed, ?closedOn, ?bounce, ?bounceOn, ?error, ?errorOn, ?lsa⟩
  case read => exact fun link half obs line p rest c1 => completes_packet_here (fun p c => c.serveRead p obs line) rfl
  case readOn => exact fun link half obs line p rest c1 => completes_packet_transit rfl
  case readData => exact fun link half p rest c1 => completes_packet_here (fun p c => c.gotReadData p) rfl
  case readDataOn => exact fun link half p rest c1 => completes_packet_transit rfl
  case write => exact fun link half p rest c1 => completes_packet_here (fun p c => c.serveWrite p) rfl
  case writeOn => exact fun link half p rest c1 => completes_packet_transit rfl
  case writeAck => exact fun link half p rest c1 => completes_packet_here (fun p c => c.gotWriteAck p) rfl
  case writeAckOn => exact fun link half p rest c1 => completes_packet_transit rfl
  case atomic => exact fun link half obs p rest c1 => completes_packet_here (fun p c => c.serveAtomic p obs) rfl
  case atomicOn => exact fun link half obs p rest c1 => completes_packet_transit rfl
  case atomicResp => exact fun link half p rest c1 => completes_packet_here (fun p c => c.gotAtomicResp p) rfl
  case atomicRespOn => exact fun link half p rest c1 => completes_packet_transit rfl
  case ringOp => exact fun link half p rest c1 => completes_packet_here (fun p c => c.serveRing p) rfl
  case ringOpOn => exact fun link half p rest c1 => completes_packet_transit rfl
  case ringResp => exact fun link half p rest c1 => completes_packet_here (fun p c => c.gotRingResp p) rfl
  case ringRespOn => exact fun link half p rest c1 => completes_packet_transit rfl
  case closed => exact fun link half p rest c1 => completes_packet_here (fun p c => c.gotClosed p) rfl
  case closedOn => exact fun link half p rest c1 => completes_packet_transit rfl
  case bounce => exact fun link half p rest c1 => completes_packet_here (fun p c => c.gotBounce p) rfl
  case bounceOn => exact fun link half p rest c1 => completes_packet_transit rfl
  case error => exact fun link half p rest c1 => completes_packet_here (fun p c => c.requestFails p.src p.tag p.status) rfl
  case errorOn => exact fun link half p rest c1 => completes_packet_transit rfl
  case lsa =>
    rintro link half p rest c1 hopen htake rfl
    show execLsaReceive link half ⟨o, c, q⟩ = _
    simp only [execLsaReceive, State.run_settled, hopen, htake, Bool.not_true, Bool.false_eq_true, if_false]

end Sys2Proof.Machine
end

section
/-! The flits of a link (13_bilsal_links.md R335, R343, R345–R347, R349). -/

namespace Sys2Proof.Machine

/-! ### A command that brings a codeword to a stream (R335, R345, R347) -/

section
variable {o : Otp} {c : Chip} {q : List Instr} {i : Instr} {l h : Nat} {flit : List Byte} {errs ftype : Nat} {eff : Chip → Chip}
  (hexec : exec i ⟨o, c, q⟩ = .next (State.settled ⟨o, c, q⟩ (c.onFlit (c.listening l h) l h flit errs ftype eff)))
include hexec

theorem completes_flit_unheard (hdeaf : c.listening l h = false) : Completes i ⟨o, c, q⟩ c := by
  rw [Completes, hexec, hdeaf, Chip.onFlit_unheard]

section
variable (hhears : c.listening l h = true)
include hhears

theorem completes_flit_uncorrectable (hfec : fecCorrects errs = false) :
    Completes i ⟨o, c, q⟩ ((c.bump (rLNK_FECUNC + l * 0x800)).sendNak l h) := by
  rw [Completes, hexec, hhears, Chip.onFlit_uncorrectable _ hfec]

theorem completes_flit_badCrc (hfec : fecCorrects errs = true) (hcrc : flitGood flit = false) :
    Completes i ⟨o, c, q⟩ ((if errs = 0 then c else c.bump (rLNK_FECCORR + l * 0x800)).crcFailed l h) := by
  rw [Completes, hexec, hhears, Chip.onFlit_badCrc _ hfec hcrc]

/-- A whole flit of the command's FTYPE has its effect on the package after the decoder has counted. -/
theorem completes_flit_whole {c' : Chip} (hfec : fecCorrects errs = true) (hcrc : flitGood flit = true) (hshape : flitShape flit = true)
    (htype : fieldAt flit 0 1 = ftype) (heff : eff (if errs = 0 then c else c.bump (rLNK_FECCORR + l * 0x800)) = c') :
    Completes i ⟨o, c, q⟩ c' := by
  rw [Completes, hexec, hhears, Chip.onFlit_whole _ hfec hcrc hshape htype, heff]

end
end

/-! ### The commands -/

/-- Settles O48. It has no clause for a flit that breaks its table (R346, log entry 73). -/
theorem flitCommandsComplete : Obligations.FlitCommandsComplete := by
  intro o c q
  refine ⟨?dataUnheard, ?dataUncorrectable, ?dataBadCrc, ?dataOutOfOrder, ?dataInOrder, ?idleUnheard, ?idleUncorrectable, ?idleBadCrc,
    ?idle, ?nakUnheard, ?nakUncorrectable, ?nakBadCrc, ?nak, ?linkctlUnheard, ?linkctlUncorrectable, ?linkctlBadCrc, ?lastLane,
    ?narrower⟩
  case dataUnheard => exact fun link half flit errs => completes_flit_unheard rfl
  case dataUncorrectable => exact fun link half flit errs => completes_flit_uncorrectable rfl
  case dataBadCrc => exact fun link half flit errs => completes_flit_badCrc rfl
  case dataOutOfOrder =>
    rintro link half flit errs c1 hhears hfec hcrc hshape htype rfl hseq
    refine completes_flit_whole rfl hhears hfec hcrc hshape htype ?_
    simp only [hseq, ne_eq, not_false_eq_true, if_true]
  case dataInOrder =>
    rintro link half flit errs c1 hhears hfec hcrc hshape htype rfl hseq
    refine completes_flit_whole rfl hhears hfec hcrc hshape htype ?_
    simp only [hseq, ne_eq, not_true_eq_false, if_false]
  case idleUnheard => exact fun link half flit errs => completes_flit_unheard rfl
  case idleUncorrectable => exact fun link half flit errs => completes_flit_uncorrectable rfl
  case idleBadCrc => exact fun link half flit errs => completes_flit_badCrc rfl
  case idle =>
    rintro link half flit errs c1 hhears hfec hcrc hshape htype rfl
    exact completes_flit_whole rfl hhears hfec hcrc hshape htype rfl
  case nakUnheard => exact fun link half flit errs => completes_flit_unheard rfl
  case nakUncorrectable => exact fun link half flit errs => completes_flit_uncorrectable rfl
  case nakBadCrc => exact fun link half flit errs => completes_flit_badCrc rfl
  case nak =>
    rintro link half flit errs c1 hhears hfec hcrc hshape htype rfl
    exact completes_flit_whole rfl hhears hfec hcrc hshape htype rfl
  case linkctlUnheard => exact fun link half flit errs => completes_flit_unheard rfl
  case linkctlUncorrectable => exact fun link half flit errs => completes_flit_uncorrectable rfl
  case linkctlBadCrc => exact fun link half flit errs => completes_flit_badCrc rfl
  case lastLane =>
    rintro link half flit errs c0 c1 hhears hfec hcrc hshape htype rfl rfl hnoLane
    refine completes_flit_whole rfl hhears hfec hcrc hshape htype ?_
    simp only [hnoLane, if_true]
  case narrower =>
    rintro link half flit errs c0 c1 c2 hhears hfec hcrc hshape htype rfl rfl hlanes rfl
    refine completes_flit_whole rfl hhears hfec hcrc hshape htype ?_
    simp only [hlanes, if_false]

end Sys2Proof.Machine
end

section
/-! The link commands (13_bilsal_links.md R337, R341–R344, R357, R363, R365; 16_amendments.md R421, R425). -/

namespace Sys2Proof.Machine

/-! ### An amendment's change of a link (R365, R421) -/

section
variable {o : Otp} {c : Chip} {q : List Instr} {i : Instr} {link a mask value : Nat}

/-- A change that the link's procedure writes takes effect once the procedure's scope is quiet. -/
theorem completes_linkProc (hexec : exec i ⟨o, c, q⟩ = State.runO ⟨o, c, q⟩ fun o c => c.linkProc o link a mask value)
    (hsets : c.procSets (0x200 + link) a mask value = true) : Completes i ⟨o, c, q⟩ (c.procDrained o (0x200 + link)) := by
  rw [Completes, hexec, State.runO_settled, Chip.linkProc, if_pos hsets]

end

/-! ### The commands -/

/-- Settles O47. That a row of a class-C change is its procedure applying is the model's choice (log entry 60); the procedure itself is
R421 and R425 of 16_amendments.md. -/
theorem linkCommandsComplete : Obligations.LinkCommandsComplete := by
  intro o c q
  refine ⟨?trainStart, ?phaseEnd, ?trainRetry, ?lastLane, ?laneExcluded, ?widthLocked, ?widthTimeout, ?replay, ?retrain, ?enable,
    ?laneMap, ?refresh, ?eyes⟩
  case trainStart =>
    intro link half hmay hidle
    show execLinkTrainStart link half ⟨o, c, q⟩ = _
    simp only [execLinkTrainStart, State.run_settled, hmay, hidle, and_self, if_true]
  case phaseEnd =>
    intro link half seen htraining hopen
    show execLinkTrainPhaseEnd link half seen ⟨o, c, q⟩ = _
    simp only [execLinkTrainPhaseEnd, State.run_settled, htraining, hopen, and_self, if_true]
  case trainRetry =>
    intro link half hmay hdown hfailed
    show execLinkTrainRetry link half ⟨o, c, q⟩ = _
    simp only [execLinkTrainRetry, State.run_settled, hmay, hdown, hfailed, ne_eq, not_false_eq_true, and_self, if_true]
  case lastLane =>
    rintro link lane h c1 mask hserves rfl rfl hnoLane
    show execLaneExclude link lane ⟨o, c, q⟩ = _
    simp only [execLaneExclude, State.run_settled, hserves, hnoLane, if_true]
  case laneExcluded =>
    rintro link lane h c1 mask c2 hserves rfl rfl hlanes rfl
    show execLaneExclude link lane ⟨o, c, q⟩ = _
    simp only [execLaneExclude, State.run_settled, hserves, hlanes, if_false]
  case widthLocked =>
    intro link half hchanging
    show execWidthChangeLocked link half ⟨o, c, q⟩ = _
    simp only [execWidthChangeLocked, State.run_settled, hchanging, ne_eq, not_true_eq_false, if_false]
  case widthTimeout =>
    intro link half lost hchanging
    show execWidthChangeTimeout link ⟨half, lost⟩ ⟨o, c, q⟩ = _
    simp only [execWidthChangeTimeout, State.run_settled, hchanging, ne_eq, not_true_eq_false, if_false]
  case replay =>
    intro link half f r hsent hup
    show execReplayTimeout link half ⟨o, c, q⟩ = _
    simp only [execReplayTimeout, State.run_settled, hsent, hup, if_true]
  case retrain => exact fun link => completes_linkProc rfl
  case enable => exact fun link en => completes_linkProc rfl
  case laneMap => exact fun link value => completes_linkProc rfl
  case refresh =>
    rintro c1 rfl
    rfl
  case eyes =>
    intro link eyes hopen hup
    show execEyeRemeasure link eyes ⟨o, c, q⟩ = _
    simp only [execEyeRemeasure, State.run_settled, hopen, hup, and_self, if_true]

end Sys2Proof.Machine
end

section
/-! The fuses (20_security_and_debug.md R509–R515; 02_start_up.md R46): what each command does to them, once, and the statements that follow. -/

namespace Sys2Proof.Machine

/-! ### What changes the fuses -/

/-- Completing a transition leaves the fuses, or makes the copies agree with copy A, in RETURNED and SCRAPPED with the secrets erased (R509). -/
theorem Otp.finishLifecycle_cases (o : Otp) :
    o.finishLifecycle = o ∨ o.finishLifecycle = { o.eraseSecrets with lcB := o.lcA, lcC := o.lcA } ∨
      o.finishLifecycle = { o with lcB := o.lcA, lcC := o.lcA } := by
  unfold Otp.finishLifecycle
  dsimp only
  split
  · exact .inl rfl
  · split
    · exact .inr (.inl rfl)
    · exact .inr (.inr rfl)

@[simp] theorem Otp.finishLifecycle_lcA (o : Otp) : o.finishLifecycle.lcA = o.lcA := by
  rcases o.finishLifecycle_cases with h | h | h <;> rw [h]
  rfl

@[simp] theorem Otp.finishLifecycle_rollback (o : Otp) : o.finishLifecycle.rollback = o.rollback := by
  rcases o.finishLifecycle_cases with h | h | h <;> rw [h]
  rfl

/-- The fuses once a transition's three copies are programmed. -/
def Otp.transitioned (o : Otp) (target : Nat) : Otp := { o.beginLifecycle target with lcB := target, lcC := target }

/-- A transition to RETURNED or SCRAPPED erases the secrets, any other only the copies. -/
theorem Otp.transitioned_eq (o : Otp) (t : Nat) :
    o.transitioned t = if t = 3 ∨ t = 4 then { o.eraseSecrets with lcA := t, lcB := t, lcC := t } else { o with lcA := t, lcB := t, lcC := t } := by
  unfold Otp.transitioned Otp.beginLifecycle
  dsimp only
  split <;> rfl

/-- Nothing is left to complete once the copies agree. -/
theorem Otp.finishLifecycle_transitioned (o : Otp) (t : Nat) : (o.transitioned t).finishLifecycle = o.transitioned t := by
  rw [Otp.transitioned_eq]
  unfold Otp.finishLifecycle
  split <;> simp

/-- A restart from t0 leaves the fuses, or completes a transition. -/
theorem State.startUp_otp (s : State) (obs : BootObs) : (s.startUp obs).otp = s.otp ∨ (s.startUp obs).otp = s.otp.finishLifecycle := by
  cases hok : obs.otpOk with
  | false => exact .inl (by simp only [State.startUp, hok, Bool.not_false, if_true])
  | true => exact .inr (by simp only [State.startUp, hok, Bool.not_true, Bool.false_eq_true, if_false])

/-- Everything that a command can do to the fuses: `FuseStep i s o` says that `i` on `s` can leave the fuses `o`. -/
inductive FuseStep (i : Instr) (s : State) : Otp → Prop
  /-- They stay. -/
  | kept : FuseStep i s s.otp
  /-- A restart from t0 completes a transition (R509). -/
  | completed : FuseStep i s s.otp.finishLifecycle
  /-- The transition that was asked for runs (R509, R510). -/
  | moved (obs : BootObs) (target : Nat) (rest : List ProgOp) : i = .lifecycleTransition true obs → s.chip.sec.progs = .lifecycle target :: rest →
      (lcWho s.otp.lc target).isSome → FuseStep i s (s.otp.transitioned target)
  /-- The programming under way ends (R511–R515). -/
  | programmed (ok : Bool) (p : ProgOp) (rest : List ProgOp) : i = .fuseProgramDone ok → s.chip.sec.progs = p :: rest →
      FuseStep i s (s.otp.program ok p).1

theorem FuseStep.startUp {i : Instr} {s s' : State} (obs : BootObs) (h : s'.otp = s.otp) : FuseStep i s (s'.startUp obs).otp := by
  rcases s'.startUp_otp obs with hkept | hdone
  · rw [hkept, h]
    exact .kept
  · rw [hdone, h]
    exact .completed

theorem fuseStep_porstLowPulse {i : Instr} {s t : State} {ticks : Nat} {obs : BootObs} (h : execPorstLowPulse ticks obs s = .next t) :
    FuseStep i s t.otp := by
  unfold execPorstLowPulse at h
  dsimp only at h
  split at h
  · cases h
    exact .kept
  · split at h
    · cases h
      exact .startUp obs rfl
    · split at h
      · cases h
        exact .startUp obs rfl
      · cases h
        exact .kept

theorem fuseStep_railReturn {i : Instr} {s t : State} {obs : BootObs} (h : execRailReturn obs s = .next t) : FuseStep i s t.otp := by
  unfold execRailReturn at h
  split at h
  · cases h
    exact .startUp obs rfl
  · rw [State.runO_settled] at h
    cases h
    rw [State.settled_otp]
    exact .kept

theorem fuseStep_lifecycleTransition {s t : State} {ok : Bool} {obs : BootObs} (h : execLifecycleTransition ok obs s = .next t) :
    FuseStep (.lifecycleTransition ok obs) s t.otp := by
  unfold execLifecycleTransition at h
  dsimp only at h
  split at h
  next target rest hprogs =>
    split at h
    · cases h
      exact .kept
    next hwho =>
      split at h
      · cases h
        exact .kept
      next hok =>
        have hok : ok = true := by simpa using hok
        have hwho : (lcWho s.otp.lc target).isSome := by simpa [Option.isNone_iff_eq_none, Option.isSome_iff_ne_none] using hwho
        subst hok
        cases h
        have hmoved := FuseStep.moved (i := .lifecycleTransition true obs) obs target rest rfl hprogs hwho
        rcases State.startUp_otp _ obs with hkept | hdone
        · rw [hkept]
          exact hmoved
        · rw [hdone, ← Otp.transitioned, Otp.finishLifecycle_transitioned]
          exact hmoved
  next =>
    cases h
    exact .kept

theorem fuseStep_fuseProgramDone {s t : State} {ok : Bool} (h : execFuseProgramDone ok s = .next t) :
    FuseStep (.fuseProgramDone ok) s t.otp := by
  unfold execFuseProgramDone at h
  split at h
  next p rest hprogs =>
    split at h
    · cases h
      exact .kept
    · cases h
      exact .programmed ok p rest rfl hprogs
  next =>
    cases h
    exact .kept

theorem otp_eq_of_mayProgram_eq_false {i : Instr} {s t : State} (hprog : mayProgram i = false) (h : exec i s = .next t) : t.otp = s.otp := by
  obtain ⟨f, hf⟩ := exec_eq_act i hprog
  rw [hf, State.act_next] at h
  cases h
  rfl

/-- What a command can do to the fuses. -/
theorem fuseStep_of_exec {i : Instr} {s t : State} (h : exec i s = .next t) : FuseStep i s t.otp := by
  cases hprog : mayProgram i with
  | false =>
    rw [otp_eq_of_mayProgram_eq_false hprog h]
    exact .kept
  | true =>
    cases i with
    | porstRise obs =>
      cases h
      exact .startUp obs rfl
    | porstLowPulse ticks obs => exact fuseStep_porstLowPulse h
    | railReturn obs => exact fuseStep_railReturn h
    | lifecycleTransition ok obs => exact fuseStep_lifecycleTransition h
    | fuseProgramDone ok => exact fuseStep_fuseProgramDone h
    | _ => cases hprog

@[simp] theorem State.idle_otp (s : State) : s.idle.otp = s.otp := rfl

/-- What holds of fuses and stays with every command holds after every step. -/
theorem otp_invariant_step {P : Otp → Prop} (hexec : ∀ (i : Instr) (s : State) (o : Otp), FuseStep i s o → P s.otp → P o) {s t : State}
    (hs : P s.otp) (h : step s = .next t) : P t.otp := by
  cases hq : s.pending with
  | nil =>
    rw [step_nil s hq] at h
    cases h
    exact hs
  | cons i rest =>
    rw [step_cons s i rest hq] at h
    exact hexec i _ _ (fuseStep_of_exec h) hs

/-! ### Nothing is taken back (R509–R515) -/

theorem Otp.Since.refl {o : Otp} : o.Since o where
  identity := rfl
  factory := rfl
  slotCount := rfl
  slotKept _ x hx := ⟨x, hx, fun h => ⟨h, rfl⟩, id, fun _ => rfl⟩
  kekCount := rfl
  kekKept _ x hx := ⟨x, hx, id, fun h => ⟨h, rfl, .inl rfl⟩⟩
  seedKept := .inl rfl
  floorWords := List.prefix_rfl
  lifecycle := Nat.le_refl _

theorem Otp.Since.trans {a b c : Otp} (hab : a.Since b) (hbc : b.Since c) : a.Since c where
  identity := hbc.identity.trans hab.identity
  factory := hbc.factory.trans hab.factory
  slotCount := hbc.slotCount.trans hab.slotCount
  slotKept n x hx := by
    obtain ⟨y, hy, hprog, hrev, hzero⟩ := hab.slotKept n x hx
    obtain ⟨z, hz, hprog', hrev', hzero'⟩ := hbc.slotKept n y hy
    refine ⟨z, hz, fun h => ?_, fun h => hrev' (hrev h), fun h => (hzero' h).trans (hzero h)⟩
    obtain ⟨hy, hhash⟩ := hprog h
    obtain ⟨hz, hhash'⟩ := hprog' hy
    exact ⟨hz, hhash'.trans hhash⟩
  kekCount := hbc.kekCount.trans hab.kekCount
  kekKept n x hx := by
    obtain ⟨y, hy, herased, hprog⟩ := hab.kekKept n x hx
    obtain ⟨z, hz, herased', hprog'⟩ := hbc.kekKept n y hy
    refine ⟨z, hz, fun h => herased' (herased h), fun h => ?_⟩
    obtain ⟨hy, hid, hkey⟩ := hprog h
    obtain ⟨hz, hid', hkey'⟩ := hprog' hy
    refine ⟨hz, hid'.trans hid, ?_⟩
    rcases hkey' with hsame | hgone
    · rwa [hsame]
    · exact .inr hgone
  seedKept := by
    rcases hbc.seedKept with hsame | hgone
    · rw [hsame]
      exact hab.seedKept
    · exact .inr hgone
  floorWords := hab.floorWords.trans hbc.floorWords
  lifecycle := Nat.le_trans hab.lifecycle hbc.lifecycle

theorem Otp.since_eraseSecrets (o : Otp) : o.Since o.eraseSecrets where
  identity := rfl
  factory := rfl
  slotCount := rfl
  slotKept _ x hx := ⟨x, hx, fun h => ⟨h, rfl⟩, id, fun _ => rfl⟩
  kekCount := by simp [Otp.eraseSecrets]
  kekKept _ x hx := ⟨{ x with key := [], erased := true }, by simp [Otp.eraseSecrets, hx], fun _ => rfl, fun h => ⟨h, rfl, .inr rfl⟩⟩
  seedKept := .inr rfl
  floorWords := List.prefix_rfl
  lifecycle := Nat.le_refl _

/-- Copies that do not go back. -/
theorem Otp.since_setCopies (o : Otp) {x : Nat} (y z : Nat) (h : o.lcA ≤ x) : o.Since { o with lcA := x, lcB := y, lcC := z } :=
  { Otp.Since.refl (o := o) with lifecycle := h }

theorem Otp.since_finishLifecycle (o : Otp) : o.Since o.finishLifecycle := by
  rcases o.finishLifecycle_cases with h | h | h <;> rw [h]
  · exact .refl
  · exact o.since_eraseSecrets.trans (o.eraseSecrets.since_setCopies _ _ (Nat.le_refl _))
  · exact o.since_setCopies _ _ (Nat.le_refl _)

/-- R510 gives only transitions that go on, to states of the table. -/
theorem lcWho_forward {lc t : Nat} (h : (lcWho lc t).isSome) : lc < t ∧ t ≤ 4 := by
  unfold lcWho at h
  split at h <;> simp at h ⊢

theorem Otp.since_transitioned (o : Otp) {t : Nat} (h : o.lcA ≤ t) : o.Since (o.transitioned t) := by
  rw [Otp.transitioned_eq]
  split
  · exact o.since_eraseSecrets.trans (o.eraseSecrets.since_setCopies _ _ h)
  · exact o.since_setCopies _ _ h

/-! ### The end of a programming (R511–R515) -/

/-- A key slot that is not programmed takes a hash. -/
theorem Otp.since_setSlot (o : Otp) {n : Nat} (hash : List Byte) (hnew : (o.slots.getD n {}).programmed = false) :
    o.Since { o with slots := setAt o.slots n fun k => { k with hash := hash, programmed := true } } :=
  { Otp.Since.refl (o := o) with
    slotCount := by simp [setAt]
    slotKept := fun m x hx => by
      by_cases hm : n = m
      · subst hm
        have hold : x.programmed = false := by simpa [List.getD, hx] using hnew
        exact ⟨{ x with hash := hash, programmed := true }, by simp [setAt, hx], by simp [hold], id, fun _ => rfl⟩
      · exact ⟨x, by simp [setAt, hm, hx], fun h => ⟨h, rfl⟩, id, fun _ => rfl⟩ }

/-- A KEK slot that is not programmed takes a key. -/
theorem Otp.since_setKek (o : Otp) {n : Nat} (id key : List Byte) (hnew : (o.keks.getD n {}).programmed = false) :
    o.Since { o with keks := setAt o.keks n fun k => { k with kekId := id, key := key, programmed := true } } :=
  { Otp.Since.refl (o := o) with
    kekCount := by simp [setAt]
    kekKept := fun m x hx => by
      by_cases hm : n = m
      · subst hm
        have hold : x.programmed = false := by simpa [List.getD, hx] using hnew
        exact ⟨{ x with kekId := id, key := key, programmed := true }, by simp [setAt, hx], fun h => h, by simp [hold]⟩
      · exact ⟨x, by simp [setAt, hm, hx], fun h => h, fun h => ⟨h, rfl, .inl rfl⟩⟩ }

/-- The slots of a mask are revoked, but slot 0. -/
def Otp.revoke (o : Otp) (mask : Nat) : Otp :=
  { o with slots := o.slots.zipIdx.map fun (e : KeySlot × Nat) => if mask.testBit e.2 && e.2 != 0 then { e.1 with revoked := true } else e.1 }

theorem Otp.revoke_slot {o : Otp} {n : Nat} {x : KeySlot} (mask : Nat) (hx : o.slots[n]? = some x) :
    (o.revoke mask).slots[n]? = some (if mask.testBit n && n != 0 then { x with revoked := true } else x) := by
  simp [Otp.revoke, List.getElem?_zipIdx, hx]

theorem Otp.since_revoke (o : Otp) (mask : Nat) : o.Since (o.revoke mask) :=
  { Otp.Since.refl (o := o) with
    slotCount := by simp [Otp.revoke]
    slotKept := fun n x hx => by
      refine ⟨_, o.revoke_slot mask hx, ?_⟩
      split
      next hrev => exact ⟨fun h => ⟨h, rfl⟩, fun _ => rfl, fun h => by simp [h] at hrev⟩
      next => exact ⟨fun h => ⟨h, rfl⟩, id, fun _ => rfl⟩ }

/-- What the end of a programming leaves, by its operation. -/
theorem Otp.program_cases (o : Otp) (ok : Bool) (p : ProgOp) :
    (o.program ok p).1 = o ∨
    (∃ n hash, p = .keySlot n hash ∧ (o.slots.getD n {}).programmed = false ∧
      (o.program ok p).1 = { o with slots := setAt o.slots n fun k => { k with hash := hash, programmed := true } }) ∨
    (∃ mask, p = .revoke mask ∧ (o.program ok p).1 = o.revoke mask) ∨
    (∃ n id wrap key, p = .kek n id wrap ∧ (o.keks.getD n {}).programmed = false ∧
      (o.program ok p).1 = { o with keks := setAt o.keks n fun k => { k with kekId := id, key := key, programmed := true } }) ∨
    (∃ v, p = .floor v ∧ ok = true ∧ o.floor < v ∧ o.rollback.length < 16 ∧
      (o.program ok p).1 = { o with rollback := o.rollback ++ [BitVec.ofNat 32 v] }) := by
  cases p with
  | keySlot n hash =>
    simp only [Otp.program]
    split
    next h =>
      simp only [Bool.and_eq_true, Bool.not_eq_true'] at h
      exact .inr (.inl ⟨n, hash, rfl, h.1.2, rfl⟩)
    next => exact .inl rfl
  | revoke mask =>
    simp only [Otp.program]
    split
    · exact .inr (.inr (.inl ⟨mask, rfl, rfl⟩))
    · exact .inl rfl
  | kek n id wrap =>
    simp only [Otp.program]
    split
    · exact .inl rfl
    next key _ =>
      split
      next h =>
        simp only [Bool.and_eq_true, Bool.not_eq_true'] at h
        exact .inr (.inr (.inr (.inl ⟨n, id, wrap, key, rfl, h.1.2, rfl⟩)))
      next => exact .inl rfl
  | floor v =>
    simp only [Otp.program]
    split
    next h =>
      simp only [Bool.and_eq_true, decide_eq_true_eq] at h
      obtain ⟨⟨hok, hfloor⟩, hroom⟩ := h
      exact .inr (.inr (.inr (.inr ⟨v, rfl, hok, hfloor, hroom, rfl⟩)))
    next => exact .inl rfl
  | lifecycle t => exact .inl rfl

theorem Otp.since_program (o : Otp) (ok : Bool) (p : ProgOp) : o.Since (o.program ok p).1 := by
  rcases o.program_cases ok p with h | ⟨n, hash, -, hnew, h⟩ | ⟨mask, -, h⟩ | ⟨n, id, wrap, key, -, hnew, h⟩ | ⟨v, -, -, -, -, h⟩ <;>
    rw [h]
  · exact .refl
  · exact o.since_setSlot hash hnew
  · exact o.since_revoke mask
  · exact o.since_setKek id key hnew
  · exact { Otp.Since.refl (o := o) with floorWords := List.prefix_append _ _ }

theorem FuseStep.since {i : Instr} {s : State} {o : Otp} (h : FuseStep i s o) : s.otp.Since o := by
  cases h with
  | kept => exact .refl
  | completed => exact s.otp.since_finishLifecycle
  | moved obs target rest hi hprogs hwho => exact s.otp.since_transitioned (lcWho_forward hwho).1.le
  | programmed ok p rest hi hprogs => exact s.otp.since_program ok p

/-! ### Fuses stay well formed -/

theorem Otp.WellFormed.eraseSecrets {o : Otp} (h : o.WellFormed) : o.eraseSecrets.WellFormed :=
  { h with keks := by simpa [Otp.eraseSecrets] using h.keks, seedErased := fun _ => rfl }

theorem Otp.WellFormed.finishLifecycle {o : Otp} (h : o.WellFormed) : o.finishLifecycle.WellFormed := by
  rcases o.finishLifecycle_cases with hfin | hfin | hfin <;> rw [hfin]
  · exact h
  · exact { h.eraseSecrets with }
  · exact { h with }

theorem Otp.WellFormed.transitioned {o : Otp} (h : o.WellFormed) {t : Nat} (ht : t ≤ 4) : (o.transitioned t).WellFormed := by
  rw [Otp.transitioned_eq]
  split
  next => exact { h.eraseSecrets with state := ht, seedErased := fun _ => rfl }
  next hopen => exact { h with state := ht, seedErased := fun hlc => absurd hlc hopen }

theorem Otp.WellFormed.program {o : Otp} (h : o.WellFormed) (ok : Bool) (p : ProgOp) : (o.program ok p).1.WellFormed := by
  have hlen : 0 < o.slots.length := by simp [h.slots]
  rcases o.program_cases ok p with hp | ⟨n, hash, -, -, hp⟩ | ⟨mask, -, hp⟩ | ⟨n, id, wrap, key, -, -, hp⟩ |
    ⟨v, -, -, -, hroom, hp⟩ <;> rw [hp]
  · exact h
  · refine { h with slots := by simpa [setAt] using h.slots, slotZero := ?_ }
    by_cases hn : n = 0
    · subst hn
      rw [setAt_getD_self _ _ _ _ hlen]
      exact h.slotZero
    · rw [setAt_getD_ne _ _ _ _ _ (Ne.symm hn)]
      exact h.slotZero
  · have hzero := o.revoke_slot mask (List.getElem?_eq_getElem hlen)
    refine { h with slots := by simpa [Otp.revoke] using h.slots, slotZero := ?_ }
    rw [List.getD, hzero]
    simpa [List.getD, List.getElem?_eq_getElem hlen] using h.slotZero
  · exact { h with keks := by simpa [setAt] using h.keks }
  · exact { h with words := by simpa using hroom }

theorem FuseStep.wellFormed {i : Instr} {s : State} {o : Otp} (h : FuseStep i s o) (hs : s.otp.WellFormed) : o.WellFormed := by
  cases h with
  | kept => exact hs
  | completed => exact hs.finishLifecycle
  | moved obs target rest hi hprogs hwho => exact hs.transitioned (lcWho_forward hwho).2
  | programmed ok p rest hi hprogs => exact hs.program ok p

/-! ### The statements -/

/-- Settles O6: fuses only move forward at each change, and that composes. -/
theorem fusesOnlyMoveForward : Obligations.FusesOnlyMoveForward :=
  fun _ _ _ => otp_invariant_step fun _ _ _ hstep hs => hs.trans hstep.since

/-- Settles O7. -/
theorem fusesStayWellFormed : Obligations.FusesStayWellFormed :=
  fun _ _ => otp_invariant_step fun _ _ _ hstep => hstep.wellFormed

/-- Settles O8. -/
theorem resetFusesWellFormed : Obligations.ResetFusesWellFormed where
  slots := rfl
  slotZero := rfl
  keks := rfl
  words := by decide
  state := by decide
  seedErased := by decide

/-- Settles O5. -/
theorem fusesChangeOnlyByFive : Obligations.FusesChangeOnlyByFive := by
  refine ⟨fun i s t => otp_eq_of_mayProgram_eq_false, fun s t hq h => ?_⟩
  rw [step_nil s hq] at h
  cases h
  exact s.idle_otp

/-! ### The lifecycle (R508–R511) -/

@[simp] theorem Otp.program_lcA (o : Otp) (ok : Bool) (p : ProgOp) : (o.program ok p).1.lcA = o.lcA := by
  rcases o.program_cases ok p with h | ⟨_, _, -, -, h⟩ | ⟨_, -, h⟩ | ⟨_, _, _, _, -, -, h⟩ | ⟨_, -, -, -, -, h⟩ <;> rw [h]
  rfl

theorem Otp.transitioned_erases {t : Nat} (o : Otp) (ht : t = 3 ∨ t = 4) :
    (o.transitioned t).seed = [] ∧ ∀ k ∈ (o.transitioned t).keks, k.key = [] ∧ k.erased = true := by
  simp only [Otp.transitioned_eq, ht, if_true, Otp.eraseSecrets, true_and, List.mem_map]
  rintro k ⟨x, -, rfl⟩
  exact ⟨rfl, rfl⟩

theorem Otp.transitioned_copies (o : Otp) (t : Nat) :
    (o.transitioned t).lcA = t ∧ (o.transitioned t).lcB = t ∧ (o.transitioned t).lcC = t := by
  rw [Otp.transitioned_eq]
  split <;> exact ⟨rfl, rfl, rfl⟩

/-- Settles O9: only a transition writes copy A. -/
theorem lifecycleMoves : Obligations.LifecycleMoves := by
  intro i s t h hmoved
  obtain ⟨o, c, q⟩ := t
  have hstep : FuseStep i s o := fuseStep_of_exec h
  cases hstep with
  | kept => exact absurd rfl hmoved
  | completed => exact absurd s.otp.finishLifecycle_lcA hmoved
  | programmed ok p rest hi hprogs => exact absurd (s.otp.program_lcA ok p) hmoved
  | moved obs target rest hi hprogs hwho =>
    obtain ⟨hA, hB, hC⟩ := s.otp.transitioned_copies target
    exact ⟨obs, target, rest, hi, hprogs, hwho, hA, hB, hC, s.otp.transitioned_erases⟩

/-! ### The anti-rollback floor (R515) -/

@[simp] theorem Otp.transitioned_rollback (o : Otp) (t : Nat) : (o.transitioned t).rollback = o.rollback := by
  rw [Otp.transitioned_eq]
  split <;> rfl

/-- Only the end of a raise to a value above the floor adds a word, while one is unprogrammed. -/
theorem FuseStep.rollback {i : Instr} {s : State} {o : Otp} (h : FuseStep i s o) :
    o.rollback = s.otp.rollback ∨
    i = .fuseProgramDone true ∧ ∃ v rest, s.chip.sec.progs = .floor v :: rest ∧ s.otp.floor < v ∧ s.otp.rollback.length < 16 ∧
      o.rollback = s.otp.rollback ++ [BitVec.ofNat 32 v] := by
  cases h with
  | kept => exact .inl rfl
  | completed => exact .inl s.otp.finishLifecycle_rollback
  | moved obs target rest hi hprogs hwho => exact .inl (s.otp.transitioned_rollback target)
  | programmed ok p rest hi hprogs =>
    rcases s.otp.program_cases ok p with h | ⟨_, _, -, -, h⟩ | ⟨_, -, h⟩ | ⟨_, _, _, _, -, -, h⟩ | ⟨v, hp, hok, hfloor, hroom, h⟩
    · exact .inl (by rw [h])
    · exact .inl (by rw [h])
    · exact .inl (by rw [h]; rfl)
    · exact .inl (by rw [h])
    · subst hp hok
      exact .inr ⟨hi, v, rest, hprogs, hfloor, hroom, by rw [h]⟩

/-- An operation on a whole register writes its value. -/
@[simp] theorem AmdOp.on_whole (a old v : Nat) : AmdOp.on ⟨a, 0xFFFFFFFF, v⟩ old = v := by simp [AmdOp.on]

theorem Chip.secPermits_floor (o : Otp) (c : Chip) (v : Nat) (hwho : (floorWho o.lc).isSome) :
    c.secPermits o rSEC_RBFLOOR v = decide (o.floor < v ∧ v ≤ c.reg rNVM_RUNSECVER ∧ o.rollback.length < 16) := by
  have hop : c.secOp o [] ⟨rSEC_RBFLOOR, 0xFFFFFFFF, v⟩ =
      some (floorWho o.lc, decide (o.floor < v) && decide (v ≤ c.reg rNVM_RUNSECVER) && decide (o.rollback.length < 16)) := by
    simp [Chip.secOp, rSEC_RBFLOOR, rSEC_LCREQ, rSEC_KSREVOKE]
  simp only [Chip.secPermits, hop, hwho, Bool.true_and, Bool.decide_and, Bool.and_assoc]

theorem Otp.floor_of_words {o : Otp} {l : List Word} {w : Word} (h : o.rollback = l ++ [w]) : o.floor = w.toNat := by
  simp [Otp.floor, h]

/-- Settles O10. -/
theorem antiRollbackFloor : Obligations.AntiRollbackFloor := by
  refine ⟨?floor, ?raise, ?programmed, ?full, ?changed⟩
  case floor => exact fun o => ⟨fun h => by simp [Otp.floor, h], fun l w => Otp.floor_of_words⟩
  case raise =>
    intro v o c q hwho
    show execRollbackFloorRaise v ⟨o, c, q⟩ = _
    simp only [execRollbackFloorRaise, State.runO_settled, c.secPermits_floor o v.toNat hwho, decide_eq_true_eq]
  case programmed =>
    intro o c q v rest hprogs hfloor hroom
    have hdone : (o.program true (.floor v)).1 = { o with rollback := o.rollback ++ [BitVec.ofNat 32 v] } := by
      simp [Otp.program, hfloor, hroom]
    have hexec : exec (.fuseProgramDone true) ⟨o, c, q⟩ = State.fuse ⟨o, c, q⟩ fun o c =>
        ((o.program true (.floor v)).1, c.dropProg.progStat 4 (o.program true (.floor v)).2) := by
      show execFuseProgramDone true ⟨o, c, q⟩ = _
      simp only [execFuseProgramDone, hprogs]
      rfl
    rw [hexec]
    exact ⟨_, rfl, hdone⟩
  case full =>
    intro i s t h hfull
    rcases (fuseStep_of_exec h).rollback with hsame | ⟨-, v, rest, -, -, hroom, -⟩
    · exact hsame
    · exact absurd hfull (Nat.not_le.2 hroom)
  case changed =>
    intro i s t h hchanged
    rcases (fuseStep_of_exec h).rollback with hsame | hraised
    · exact absurd hsame hchanged
    · exact hraised

end Sys2Proof.Machine
end

section
/-! What a read shows of the fuses (20_security_and_debug.md R512, R521, R527, R529; 15_host_and_memory_ports.md R391; 17_signal_box.md R453;
18_service_pins_and_lamp_port.md R461; 22_wear.md R565), and the TAP's instructions (20_security_and_debug.md R521). -/

namespace Sys2Proof.Machine

/-! ### No read depends on a KEK value or on the identity seed (R512) -/

/-- SEC_KEKSTAT shows of a KEK slot what does not depend on its key. -/
theorem Otp.kekMask_congr {o o' : Otp} (hkeks : o'.keks.map (fun k => { k with key := [] }) = o.keks.map (fun k => { k with key := [] }))
    {p : KekSlot → Bool} (hp : ∀ k : KekSlot, p k = p { k with key := [] }) : o'.kekMask p = o.kekMask p := by
  have hslot (x : Otp) (n : Nat) : p (x.keks.getD n {}) = p ((x.keks.map fun k => { k with key := [] }).getD n {}) := by
    rw [hp, List.getD, List.getD, List.getElem?_map]
    cases x.keks[n]? <;> rfl
  simp only [Otp.kekMask, hslot, hkeks]

section
variable {o o' : Otp} (h : o.AgreeButSecrets o')
include h

theorem Otp.AgreeButSecrets.secReg (c : Chip) (a : Nat) : secReg o' c a = secReg o c a := by
  have hprog := Otp.kekMask_congr h.keks (p := (·.programmed)) fun _ => rfl
  have herased := Otp.kekMask_congr h.keks (p := (·.erased)) fun _ => rfl
  have hrest := h.rest
  simp only [Machine.secReg, hprog, herased]
  rw [hrest]
  rfl

theorem Otp.AgreeButSecrets.regI1 (c : Chip) (a : Nat) : c.regI1 o' a = c.regI1 o a := by rw [h.rest]; rfl

theorem Otp.AgreeButSecrets.absentIsland (n : Nat) : absentIsland o' n = absentIsland o n := by rw [h.rest]; rfl

theorem Otp.AgreeButSecrets.pwrReg (c : Chip) (a : Nat) : c.pwrReg o' a = c.pwrReg o a := by rw [h.rest]; rfl

theorem Otp.AgreeButSecrets.regI0 (c : Chip) (a : Nat) : c.regI0 o' a = c.regI0 o a := by
  simp only [Chip.regI0, Chip.islClk, h.absentIsland, h.pwrReg, h.secReg]

theorem Otp.AgreeButSecrets.regRest (c : Chip) (a : Nat) : c.regRest o' a = c.regRest o a := by rw [h.rest]; rfl

theorem Otp.AgreeButSecrets.regNow (c : Chip) (a : Nat) : c.regNow o' a = c.regNow o a := by
  simp only [Chip.regNow, h.regI1, h.regI0, h.regRest]

theorem Otp.AgreeButSecrets.bar0Read (c : Chip) (n off len : Nat) : c.bar0Read o' n off len = c.bar0Read o n off len := by
  simp only [Chip.bar0Read, Chip.bar0Word, h.regNow]

theorem Otp.AgreeButSecrets.i3cBytes (c : Chip) (a n : Nat) : c.i3cBytes o' a n = c.i3cBytes o a n := by
  simp only [Chip.i3cBytes, Chip.i3cWord, h.regNow]

theorem Otp.AgreeButSecrets.consoleReply (c : Chip) (line : List Byte) : c.consoleReply o' line = c.consoleReply o line := by
  have hident : c.identBytes o' = c.identBytes o := by rw [h.rest]; rfl
  simp only [Chip.consoleReply, Chip.statusBytes, hident, h.regNow]

end

/-- Settles O11: every path reads registers, and of the KEK slots they show the marks alone. -/
theorem readPathsHideSecrets : Obligations.ReadPathsHideSecrets := by
  intro o o' c q h
  refine ⟨fun a => ?_, h.regNow c, h.bar0Read c, h.i3cBytes c, ?_, h.consoleReply c, fun a => ⟨_, rfl, ?_⟩⟩
  · simp only [Chip.regRead, h.regNow]
  · simp only [Chip.statusMirror, h.regNow]
  · show execTapAoacc a ⟨o', c, q⟩ = _
    simp only [execTapAoacc, State.runO_settled, h.regNow]

/-! ### The TAP (R521) -/

theorem tapHonoured_of_blank {o : Otp} {low : Bool} (h : low = true ∨ o.lc = 0 ∨ o.lc = 3 ∨ o.lc = 4) : tapHonoured o low = true := by
  simpa [tapHonoured, or_assoc] using h

theorem tapHonoured_of_fielded {o : Otp} (hblank : o.lc ≠ 0) (hreturned : o.lc ≠ 3) (hscrapped : o.lc ≠ 4) : tapHonoured o false = false := by
  simp [tapHonoured, hblank, hreturned, hscrapped]

/-- Settles O38. -/
theorem tapAnswers : Obligations.TapAnswers := by
  intro o c q
  refine ⟨?bypass, ?idcode, ?sample, ?extest, ?extestBypassed, ?clamp, ?clampBypassed, ?highz, ?highzBypassed, ?dapacc⟩
  case bypass =>
    show execTapBypass ⟨o, c, q⟩ = _
    rw [execTapBypass, State.run_settled, Chip.tapIr, Chip.setTap]
  case idcode =>
    show execTapIdcode ⟨o, c, q⟩ = _
    rw [execTapIdcode, State.runO_settled, Chip.tapIr, Chip.setTap, Chip.setTap]
  case sample =>
    intro shift
    show execTapSamplePreload shift ⟨o, c, q⟩ = _
    rw [execTapSamplePreload, State.run_settled, Chip.tapIr, Chip.setTap, Chip.setTap]
  case extest =>
    intro low h
    show execTapExtest low ⟨o, c, q⟩ = _
    rw [execTapExtest, State.runO_settled, if_pos (tapHonoured_of_blank h), Chip.tapIr, Chip.setTap, Chip.setTap]
  case extestBypassed =>
    intro hblank hreturned hscrapped
    show execTapExtest false ⟨o, c, q⟩ = _
    rw [execTapExtest, State.runO_settled, tapHonoured_of_fielded hblank hreturned hscrapped, if_neg Bool.false_ne_true, Chip.tapIr,
      Chip.setTap]
  case clamp =>
    intro low h
    show execTapClamp low ⟨o, c, q⟩ = _
    rw [execTapClamp, State.runO_settled, if_pos (tapHonoured_of_blank h), Chip.tapIr, Chip.setTap, Chip.setTap]
  case clampBypassed =>
    intro hblank hreturned hscrapped
    show execTapClamp false ⟨o, c, q⟩ = _
    rw [execTapClamp, State.runO_settled, tapHonoured_of_fielded hblank hreturned hscrapped, if_neg Bool.false_ne_true, Chip.tapIr,
      Chip.setTap]
  case highz =>
    intro low h
    show execTapHighz low ⟨o, c, q⟩ = _
    rw [execTapHighz, State.runO_settled, if_pos (tapHonoured_of_blank h), Chip.tapIr, Chip.setTap, Chip.setTap]
  case highzBypassed =>
    intro hblank hreturned hscrapped
    show execTapHighz false ⟨o, c, q⟩ = _
    rw [execTapHighz, State.runO_settled, tapHonoured_of_fielded hblank hreturned hscrapped, if_neg Bool.false_ne_true, Chip.tapIr,
      Chip.setTap]
  case dapacc =>
    show execTapDapacc ⟨o, c, q⟩ = _
    rw [execTapDapacc, State.run_settled, Chip.tapIr, Chip.setTap]

end Sys2Proof.Machine
end

section
/-! The collective engine's commands and two-phase arming (14_collectives.md R374–R385; 04_islands_and_timetable.md R129;
12_generate_and_learn.md R319, R320). -/

namespace Sys2Proof.Machine

/-! ### Express packets (R374, R349) -/

section
variable {c c1 : Chip} {link : Fin 24} {half : Fin 2} {eff : Packet → Chip → Chip} {p : Packet} {rest : List RecvFlit}
  (htake : takePacket tPIP (c.half link half).recv = some (p, rest)) (hdst : p.dst = c.pkg) (hkept : c1 = c.keepBuffers link half rest)
include htake hdst hkept

/-- An express packet of the command's kind for this package has its effect once its buffer is freed. -/
theorem Chip.onPip_here {isIt : Nat → Bool} (hop : isIt (fieldAt p.data 1 1) = true) : c.onPip link half isIt eff = eff p c1 := by
  simp only [Chip.onPip, htake, hop, if_true, Chip.onPacket_here htake hkept hdst]

/-- The same for a command that stands for one OP. -/
theorem Chip.onPip_op {op : Nat} (hop : fieldAt p.data 1 1 = op) : c.onPip link half (· == op) eff = eff p c1 :=
  Chip.onPip_here htake hdst hkept (beq_iff_eq.2 hop)

end

/-! ### The commands -/

/-- Settles O33. It has no clause for a packet that only passes through, nor for an ARM_CANCEL on its way down. -/
theorem collectiveCommandsComplete : Obligations.CollectiveCommandsComplete := by
  intro o c q
  refine ⟨?launchedTimeout, ?heldTimeout, ?express, ?bulk, ?turntable, ?armUp, ?armDown, ?ackUp, ?ackDown, ?cancelUp, ?armTimeout⟩
  case launchedTimeout =>
    intro tree inst i hinst hlive hlaunched
    show execCollectiveTimeout tree inst ⟨o, c, q⟩ = _
    simp only [execCollectiveTimeout, State.run_settled, hinst, hlive, hlaunched, Chip.passTo_pkg, Bool.false_eq_true, if_false, if_true]
  case heldTimeout =>
    intro tree inst i hinst hlive hheld
    show execCollectiveTimeout tree inst ⟨o, c, q⟩ = _
    simp only [execCollectiveTimeout, State.run_settled, hinst, hlive, hheld, Option.isSome_none, Bool.false_eq_true, if_false]
  case express =>
    intro link half p rest c1 htake hop hdst hkept
    have hop : (!(fieldAt p.data 1 1 == pipArm || fieldAt p.data 1 1 == pipAck || fieldAt p.data 1 1 == pipCancel)) = true := by
      rw [hop, Bool.not_false]
    show execExpressPipReceive link half ⟨o, c, q⟩ = _
    rw [execExpressPipReceive, State.run_settled, Chip.onPip_here htake hdst hkept hop]
  case bulk =>
    intro link half p rest c1 htake hop hdst hkept
    show execStreamReceive link half ⟨o, c, q⟩ = _
    rw [execStreamReceive, State.run_settled, Chip.onPacket_here htake hkept hdst, if_neg hop]
  case turntable =>
    intro link half p rest c1 htake hop hdst hkept
    show execStreamReceive link half ⟨o, c, q⟩ = _
    rw [execStreamReceive, State.run_settled, Chip.onPacket_here htake hkept hdst, if_pos hop]
  case armUp =>
    intro link half p rest c1 htake hop hdst hkept hup
    show execPipArm link half ⟨o, c, q⟩ = _
    rw [execPipArm, State.run_settled, Chip.onPip_op htake hdst hkept hop]
    simp only [hup, Bool.false_eq_true, if_false]
  case armDown =>
    rintro link half p rest c1 a htake hop hdst hkept hdown rfl
    show execPipArm link half ⟨o, c, q⟩ = _
    rw [execPipArm, State.run_settled, Chip.onPip_op htake hdst hkept hop]
    simp only [hdown, if_true]
  case ackUp =>
    rintro link half p rest c1 a htake hop hdst hkept hup rfl
    show execPipArmAck link half ⟨o, c, q⟩ = _
    rw [execPipArmAck, State.run_settled, Chip.onPip_op htake hdst hkept hop]
    simp only [hup, Bool.false_eq_true, if_false]
  case ackDown =>
    rintro link half p rest c1 a r htake hop hdst rfl rfl hdown hheld
    show execPipArmAck link half ⟨o, c, q⟩ = _
    rw [execPipArmAck, State.run_settled, Chip.onPip_op htake hdst rfl hop]
    simp only [hdown, if_true, hheld]
  case cancelUp =>
    rintro link half p rest c1 a r id htake hop hdst rfl hkept hup hheld harmed
    show execPipArmCancel link half ⟨o, c, q⟩ = _
    rw [execPipArmCancel, State.run_settled, Chip.onPip_op htake hdst hkept hop]
    simp only [hheld, harmed, hup, Bool.false_eq_true, if_false]
  case armTimeout =>
    intro a hasked
    show execTwoPhaseArmTimeout ⟨o, c, q⟩ = _
    simp only [execTwoPhaseArmTimeout, State.run_settled, hasked]

end Sys2Proof.Machine
end

section
/-! The SPDM responder (15_host_and_memory_ports.md R396; 20_security_and_debug.md R516, R517, R525; log entries 25, 32). -/

namespace Sys2Proof.Machine

/-! ### A request that is answered (R525) -/

section
variable {o : Otp} {c : Chip} {q : List Instr} {chan : Nat}

/-- A request on a live channel in P0 or P1, with Ohmax running, has its effect. -/
theorem State.runSpdm_answered {f : Otp → Chip → Chip} (hlive : (if chan < 2 then c.fxLive chan else c.ethLive (chan - 2)) = true)
    (hruns : c.ohmaxRuns = true) (hawake : c.pstate o < 2) :
    State.runSpdm ⟨o, c, q⟩ chan f = .next (State.settled ⟨o, c, q⟩ (f o c)) := by
  have hanswers : ((if chan < 2 then c.fxLive chan else c.ethLive (chan - 2)) && c.ohmaxRuns && decide (c.pstate o < 2)) = true := by
    simp only [hlive, hruns, hawake, decide_true, Bool.and_self]
  simp only [State.runSpdm, State.runO_settled, hanswers, if_true]

/-- A request that the protocol allows after the algorithms. -/
theorem Chip.spdmAfter_agreed {r : Chip → Chip} (halgs : c.ports.spdmAlgs = true) : c.spdmAfter r = r c := by
  rw [Chip.spdmAfter, if_pos halgs]

end

/-! ### The commands -/

/-- Settles O44. It has no clause for a request before the algorithms, nor for signed measurements without an identity. -/
theorem spdmCommandsComplete : Obligations.SpdmCommandsComplete := by
  intro o c q
  refine ⟨?version, ?capabilities, ?capabilitiesEarly, ?algorithms, ?algorithmsEarly, ?digests, ?certificate, ?noCertificate, ?challenge,
    ?noIdentity, ?measurements, ?noMeasurement⟩
  case version =>
    intro chan hlive hruns hawake
    show execSpdmGetVersion chan ⟨o, c, q⟩ = _
    rw [execSpdmGetVersion, State.runSpdm_answered hlive hruns hawake]
  case capabilities =>
    intro chan hlive hruns hawake hversion
    show execSpdmGetCapabilities chan ⟨o, c, q⟩ = _
    rw [execSpdmGetCapabilities, State.runSpdm_answered hlive hruns hawake, if_pos hversion]
  case capabilitiesEarly =>
    intro chan hlive hruns hawake hversion
    show execSpdmGetCapabilities chan ⟨o, c, q⟩ = _
    rw [execSpdmGetCapabilities, State.runSpdm_answered hlive hruns hawake, if_neg (Bool.eq_false_iff.1 hversion)]
  case algorithms =>
    intro chan hlive hruns hawake hcaps
    show execSpdmNegotiateAlgorithms chan ⟨o, c, q⟩ = _
    rw [execSpdmNegotiateAlgorithms, State.runSpdm_answered hlive hruns hawake, if_pos hcaps]
  case algorithmsEarly =>
    intro chan hlive hruns hawake hcaps
    show execSpdmNegotiateAlgorithms chan ⟨o, c, q⟩ = _
    rw [execSpdmNegotiateAlgorithms, State.runSpdm_answered hlive hruns hawake, if_neg (Bool.eq_false_iff.1 hcaps)]
  case digests =>
    intro chan hlive hruns hawake halgs
    show execSpdmGetDigests chan ⟨o, c, q⟩ = _
    rw [execSpdmGetDigests, State.runSpdm_answered hlive hruns hawake, Chip.spdmAfter_agreed halgs]
  case certificate =>
    intro chan slot off len hlive hruns hawake halgs hidentity hslot hoff
    show execSpdmGetCertificate chan slot off len ⟨o, c, q⟩ = _
    rw [execSpdmGetCertificate, State.runSpdm_answered hlive hruns hawake, Chip.spdmAfter_agreed halgs]
    simp only [hidentity, hslot, Nat.not_le.2 hoff, Bool.not_true, bne_self_eq_false, decide_false, Bool.or_self, Bool.false_eq_true, if_false]
  case noCertificate =>
    intro chan slot off len hlive hruns hawake halgs hnone
    have hempty : (!o.identity || slot.val != 0 || decide (o.spdmChain.length ≤ off.toNat)) = true := by simpa [or_assoc] using hnone
    show execSpdmGetCertificate chan slot off len ⟨o, c, q⟩ = _
    rw [execSpdmGetCertificate, State.runSpdm_answered hlive hruns hawake, Chip.spdmAfter_agreed halgs, if_pos hempty]
  case challenge =>
    intro chan slot hlive hruns hawake halgs hidentity hslot
    show execSpdmChallenge chan slot ⟨o, c, q⟩ = _
    rw [execSpdmChallenge, State.runSpdm_answered hlive hruns hawake, Chip.spdmAfter_agreed halgs]
    simp only [hidentity, hslot, Bool.not_true, Bool.false_eq_true, ne_eq, not_true_eq_false, if_false]
  case noIdentity =>
    intro chan slot hlive hruns hawake halgs hidentity
    show execSpdmChallenge chan slot ⟨o, c, q⟩ = _
    rw [execSpdmChallenge, State.runSpdm_answered hlive hruns hawake, Chip.spdmAfter_agreed halgs]
    simp only [hidentity, Bool.not_false, if_true]
  case measurements =>
    rintro chan index signed blocks g hlive hruns hawake halgs hindex hsigner rfl rfl
    have hknown : ¬(6 < index.toNat ∧ index.toNat ≠ 0xFF) := by omega
    have hsigns : ¬(signed && !o.identity) = true := by simpa [Decidable.or_iff_not_imp_left] using hsigner
    show execSpdmGetMeasurements chan index signed ⟨o, c, q⟩ = _
    rw [execSpdmGetMeasurements, State.runSpdm_answered hlive hruns hawake, Chip.spdmAfter_agreed halgs, if_neg hknown, if_neg hsigns]
  case noMeasurement =>
    intro chan index signed hlive hruns hawake halgs hbig hnotAll
    show execSpdmGetMeasurements chan index signed ⟨o, c, q⟩ = _
    rw [execSpdmGetMeasurements, State.runSpdm_answered hlive hruns hawake, Chip.spdmAfter_agreed halgs, if_pos ⟨hbig, hnotAll⟩]

end Sys2Proof.Machine
end

section
/-! The I3C target of the signal box (22_wear.md R564, R565; 19_power_states.md R502; 02_start_up.md R46; log entry 35). -/

namespace Sys2Proof.Machine

/-! ### A transfer that the target takes part in (R46, R564) -/

section
variable {o : Otp} {c : Chip} {q : List Instr}

theorem State.runI3c_serving {f : Otp → Chip → Chip} (hpowered : c.boot.held = false) (hstep : 2 ≤ c.boot.step) :
    State.runI3c ⟨o, c, q⟩ f = .next (State.settled ⟨o, c, q⟩ (f o c)) := by
  simp only [State.runI3c, State.runO_settled, hpowered, Nat.not_lt.2 hstep, Bool.false_eq_true, or_self, if_false]

/-- A directed command reaches a target that has a dynamic address. -/
theorem Chip.ccc_addressed {out : Chip → List Byte × Chip} (hdyn : c.i3c.dyn.isSome = true) :
    c.ccc out = (out c).2.setI3c fun x => { x with out := (out c).1 } := by
  rw [Chip.ccc, if_neg (Option.isNone_eq_false_iff.2 hdyn ▸ Bool.false_ne_true)]

end

/-! ### The commands -/

/-- Settles O43. -/
theorem sidebandCommandsComplete : Obligations.SidebandCommandsComplete := by
  intro o c q
  refine ⟨?entdaa, ?setdasa, ?rstdaa, ?enec, ?disec, ?privateWrite, ?wakeWrite, ?privateRead, ?pid, ?bcr, ?dcr, ?mwl, ?mrl, ?status⟩
  case entdaa =>
    intro addr hpowered hstep hnone
    show execI3cEntdaa addr ⟨o, c, q⟩ = _
    rw [execI3cEntdaa, State.runI3c_serving hpowered hstep]
    simp only [hnone, Option.isSome_none, Bool.false_eq_true, if_false]
  case setdasa =>
    intro addr hpowered hstep hnone
    show execI3cSetdasa addr ⟨o, c, q⟩ = _
    rw [execI3cSetdasa, State.runI3c_serving hpowered hstep]
    simp only [hnone, Option.isSome_none, Bool.false_eq_true, if_false]
  case rstdaa =>
    intro hpowered hstep
    show execI3cRstdaa ⟨o, c, q⟩ = _
    rw [execI3cRstdaa, State.runI3c_serving hpowered hstep]
  case enec =>
    intro hpowered hstep
    show execI3cEnec ⟨o, c, q⟩ = _
    rw [execI3cEnec, State.runI3c_serving hpowered hstep]
  case disec =>
    intro hpowered hstep
    show execI3cDisec ⟨o, c, q⟩ = _
    rw [execI3cDisec, State.runI3c_serving hpowered hstep]
  case privateWrite =>
    intro data rails obs hpowered hstep hlen hquiet
    have hsleeps : (hitsWake (fieldAt data 0 2) (data.drop 2) && c.sleepy && (c.reg rPWR_WAKECFG).testBit 2) = false := by
      rcases hquiet with h | h | h <;> simp [h]
    show execI3cPrivateWrite data rails obs ⟨o, c, q⟩ = _
    rw [execI3cPrivateWrite, State.runI3c_serving hpowered hstep, if_neg (Nat.not_lt.2 hlen)]
    exact congrArg _ (congrArg _ (if_neg (Bool.eq_false_iff.1 hsleeps)))
  case wakeWrite =>
    intro data rails obs hpowered hstep hlen hbyte hsleepy hallowed
    have hwakes : (hitsWake (fieldAt data 0 2) (data.drop 2) && c.sleepy && (c.reg rPWR_WAKECFG).testBit 2) = true := by
      simp only [hbyte, hsleepy, hallowed, Bool.and_self]
    show execI3cPrivateWrite data rails obs ⟨o, c, q⟩ = _
    rw [execI3cPrivateWrite, State.runI3c_serving hpowered hstep, if_neg (Nat.not_lt.2 hlen)]
    exact congrArg _ (congrArg _ (if_pos hwakes))
  case privateRead =>
    intro count hpowered hstep
    show execI3cPrivateRead count ⟨o, c, q⟩ = _
    rw [execI3cPrivateRead, State.runI3c_serving hpowered hstep]
  case pid =>
    intro hpowered hstep hdyn
    show execI3cGetpid ⟨o, c, q⟩ = _
    rw [execI3cGetpid, State.runI3c_serving hpowered hstep, Chip.ccc_addressed hdyn]
  case bcr =>
    intro hpowered hstep hdyn
    show execI3cGetbcr ⟨o, c, q⟩ = _
    rw [execI3cGetbcr, State.runI3c_serving hpowered hstep, Chip.ccc_addressed hdyn]
  case dcr =>
    intro hpowered hstep hdyn
    show execI3cGetdcr ⟨o, c, q⟩ = _
    rw [execI3cGetdcr, State.runI3c_serving hpowered hstep, Chip.ccc_addressed hdyn]
  case mwl =>
    intro hpowered hstep hdyn
    show execI3cGetmwl ⟨o, c, q⟩ = _
    rw [execI3cGetmwl, State.runI3c_serving hpowered hstep, Chip.ccc_addressed hdyn]
  case mrl =>
    intro hpowered hstep hdyn
    show execI3cGetmrl ⟨o, c, q⟩ = _
    rw [execI3cGetmrl, State.runI3c_serving hpowered hstep, Chip.ccc_addressed hdyn]
  case status =>
    intro hpowered hstep hdyn
    show execI3cGetstatus ⟨o, c, q⟩ = _
    rw [execI3cGetstatus, State.runI3c_serving hpowered hstep, Chip.ccc_addressed hdyn]

end Sys2Proof.Machine
end

section
/-! The fault service's commands (21_faults.md R534, R537, R538, R541, R542, R544, R546, R550, R552, R554). -/

namespace Sys2Proof.Machine

/-! ### The end of a handling (R537, R541) -/

section
variable {c : Chip} {h : Handling} (htop : c.flt.stack.getLast? = some h) (hruns : c.ohmaxRuns = true) (hstop : c.flt.stop = false)
include htop hruns hstop

/-- A handling whose scope is no island performs its actions and ends RECOVERED. -/
theorem Chip.endHandling_recovers (hwaits : h.waits = false) (hscope : ∀ n, h.scope ≠ .island n) :
    c.endHandling =
      let a := (h.folded ++ [h.scope]).foldl abortScope (c, h.items, h.pages)
      a.1.popHandling { h with items := a.2.1.eraseDups, pages := a.2.2.eraseDups } 0x10 := by
  simp only [Chip.endHandling, hruns, hstop, htop, hwaits, Bool.not_false, Bool.and_self, if_true]

/-- A handling that waits for its island ends once that is open again. -/
theorem Chip.endHandling_reopened {n : Nat} (hwaits : h.waits = true) (hscope : h.scope = .island n) (hopen : c.islOpen n = true)
    (hready : (c.island n).prepare = false) : c.endHandling = c.popHandling h 0x10 := by
  simp only [Chip.endHandling, hruns, hstop, htop, hwaits, hscope, hopen, hready, Bool.not_false, Bool.and_self, if_true]

end

/-! ### The commands -/

/-- Settles O34. It has no clause for a handling of island scope that does not wait yet. -/
theorem faultCommandsComplete : Obligations.FaultCommandsComplete := by
  intro o c q
  refine ⟨?handling, ?reopened, ?passDone, ?passCut, ?lost, ?quarantine, ?discard, ?engine, ?router, ?memory, ?power⟩
  case handling =>
    rintro h a htop hwaits hscope rfl hruns hstop
    show execFaultHandlingEnd ⟨o, c, q⟩ = _
    rw [execFaultHandlingEnd, State.run_settled, Chip.endHandling_recovers htop hruns hstop hwaits hscope]
  case reopened =>
    intro h n htop hwaits hscope hopen hready hruns hstop
    show execFaultHandlingEnd ⟨o, c, q⟩ = _
    rw [execFaultHandlingEnd, State.run_settled, Chip.endHandling_reopened htop hruns hstop hwaits hscope hopen hready]
  case passDone =>
    intro done hpassing hall
    show execPackageStopPassEnd done ⟨o, c, q⟩ = _
    simp only [execPackageStopPassEnd, State.run_settled, Nat.not_lt.2 hall, decide_false, Bool.and_false, Bool.false_eq_true, if_false]
  case passCut =>
    intro done hpassing hleft
    show execPackageStopPassEnd done ⟨o, c, q⟩ = _
    simp only [execPackageStopPassEnd, State.run_settled, hpassing, hleft, decide_true, Bool.and_self, if_true]
  case lost =>
    intro hlost hring hroom
    show execLostRecord ⟨o, c, q⟩ = _
    simp only [execLostRecord, State.run_settled, Chip.lostRecord, hlost, hring, Nat.not_lt.2 hroom, Bool.not_true, Bool.false_eq_true, or_self,
      if_false]
  case quarantine => exact fun cells isl => rfl
  case discard =>
    intro rec e hfind
    have hknown : (c.flt.ends.any fun (x : Nat × List Nat) => x.1 == rec.toNat) = true := by
      exact List.any_eq_true.2 ⟨e, List.mem_of_find?_eq_some hfind, List.find?_some (p := fun (x : Nat × List Nat) => x.1 == rec.toNat) hfind⟩
    have hend : (c.setReg rFLT_DISCARD rec.toNat).flt.ends.find? (fun (e : Nat × List Nat) => e.1 == rec.toNat) = some e := hfind
    show execFaultDiscard rec ⟨o, c, q⟩ = _
    simp only [execFaultDiscard, State.run_settled, hknown, if_true, Chip.fltDiscard, hend]
    rfl
  case engine =>
    intro engine hopen hi10
    have hisland : engineIsland engine.val = 10 := if_pos hi10
    show execEngineInternalError engine ⟨o, c, q⟩ = _
    rw [hisland] at hopen
    simp only [execEngineInternalError, State.run_settled, hisland, hopen, Bool.not_true, Bool.false_eq_true, if_false, if_true]
  case router =>
    intro engine hopen hrouter
    have hisland : engineIsland engine.val = engine.val + 7 := if_neg (Nat.not_lt.2 hrouter)
    have hdie : engine.val + 7 ≠ 10 := by omega
    show execEngineInternalError engine ⟨o, c, q⟩ = _
    simp only [execEngineInternalError, State.run_settled, hisland, hopen, hdie, Bool.not_true, Bool.false_eq_true, if_false]
  case memory =>
    intro hpowered
    show execSignalBoxHardwareFailure true ⟨o, c, q⟩ = _
    simp only [execSignalBoxHardwareFailure, State.run_settled, hpowered, if_false, if_true]
  case power =>
    intro hpowered
    show execSignalBoxHardwareFailure false ⟨o, c, q⟩ = _
    simp only [execSignalBoxHardwareFailure, State.run_settled, hpowered, Bool.false_eq_true, if_false]

end Sys2Proof.Machine
end

section
/-! The events of service pins, and the console (18_service_pins_and_lamp_port.md R457–R467; 16_amendments.md R425). -/

namespace Sys2Proof.Machine

/-! ### A short (R466) -/

/-- An output that is checked, other than LAMP_TX and the XSPI2 pins, is disabled and its fault latched. -/
theorem Chip.pinShort_checked {c : Chip} {n : Nat} (hdrives : c.pinDrives n = true) (hclear : (c.pin n).fault = false)
    (hchecked : (c.pin n).cfg.openDrain = false ∨ c.pinValue n = (c.pin n).cfg.invert) (hlamp : n ≠ 40)
    (hplain : isXspi (c.pin n).cfg.fn = false) :
    c.pinShort n = ((c.setPin n fun p => { p with enabled := false, fault := true, clean := 0, faultAt := c.elapsed, strobe := none }).bump
      rPIN_FAULTCNT).notice 466 (n + (c.pin n).cfg.fn * 256) := by
  have hsense : (!(c.pin n).cfg.openDrain || !(c.pinValue n != (c.pin n).cfg.invert)) = true := by
    rcases hchecked with h | h <;> simp [h]
  have hlamp : (n == 40) = false := beq_false_of_ne hlamp
  simp only [Chip.pinShort, hdrives, hclear, hsense, hlamp, hplain, Bool.not_false, Bool.and_self, Bool.false_and, Bool.not_true,
    Bool.false_eq_true, if_false]

/-! ### The commands -/

/-- Settles O39. That GPIO_OUT counts as written by halves and the form of the console's answer are the model's choice (log entries 27, 36). -/
theorem pinCommandsComplete : Obligations.PinCommandsComplete := by
  intro o c q
  refine ⟨?park, ?quiet, ?quietProc, ?ready, ?gpio, ?short, ?retry, ?strobeRises, ?strobeFalls, ?console⟩
  case park =>
    intro pin e hserved hchange hphase hplain
    show execPointsChange pin ⟨o, c, q⟩ = _
    simp only [execPointsChange, State.run_settled, hserved, Chip.parkPin, hchange, hphase, hplain, ne_eq, not_true_eq_false, Bool.false_and,
      Bool.false_eq_true, if_false]
  case quiet =>
    rintro pin e c1 hserved hchange hphase hproc rfl
    show execPointsChangeQuiet pin ⟨o, c, q⟩ = _
    simp only [execPointsChangeQuiet, State.runO_settled, hserved, hphase, hproc, Chip.quietPin, hchange, ne_eq, not_true_eq_false,
      Bool.false_eq_true, or_self, if_false]
  case quietProc =>
    intro pin p hserved hphase hproc
    show execPointsChangeQuiet pin ⟨o, c, q⟩ = _
    simp only [execPointsChangeQuiet, State.runO_settled, hserved, hphase, hproc, ne_eq, not_true_eq_false, Bool.false_eq_true, or_self,
      if_false]
  case ready =>
    rintro pin level e c1 hserved hchange hphase hplain rfl
    show execPointsChangeInputReady pin level ⟨o, c, q⟩ = _
    simp only [execPointsChangeInputReady, State.run_settled, hserved, Chip.readyPin, hchange, hphase, hplain, ne_eq, not_true_eq_false,
      Bool.false_eq_true, if_false]
  case gpio => exact fun mask value => rfl
  case short =>
    intro pin hdrives hclear hchecked hlamp hplain
    show execPinShortDetect pin ⟨o, c, q⟩ = _
    rw [execPinShortDetect, State.run_settled, Chip.pinShort_checked hdrives hclear hchecked hlamp hplain]
  case retry =>
    rintro pin clean c1 hfault hserved rfl
    show execPinFaultRetry pin clean ⟨o, c, q⟩ = _
    cases clean <;> simp only [execPinFaultRetry, State.run_settled, Chip.pinRetry, hfault, hserved, Bool.not_true, Bool.not_false,
      Bool.or_self, Bool.false_eq_true, Bool.true_eq_false, if_false, if_true]
  case strobeRises =>
    rintro pin t hpin hruns hfirst rfl hinside
    show execTurnStrobeAssert pin ⟨o, c, q⟩ = _
    simp only [execTurnStrobeAssert, State.run_settled, hpin, hruns, hfirst, Nat.not_le.2 hinside, Bool.not_true, Bool.false_eq_true, or_self,
      if_false]
  case strobeFalls =>
    intro pin t hstrobe
    show execTurnStrobeDeassert pin ⟨o, c, q⟩ = _
    simp only [execTurnStrobeDeassert, State.run_settled, hstrobe]
  case console =>
    intro line hrx htx hopen hrun
    have hreader : c.ctl.run % 2 ≠ 0 := by omega
    show execConsoleCommand line ⟨o, c, q⟩ = _
    simp only [execConsoleCommand, State.runO_settled, hrx, htx, hopen, hreader, Bool.not_true, Bool.false_eq_true, or_self, if_false]

end Sys2Proof.Machine
end

section
/-! The commands of the security root and of debug (20_security_and_debug.md R510–R529; log entry 60). -/

namespace Sys2Proof.Machine

/-- Settles O37. That a permitted row of SEC acts at once is the model's choice (log entry 60). -/
theorem securityCommandsComplete : Obligations.SecurityCommandsComplete := by
  intro o c q
  refine ⟨?slot, ?slotRefused, ?kek, ?kekRefused, ?revoke, ?revokeRefused, ?challenge, ?request, ?sessionEnds, ?nonceEnds, ?haltLow, ?haltHigh,
    ?haltRefused, ?core, ?coreRefused, ?data, ?dataRefused, ?noAbandon, ?abandon⟩
  case slot =>
    intro hpermits
    show execKeySlotProgram ⟨o, c, q⟩ = _
    rw [execKeySlotProgram, State.runO_settled, if_pos hpermits]
  case slotRefused =>
    intro hrefused
    show execKeySlotProgram ⟨o, c, q⟩ = _
    rw [execKeySlotProgram, State.runO_settled, if_neg (Bool.eq_false_iff.1 hrefused)]
  case kek =>
    intro hpermits
    show execKekProgram ⟨o, c, q⟩ = _
    rw [execKekProgram, State.runO_settled, if_pos hpermits]
  case kekRefused =>
    intro hrefused
    show execKekProgram ⟨o, c, q⟩ = _
    rw [execKekProgram, State.runO_settled, if_neg (Bool.eq_false_iff.1 hrefused)]
  case revoke =>
    intro mask hpermits
    show execKeyRevoke mask ⟨o, c, q⟩ = _
    rw [execKeyRevoke, State.runO_settled, if_pos hpermits]
  case revokeRefused =>
    intro mask hrefused
    show execKeyRevoke mask ⟨o, c, q⟩ = _
    rw [execKeyRevoke, State.runO_settled, if_neg (Bool.eq_false_iff.1 hrefused)]
  case challenge =>
    intro hopen
    show execDebugChallenge ⟨o, c, q⟩ = _
    rw [execDebugChallenge, State.run_settled, if_pos hopen, Chip.dbgChallenge]
  case request =>
    intro value ecdsa mldsa hopen
    show execDebugRequest value ecdsa mldsa ⟨o, c, q⟩ = _
    rw [execDebugRequest, State.runO_settled, if_pos hopen]
  case sessionEnds =>
    intro hlevel hlimited hlatch
    show execDebugSessionExpiry ⟨o, c, q⟩ = _
    simp only [execDebugSessionExpiry, State.run_settled, hlevel, hlimited, hlatch, Bool.false_eq_true, or_self, if_false]
  case nonceEnds =>
    intro n hnonce
    show execDebugNonceExpiry ⟨o, c, q⟩ = _
    simp only [execDebugNonceExpiry, State.run_settled, hnonce, Option.isNone_some, Bool.false_eq_true, if_false]
  case haltLow =>
    intro value hpass
    show execCellHalt false value ⟨o, c, q⟩ = _
    simp only [execCellHalt, State.run_settled, hpass, Bool.false_eq_true, if_false, if_true]
  case haltHigh =>
    intro value hpass
    show execCellHalt true value ⟨o, c, q⟩ = _
    simp only [execCellHalt, State.run_settled, hpass, if_true]
  case haltRefused =>
    intro high value hrefused
    show execCellHalt high value ⟨o, c, q⟩ = _
    rw [execCellHalt, State.run_settled, if_neg (Bool.eq_false_iff.1 hrefused)]
  case core =>
    intro value hpass
    show execCoreHalt value ⟨o, c, q⟩ = _
    rw [execCoreHalt, State.run_settled, if_pos hpass]
  case coreRefused =>
    intro value hrefused
    show execCoreHalt value ⟨o, c, q⟩ = _
    rw [execCoreHalt, State.run_settled, if_neg (Bool.eq_false_iff.1 hrefused)]
  case data =>
    intro write value hpass
    show execDebugDataAccess write value ⟨o, c, q⟩ = _
    simp only [execDebugDataAccess, State.run_settled, hpass, Bool.not_true, Bool.false_eq_true, if_false]
  case dataRefused =>
    intro write value hrefused
    show execDebugDataAccess write value ⟨o, c, q⟩ = _
    simp only [execDebugDataAccess, State.run_settled, hrefused, Bool.not_false, if_true]
  case noAbandon =>
    intro hnone
    show execDebugReleaseTimeout ⟨o, c, q⟩ = _
    simp only [execDebugReleaseTimeout, State.run_settled, Chip.dbgAbandon, hnone]
  case abandon => exact fun t _ => rfl

end Sys2Proof.Machine
end

section
/-! The amendment handler's commands (16_amendments.md R409–R427; 12_generate_and_learn.md R308; log entry 60). -/

namespace Sys2Proof.Machine

/-! ### Taking a record (R409) -/

theorem Chip.flushStatus_none {c : Chip} (hnone : c.amd.unsent = []) (n : Nat) : c.flushStatus n = c := by
  cases n <;> simp [Chip.flushStatus, hnone]

/-- The next record of ring 0x0000 is taken and judged once ring 0x0001 has room for its status. -/
theorem Chip.amTake_next {o : Otp} {c c1 : Chip} {valid : List SigCheck} {i : RItem} (hsent : c.amd.unsent = []) (hruns : c.ohmaxRuns = true)
    (hopen : c.islOpen 10 = true) (hstop : c.flt.stop = false) (hring : (c.ring 1).st = .opened) (hroom : 2 ≤ c.ringFree 1)
    (hitem : c.takeItem 0 .ohmax = some (i, c1)) : c.amTake o valid = c1.amJudge o (c1.ringWords 0 i.idx i.words) i valid := by
  simp only [Chip.amTake, Chip.flushStatus_none hsent, hsent, hruns, hopen, hstop, hring, Nat.not_lt.2 hroom, hitem, List.isEmpty_nil,
    bne_self_eq_false, decide_false, Bool.not_true, Bool.or_self, Bool.false_eq_true, if_false]

/-! ### The commands -/

/-- Settles O40. That PLACEMENT_CHANGE and PLATFORM_ROLE_CHANGE are their procedure applying, and nothing without it, is the model's choice
(log entry 60); R308 stands in 12_generate_and_learn.md. -/
theorem amendmentCommandsComplete : Obligations.AmendmentCommandsComplete := by
  intro o c q
  refine ⟨?take, ?drained, ?half, ?drainTimeout, ?applyTimeout, ?placement, ?noPlacement, ?role, ?noRole⟩
  case take =>
    intro ecdsa mldsa i c1 hsent hruns hopen hstop hring hroom hitem
    show execAmendRecordTake ecdsa mldsa ⟨o, c, q⟩ = _
    rw [execAmendRecordTake, State.runO_settled, Chip.amTake_next hsent hruns hopen hstop hring hroom hitem]
  case drained =>
    intro scope p hproc hquiet hintime hopen
    show execClassCDrained scope ⟨o, c, q⟩ = _
    simp only [execClassCDrained, State.runO_settled, Chip.procDrained, hproc, hquiet, Nat.not_lt.2 hintime, hopen, Bool.not_true,
      Bool.false_eq_true, if_false]
  case half =>
    intro scope p hproc hkind hfirst hbusy
    show execClassCHalfDrainSave scope ⟨o, c, q⟩ = _
    simp only [execClassCHalfDrainSave, State.run_settled, Chip.procHalf, hproc, hkind, hfirst, hbusy, ne_eq, not_true_eq_false,
      Bool.false_eq_true, or_self, if_false]
  case drainTimeout =>
    intro scope p hproc hbusy
    show execClassCDrainTimeout scope ⟨o, c, q⟩ = _
    simp only [execClassCDrainTimeout, State.run_settled, Chip.procTimeout, hproc, hbusy, Bool.false_eq_true, if_false]
  case applyTimeout => exact fun scope op p hproc hquiet hop => rfl
  case placement =>
    intro obj code hwrites
    show execPlacementChange obj code ⟨o, c, q⟩ = _
    rw [execPlacementChange, State.runO_settled, if_pos hwrites]
  case noPlacement =>
    intro obj code hnone
    show execPlacementChange obj code ⟨o, c, q⟩ = _
    rw [execPlacementChange, State.runO_settled, if_neg (Bool.eq_false_iff.1 hnone)]
  case role =>
    intro plat role hwrites
    show execPlatformRoleChange plat role ⟨o, c, q⟩ = _
    rw [execPlatformRoleChange, State.runO_settled, if_pos hwrites]
  case noRole =>
    intro plat role hnone
    show execPlatformRoleChange plat role ⟨o, c, q⟩ = _
    rw [execPlatformRoleChange, State.runO_settled, if_neg (Bool.eq_false_iff.1 hnone)]

end Sys2Proof.Machine
end

section
/-! The lamp port's receiver and transmitter (18_service_pins_and_lamp_port.md R469–R475; log entry 51). -/

namespace Sys2Proof.Machine

/-! ### What passing time and the tracker leave alone -/

/-- Not by `rfl`: used as a definitional rule at a deadline such as `n + 20 * tUs`, it makes the kernel count those ticks one by one. -/
@[simp] theorem Chip.passTo_lamp (c : Chip) (deadline : Nat) : (c.passTo deadline).lamp = c.lamp := by simp only [Chip.passTo, Chip.pass]
@[simp] theorem Chip.lampLevel_rx (c : Chip) (level : Nat) : (c.lampLevel level).lamp.rx = c.lamp.rx := rfl

/-! ### Pulses (R471) -/

section
variable {c c1 : Chip} {gap width : Nat} (hsees : c.lamp.rx ≠ .blanked) (hlistens : c.lamp.rx ≠ .tx)
  (hpass : c1 = c.passTo (c.elapsed + gap * tNs + width * tNs)) (hpin : c1.pinOn 41 fnLampRx = true)
include hsees hlistens hpass hpin

theorem Chip.lampPulse_taken (hmin : 125 ≤ width) (hmax : width ≤ 400) :
    c.lampPulse gap width = c1.setLamp fun l => l.pulse (c.elapsed + gap * tNs) := by
  subst hpass
  simp only [Chip.lampPulse, hpin, Chip.passTo_lamp, beq_false_of_ne hsees, beq_false_of_ne hlistens, Nat.not_lt.2 hmin, Nat.not_lt.2 hmax,
    Bool.not_true, Bool.or_self, Bool.false_eq_true, or_self, if_false]

theorem Chip.lampPulse_rejected (hwidth : width < 125 ∨ 400 < width) : c.lampPulse gap width = c1.bump rLAMP_REJECT := by
  subst hpass
  simp only [Chip.lampPulse, hpin, Chip.passTo_lamp, beq_false_of_ne hsees, beq_false_of_ne hlistens, hwidth, Bool.not_true, Bool.or_self,
    Bool.false_eq_true, if_false, if_true]

end

/-! ### The end of a frame (R470, R472) -/

section
variable {c : Chip} {b : List Byte} {len : Nat} (hrx : c.lamp.rx = .frame) (hbytes : b = symbolBytes c.lamp.symbols) (hlen : len = fieldAt b 3 1)
include hrx hbytes hlen

theorem Chip.lampFrameEnd_whole (hmax : len ≤ 248) (hall : 6 + len ≤ b.length) (hcrc : crc16 (b.take (4 + len)) = fieldAt b (4 + len) 2)
    (hdir : fieldAt b 0 1 = 0xC5) :
    c.lampFrameEnd = (c.passTo (c.lamp.grid + (16 * (6 + len) * lampChip : Nat)).toNat).setLamp fun l => { l.clear .hunt with
      good := some { cmd := fieldAt b 1 1, tag := fieldAt b 2 1, payload := (b.drop 4).take len
                     lastChip := (c.passTo (c.lamp.grid + (16 * (6 + len) * lampChip : Nat)).toNat).elapsed } } := by
  have hcrcAt : 6 + len - 2 = 4 + len := by omega
  have hlong : ¬(4 ≤ b.length ∧ 248 < len) := by omega
  have hshort : ¬(b.length < 4 ∨ b.length < 6 + len) := by omega
  simp only [Chip.lampFrameEnd, hrx, ← hbytes, ← hlen, hcrcAt, hlong, hshort, hcrc, hdir, ne_eq, not_true_eq_false, if_false]

/-- A frame that is not whole aborts with the code of the first check that fails. -/
theorem Chip.lampFrameEnd_abort {code : Nat}
    (hcode : code = if 4 ≤ b.length ∧ 248 < len then abLength else if b.length < 4 ∨ b.length < 6 + len then abSymbol
      else if crc16 (b.take (4 + len)) ≠ fieldAt b (4 + len) 2 then abCrc else if fieldAt b 0 1 ≠ 0xC5 then abDir else 0)
    (hfails : code ≠ 0) : c.lampFrameEnd = c.lampAbort code := by
  have hcrcAt : 6 + len - 2 = 4 + len := by omega
  simp only [Chip.lampFrameEnd, hrx, ← hbytes, ← hlen, hcrcAt]
  split_ifs at hcode ⊢
  · rw [hcode]
  · rw [hcode]
  · rw [hcode]
  · rw [hcode]
  · exact absurd hcode hfails

end

/-! ### The commands -/

/-- Settles O41. That a reply which started in BLANKED returns there is the model's reading (log entry 51). -/
theorem lampReceiverCompletes : Obligations.LampReceiverCompletes := by
  intro o c q
  refine ⟨?pulse, ?rejected, ?frame, ?abort, ?act, ?dazzle, ?blankEnd, ?absent, ?replyStart, ?replyDrop, ?txEnd, ?txEndBlanked⟩
  case pulse =>
    intro gap width c1 _ hsees hlistens hmin hmax hpass hpin
    show execLampRxPulse gap width ⟨o, c, q⟩ = _
    rw [execLampRxPulse, State.run_settled, Chip.lampPulse_taken hsees hlistens hpass hpin hmin hmax]
  case rejected =>
    intro gap width c1 hsees hlistens hwidth hpass hpin
    show execLampRxPulse gap width ⟨o, c, q⟩ = _
    rw [execLampRxPulse, State.run_settled, Chip.lampPulse_rejected hsees hlistens hpass hpin hwidth]
  case frame =>
    rintro b len c1 hrx hbytes hlen hmax hall hcrc hdir rfl
    show execLampFrameEnd ⟨o, c, q⟩ = _
    rw [execLampFrameEnd, State.run_settled, Chip.lampFrameEnd_whole hrx hbytes hlen hmax hall hcrc hdir]
  case abort =>
    intro b len code hrx hbytes hlen hcode hfails
    show execLampFrameEnd ⟨o, c, q⟩ = _
    rw [execLampFrameEnd, State.run_settled, Chip.lampFrameEnd_abort hrx hbytes hlen hcode hfails]
  case act => exact fun g hgood => rfl
  case dazzle =>
    intro gap level hsees hlistens
    show execLampDazzle gap level ⟨o, c, q⟩ = _
    rw [execLampDazzle, State.run_settled, Chip.lampDazzle]
    split
    next hblanked => exact absurd hblanked hsees
    next htx => exact absurd htx hlistens
    next => rfl
  case blankEnd =>
    intro gap level hblanked
    show execLampBlankEnd gap level ⟨o, c, q⟩ = _
    simp only [execLampBlankEnd, State.run_settled, Chip.lampBlankEnd, Chip.lampLevel_rx, Chip.passTo_lamp, hblanked, if_true]
  case absent =>
    rintro level c1 rfl hpresent hlow
    show execLampAbsent level ⟨o, c, q⟩ = _
    simp only [execLampAbsent, State.run_settled, Chip.lampAbsent, hpresent, Nat.not_le.2 hlow, decide_false, Bool.or_self, Bool.false_eq_true,
      if_false]
  case replyStart =>
    rintro r rest c1 hreplies hidle rfl hup
    have htx : c.lamp.rx ≠ .tx := by rcases hidle with h | h <;> simp [h]
    have hnoPreamble : (c.lamp.rx == .preamble) = false := by rcases hidle with h | h <;> simp [h]
    have hnoFrame : (c.lamp.rx == .frame) = false := by rcases hidle with h | h <;> simp [h]
    show execLampReplyStart ⟨o, c, q⟩ = _
    simp only [execLampReplyStart, State.run_settled, Chip.lampStart, hreplies, htx, hup, Chip.passTo_lamp, hnoPreamble, hnoFrame,
      Bool.not_true, Bool.or_self, Bool.false_eq_true, if_false]
  case replyDrop =>
    intro r rest hreplies htx
    show execLampReplyDrop ⟨o, c, q⟩ = _
    simp only [execLampReplyDrop, State.run_settled, Chip.lampDrop, hreplies, htx, if_false]
  case txEnd =>
    intro htx hclear
    show execLampTxEnd ⟨o, c, q⟩ = _
    simp only [execLampTxEnd, State.run_settled, Chip.lampTxEnd, htx, Chip.passTo_lamp, hclear, ne_eq, not_true_eq_false, Bool.false_eq_true,
      if_false]
  case txEndBlanked =>
    intro htx hdazzled
    show execLampTxEnd ⟨o, c, q⟩ = _
    simp only [execLampTxEnd, State.run_settled, Chip.lampTxEnd, htx, Chip.passTo_lamp, hdazzled, ne_eq, not_true_eq_false, if_false, if_true]

end Sys2Proof.Machine
end

section
/-! The lamp port's commands (18_service_pins_and_lamp_port.md R476–R483; 17_signal_box.md R442). -/

namespace Sys2Proof.Machine

/-! ### Who serves a command (R476, R479) -/

section
variable {c : Chip} {g : LampCmd} {cmd : Nat} {f : LampCmd → Chip → List Byte × Chip} (hserving : c.lamp.serving = some g) (hcmd : g.cmd = cmd)
include hserving hcmd

/-- I0 answers a command of its own at once. -/
theorem Chip.lampServe_own (hnoItem : c.lamp.itemAt = none) :
    c.lampServe cmd f = ((f g c).2.lampReply g (f g c).1).setLamp fun l => { l with serving := none } := by
  simp only [Chip.lampServe, hserving, hcmd, hnoItem, Option.isSome_none, ne_eq, not_true_eq_false, Bool.false_eq_true, or_self, if_false]

/-- Ohmax takes and completes the command's item, acts, and places the reply. -/
theorem Chip.lampOhmaxServe_taken {i : RItem} {c1 : Chip} (hitem : c.lamp.itemAt.isSome = true) (hruns : c.lampOhmax = true)
    (htake : c.takeLamp 256 = some (i, c1)) :
    c.lampOhmaxServe cmd f = (f g (c1.completeItem 5 i.seq 0 0)).2.setRegBytes rLAMP_RBUF
      ((f g (c1.completeItem 5 i.seq 0 0)).1 ++ List.replicate (248 - (f g (c1.completeItem 5 i.seq 0 0)).1.length) 0) := by
  have hitem : c.lamp.itemAt.isNone = false := Option.isNone_eq_false_iff.2 hitem
  simp only [Chip.lampOhmaxServe, hserving, hcmd, hitem, hruns, htake, ne_eq, not_true_eq_false, Bool.false_eq_true, Bool.true_eq_false, or_self,
    if_false]

end

/-! ### The commands -/

/-- Settles O42. -/
theorem lampCommandsComplete : Obligations.LampCommandsComplete := by
  intro o c q
  refine ⟨?ident, ?status, ?ledger, ?challenge, ?tokenChunk, ?unlock, ?lock, ?amdChunk, ?amdPost, ?noReply, ?rsend, ?sessionEnds, ?nonceEnds⟩
  case ident =>
    intro g hserving hcmd hnoItem
    show execLampIdent ⟨o, c, q⟩ = _
    rw [execLampIdent, State.runO_settled, Chip.lampServe_own hserving hcmd hnoItem]
  case status =>
    intro g hserving hcmd hnoItem
    show execLampStatus ⟨o, c, q⟩ = _
    rw [execLampStatus, State.runO_settled, Chip.lampServe_own hserving hcmd hnoItem]
  case ledger =>
    intro g hserving hcmd hnoItem
    show execLampLedgerRead ⟨o, c, q⟩ = _
    rw [execLampLedgerRead, State.run_settled, Chip.lampServe_own hserving hcmd hnoItem]
  case challenge =>
    intro g hserving hcmd hnoItem
    show execLampChallenge ⟨o, c, q⟩ = _
    rw [execLampChallenge, State.run_settled, Chip.lampServe_own hserving hcmd hnoItem]
  case tokenChunk =>
    rintro g i c1 r hserving hcmd hitem hruns htake rfl
    show execLampTokenChunk ⟨o, c, q⟩ = _
    rw [execLampTokenChunk, State.run_settled, Chip.lampOhmaxServe_taken hserving hcmd hitem hruns htake]
  case unlock =>
    rintro ecdsa mldsa g i c1 r hserving hcmd hitem hruns htake rfl
    show execLampUnlock ecdsa mldsa ⟨o, c, q⟩ = _
    rw [execLampUnlock, State.runO_settled, Chip.lampOhmaxServe_taken hserving hcmd hitem hruns htake]
  case lock =>
    rintro g i c1 hserving hcmd hitem hruns htake
    show execLampLock ⟨o, c, q⟩ = _
    rw [execLampLock, State.run_settled, Chip.lampOhmaxServe_taken hserving hcmd hitem hruns htake]
  case amdChunk =>
    rintro g i c1 r hserving hcmd hitem hruns htake rfl
    show execLampAmdChunk ⟨o, c, q⟩ = _
    rw [execLampAmdChunk, State.run_settled, Chip.lampOhmaxServe_taken hserving hcmd hitem hruns htake]
  case amdPost =>
    rintro g i c1 r hserving hcmd hitem hruns htake rfl
    show execLampAmdPost ⟨o, c, q⟩ = _
    rw [execLampAmdPost, State.run_settled, Chip.lampOhmaxServe_taken hserving hcmd hitem hruns htake]
  case noReply =>
    intro g t hserving hitem
    show execLampNoReply ⟨o, c, q⟩ = _
    simp only [execLampNoReply, State.run_settled, Chip.lampNoReply, hserving, hitem]
  case rsend =>
    intro value g hserving hitem htag
    have hitem : c.lamp.itemAt.isNone = false := Option.isNone_eq_false_iff.2 hitem
    show execLampRsendWrite value ⟨o, c, q⟩ = _
    simp only [execLampRsendWrite, State.run_settled, Chip.lampRsend, hserving, hitem, htag, bne_self_eq_false, Bool.or_self,
      Bool.false_eq_true, if_false]
  case sessionEnds =>
    intro t hsession
    show execLampSessionExpiry ⟨o, c, q⟩ = _
    simp only [execLampSessionExpiry, State.run_settled, hsession]
  case nonceEnds =>
    intro n hnonce
    show execLampNonceExpiry ⟨o, c, q⟩ = _
    simp only [execLampNonceExpiry, State.run_settled, hnonce, Option.isNone_some, Bool.false_eq_true, if_false]

end Sys2Proof.Machine
end

section
/-! The commands of the power states (19_power_states.md R488–R504; 23_electrical.md R573–R588). -/

namespace Sys2Proof.Machine

/-! ### The oldest bounced write (R492) -/

/-- A package's own bounced write is dropped at its limit when no port's is older. -/
theorem Chip.expireBounce_own {c : Chip} {e : HeldPacket} (hheld : c.net.held.find? (·.bounced) = some e)
    (holdest : ∀ w ∈ c.ports.held.head?, e.since ≤ w.since) :
    c.expireBounce = (c.passTo (e.since + c.regField rPWR_BOUNCE 15 0 * tMs)).dropHeld e := by
  cases hports : c.ports.held with
  | nil => simp only [Chip.expireBounce, hheld, hports]
  | cons w l =>
    have hfirst : e.since ≤ w.since := holdest w (by rw [hports]; rfl)
    simp only [Chip.expireBounce, hheld, hports, hfirst, if_true]

/-! ### The commands -/

/-- Settles O36. -/
theorem powerCommandsComplete : Obligations.PowerCommandsComplete := by
  intro o c q
  refine ⟨?prepared, ?closed, ?closingLimit, ?openEdge, ?nextPlatform, ?lastPlatform, ?bounce, ?entry, ?alarm, ?pin, ?railTimeout, ?restart,
    ?railWake, ?avsMoves, ?avsFits, ?droop, ?recovery, ?brownOut, ?aoReset, ?thermal, ?trip, ?estimate, ?gate⟩
  case prepared =>
    intro isl hopen hprepare hready
    have hdone : ¬(isPlatIsland isl.val = true ∧ (!c.prepared isl.val) = true) := fun ⟨hplat, hnot⟩ => by simp [hready hplat] at hnot
    show execIslandPrepareDone isl ⟨o, c, q⟩ = _
    simp only [execIslandPrepareDone, State.run_settled, hopen, hprepare, hdone, ne_eq, not_true_eq_false, Bool.not_true, Bool.false_eq_true,
      or_self, if_false]
  case closed =>
    intro isl hclosing
    show execIslandClosed isl ⟨o, c, q⟩ = _
    rw [execIslandClosed, State.run_settled, if_pos hclosing]
  case closingLimit =>
    intro isl hclosing
    show execIslandClosingLimit isl ⟨o, c, q⟩ = _
    rw [execIslandClosingLimit, State.run_settled, if_pos hclosing]
  case openEdge =>
    intro isl hisl hopening
    show execIslandOpenEdge isl ⟨o, c, q⟩ = _
    rw [execIslandOpenEdge, State.runO_settled, if_pos ⟨hisl, hopening⟩]
  case nextPlatform =>
    rintro p k c1 hopening hgoes hidle rfl hnext
    have hnone : (platIslands.any fun n => decide ((c.island n).st = .opening)) = false := by simpa using hidle
    show execPlatformOpenInterval ⟨o, c, q⟩ = _
    simp only [execPlatformOpenInterval, State.runO_settled, hopening, hgoes, hnone, hnext, Bool.false_eq_true, false_and, or_self, if_false]
  case lastPlatform =>
    rintro p c1 hopening hgoes hidle rfl hlast
    have hnone : (platIslands.any fun n => decide ((c.island n).st = .opening)) = false := by simpa using hidle
    show execPlatformOpenInterval ⟨o, c, q⟩ = _
    simp only [execPlatformOpenInterval, State.runO_settled, hopening, hgoes, hnone, hlast, Bool.false_eq_true, false_and, or_self, if_false]
  case bounce =>
    intro e hheld holdest
    show execBounceExpiry ⟨o, c, q⟩ = _
    rw [execBounceExpiry, State.run_settled, Chip.expireBounce_own hheld holdest]
  case entry =>
    intro hready
    show execP2EntryComplete ⟨o, c, q⟩ = _
    rw [execP2EntryComplete, State.run_settled, if_pos hready]
  case alarm =>
    intro rails obs hsleepy hon htime
    show execWakeAlarm rails obs ⟨o, c, q⟩ = _
    simp only [execWakeAlarm, State.runO_settled, hsleepy, hon, Nat.not_lt.2 htime, decide_false, Bool.not_true, Bool.or_self,
      Bool.false_eq_true, if_false]
  case pin =>
    rintro pin rising rails obs w hsleepy rfl hfn hpin hon hpinOn hedge
    have hsleepy : (c.setPin pin.val fun p => { p with level := rising, input := rising }).sleepy = true := hsleepy
    show execWakePin pin rising rails obs ⟨o, c, q⟩ = _
    simp only [execWakePin, State.runO_settled, hfn, hpin, hon, hpinOn, hedge, hsleepy, beq_self_eq_true, decide_true, Bool.not_bne_self,
      Bool.and_self, if_true]
  case railTimeout =>
    intro hwaits
    show execWakeRailTimeout ⟨o, c, q⟩ = _
    simp only [execWakeRailTimeout, State.run_settled, hwaits, ne_eq, not_true_eq_false, if_false]
  case restart => exact fun obs hheld => if_pos hheld
  case railWake =>
    intro obs hfree hwaits
    show execRailReturn obs ⟨o, c, q⟩ = _
    rw [execRailReturn, if_neg (Bool.eq_false_iff.1 hfree), State.runO_settled, if_pos hwaits]
  case avsMoves =>
    rintro need t rfl hmoves
    show execAvsTargetUpdate need ⟨o, c, q⟩ = _
    rw [execAvsTargetUpdate, State.run_settled, if_neg hmoves]
  case avsFits =>
    intro need hfits
    show execAvsTargetUpdate need ⟨o, c, q⟩ = _
    rw [execAvsTargetUpdate, State.run_settled, if_pos hfits]
  case droop => exact fun plat mhz sensed => rfl
  case recovery => exact fun plat sensed => rfl
  case brownOut => exact fun rail => rfl
  case aoReset => rfl
  case thermal =>
    rintro plat port hbm c1 rfl
    rfl
  case trip => rfl
  case estimate => exact fun watts ungated => rfl
  case gate => rfl

end Sys2Proof.Machine
end

section
/-! The Ethernet ports' commands (15_host_and_memory_ports.md R399–R404; log entries 6, 41). -/

namespace Sys2Proof.Machine

/-! ### A command of a port, and a packet for a queue pair (R400) -/

section
variable {o : Otp} {c c1 c2 : Chip} {q : List Instr} {n : Nat}

/-- A command of a port acts once what the port sent before is gone. -/
theorem State.runEth_settled {f : Chip → Chip} (hsent : c1 = c.setEth n fun x => { x with sent := [] }) :
    State.runEth ⟨o, c, q⟩ n f = .next (State.settled ⟨o, c, q⟩ (f c1)) := by
  subst hsent
  rfl

/-- A packet for a queue pair of the plan that is not in error has its effect once an ECN mark is answered and the PSN advanced. -/
theorem Chip.qpMessage_taken {qpn len : Nat} {ecn : Bool} {k : List Byte → Chip → Chip} {e : List Byte}
    (hentry : c1.im.qpEntry n qpn = some e) (hlive : c1.ethLive n = true) (hgood : (c1.qp e).error = false)
    (hpsn : c2 = (if ecn then c1.ethSend n (.cnp qpn) else c1).setQp e fun x =>
      { x with epsn := (x.epsn + max 1 (ceilDiv len (max 1 ((if ecn then c1.ethSend n (.cnp qpn) else c1).im.ethPmtu n)))) % 2 ^ 24 }) :
    c1.qpMessage n qpn len ecn k = k e c2 := by
  subst hpsn
  simp only [Chip.qpMessage, hentry, hlive, hgood, Bool.not_true, Bool.or_self, Bool.false_eq_true, if_false]

end

/-! ### The commands -/

/-- Settles O46. The recovery by a sixteenth and the access errors are the model's reading (log entry 41). -/
theorem networkCommandsComplete : Obligations.NetworkCommandsComplete := by
  intro o c q
  refine ⟨?linkUp, ?linkDown, ?send, ?writeImm, ?writeRefused, ?write, ?readRefused, ?readTable, ?read, ?cnp, ?recovery, ?egress, ?egressAgain,
    ?egressAck, ?reset, ?error, ?ptp, ?wall⟩
  case linkUp =>
    intro eth c1 hc1 hen hopen hstep
    show execEthernetLinkChange eth true ⟨o, c, q⟩ = _
    rw [execEthernetLinkChange, State.runEth_settled hc1, if_pos rfl, if_pos ⟨hen, hopen, hstep⟩]
  case linkDown =>
    intro eth c1 hc1
    show execEthernetLinkChange eth false ⟨o, c, q⟩ = _
    rw [execEthernetLinkChange, State.runEth_settled hc1, if_neg Bool.false_ne_true]
  case send =>
    intro eth qpn e imm data ecn c2 c1 hc1 hentry hlive hgood hc2
    show execRoceSendReceive eth qpn imm data ecn ⟨o, c, q⟩ = _
    rw [execRoceSendReceive, State.runEth_settled hc1, Chip.qpMessage_taken hentry hlive hgood hc2]
  case writeImm =>
    intro eth qpn e imm va rkey data ecn c2 c1 hc1 hentry hlive hgood hc2
    show execRoceWriteImmReceive eth qpn imm va rkey data ecn ⟨o, c, q⟩ = _
    rw [execRoceWriteImmReceive, State.runEth_settled hc1, Chip.qpMessage_taken hentry hlive hgood hc2]
  case writeRefused =>
    intro eth qpn e va rkey data ecn c2 c1 hc1 hentry hlive hgood hc2 htarget
    show execRdmaWriteReceive eth qpn va rkey data ecn ⟨o, c, q⟩ = _
    rw [execRdmaWriteReceive, State.runEth_settled hc1, Chip.qpMessage_taken hentry hlive hgood hc2]
    simp only [htarget]
  case write =>
    intro eth qpn e va rkey data ecn c2 c1 hc1 hentry hlive hgood hc2 htarget
    show execRdmaWriteReceive eth qpn va rkey data ecn ⟨o, c, q⟩ = _
    rw [execRdmaWriteReceive, State.runEth_settled hc1, Chip.qpMessage_taken hentry hlive hgood hc2]
    simp only [htarget]
  case readRefused =>
    intro eth qpn e va rkey len obs line ecn c2 c1 hc1 hentry hlive hgood hc2 hkey
    show execRdmaReadRequest eth qpn va rkey len obs line ecn ⟨o, c, q⟩ = _
    rw [execRdmaReadRequest, State.runEth_settled hc1, Chip.qpMessage_taken hentry hlive hgood hc2, if_pos hkey]
  case readTable =>
    intro eth qpn e va rkey len obs line ecn c2 c1 hc1 hentry hlive hgood hc2 hkey hlow hhigh
    show execRdmaReadRequest eth qpn va rkey len obs line ecn ⟨o, c, q⟩ = _
    rw [execRdmaReadRequest, State.runEth_settled hc1, Chip.qpMessage_taken hentry hlive hgood hc2, if_neg (not_not.2 hkey), if_pos ⟨hlow, hhigh⟩]
  case read =>
    intro eth qpn e va rkey len obs line ecn c2 d c3 c1 hc1 hentry hlive hgood hc2 hkey hobject hcovered hmem hread
    have hnotTable : ¬(dbBase + 0x100000 ≤ va.toNat ∧ va.toNat + len ≤ dbBase + 0x180000) := by
      intro ⟨hlow, _⟩
      simp only [dbBase] at hlow
      omega
    have hinside : ¬(2 ^ 50 ≤ va.toNat ∨ (!c2.covered va.toNat len) = true) :=
      fun h => h.elim (Nat.not_le.2 hobject) (by simp [hcovered])
    show execRdmaReadRequest eth qpn va rkey len obs line ecn ⟨o, c, q⟩ = _
    rw [execRdmaReadRequest, State.runEth_settled hc1, Chip.qpMessage_taken hentry hlive hgood hc2, if_neg (not_not.2 hkey), if_neg hnotTable,
      if_neg hinside]
    simp only [hmem, hread, Bool.not_true, Bool.false_eq_true, if_false]
  case cnp =>
    intro eth qpn e c1 hc1 hentry hlive
    show execCnpReceive eth qpn ⟨o, c, q⟩ = _
    rw [execCnpReceive, State.runEth_settled hc1]
    simp only [hentry, hlive, Bool.not_true, Bool.false_eq_true, if_false]
  case recovery =>
    rintro eth c2 c1 hc1 hslowed rfl
    show execCnpRateRecovery eth ⟨o, c, q⟩ = _
    rw [execCnpRateRecovery, State.runEth_settled hc1]
    simp only [hslowed, Bool.not_true, Bool.false_eq_true, if_false]
  case egress =>
    intro eth qpn e i c2 c1 hc1 hentry hlive hgood hout hmem hnone htake
    show execEgressSend eth qpn ⟨o, c, q⟩ = _
    rw [execEgressSend, State.runEth_settled hc1]
    simp only [hentry, hout, hlive, hgood, hmem, hnone, htake, Bool.not_true, Bool.or_self, Bool.false_eq_true, if_false]
  case egressAgain =>
    intro eth qpn e seq c1 hc1 hentry hlive hgood hout hmem hitem
    show execEgressSend eth qpn ⟨o, c, q⟩ = _
    rw [execEgressSend, State.runEth_settled hc1]
    simp only [hentry, hout, hlive, hgood, hmem, hitem, Bool.not_true, Bool.or_self, Bool.false_eq_true, if_false]
  case egressAck =>
    intro eth qpn e seq c1 hc1 hentry hlive hgood hmem hitem
    show execEgressAck eth qpn ⟨o, c, q⟩ = _
    rw [execEgressAck, State.runEth_settled hc1]
    simp only [hentry, hlive, hgood, hmem, hitem, Bool.not_true, Bool.or_self, Bool.false_eq_true, if_false]
  case reset =>
    intro eth qpn e c1 hc1 hentry
    show execQpReset eth qpn ⟨o, c, q⟩ = _
    rw [execQpReset, State.runEth_settled hc1]
    simp only [Chip.qpReset, hentry]
  case error =>
    intro eth qpn e c1 hc1 hentry hen hgood
    show execQueuePairError eth qpn ⟨o, c, q⟩ = _
    rw [execQueuePairError, State.runEth_settled hc1]
    simp only [hentry, hen, hgood, Bool.not_true, Bool.or_self, Bool.false_eq_true, if_false]
  case ptp =>
    intro eth c1 hc1 hlive
    have htime : c1.now = c.tt.counter := by rw [hc1]; rfl
    show execPtpEventMessage eth ⟨o, c, q⟩ = _
    rw [execPtpEventMessage, State.runEth_settled hc1]
    simp only [hlive, htime, Bool.not_true, Bool.false_eq_true, if_false]
  case wall =>
    rintro tai c1 hruns hseen rfl
    have hseen : ((c.eth 0).ptpSeen || (c.eth 1).ptpSeen) = true := by rwa [Bool.or_eq_true]
    show execPortWallPublish tai ⟨o, c, q⟩ = _
    simp only [execPortWallPublish, State.run_settled, hruns, hseen, Bool.not_true, Bool.or_self, Bool.false_eq_true, if_false]

end Sys2Proof.Machine
end
